-- ==== Sys2Proof/Word.lean ====
section
/-! DEFINITION. The words of the HX8: bytes, 32-bit register words, 64-bit quantities, and the sparse
containers that State is made of. Nothing here computes; the helpers are in Machine/Bits.lean and
Machine/Maps.lean. -/

namespace Sys2Proof

/-- A byte of memory. -/
abbrev Byte := BitVec 8

/-- A BAR0 register (R4) or a general register of a lane (R257 and following). -/
abbrev Word := BitVec 32

/-- A 64-bit quantity: an address, an identity, a value of a register pair (R7). -/
abbrev Word64 := BitVec 64

/-- A sparse table: pairs of a key and a value, the keys strictly rising (`Machine.Map.sorted`). -/
abbrev Table (α : Type) := List (Nat × α)

/-- A sparse byte memory: addresses strictly rising, no entry equal to what an unlisted address reads
as (`Machine.Mem.wf`). An unlisted address reads as zero (log entry 5). -/
abbrev Mem := List (Nat × Byte)

end Sys2Proof
end

