-- ==== Sys2Proof/Machine/Types/Module.lean ====
section
/-! DEFINITION. State of the module, its rounds and hops, its boot and its resets: chapters "Module, Package
and Connectors", "Rounds, Turns and Self-Timed Logic" and "Power-Up, Reset and Boot". Status registers are
fields of the register file (`State.regs`); what stands here is what no register holds. -/

namespace Sys2Proof.Machine

/-- The power states of R97. -/
inductive PowerState
  | off | standby | ready | run
  deriving DecidableEq, Repr

/-- Why the module waits to complete a change to Standby (R98: it completes after the snapshot). -/
inductive StandbyCause
  | perst | powerLoss | dryStop
  deriving DecidableEq, Repr

/-- State of the module that is in no register: the power state, what the island has recognized on the J5
contacts and J1, and the time the island keeps. -/
structure ModuleState where
  /-- R97. -/
  power : PowerState
  /-- A change to Standby that waits for the cairn snapshot (R98). -/
  toStandby : Option StandbyCause
  /-- PERST# is asserted. -/
  perst : Bool
  /-- FLOW_OK as last recognized (R84). -/
  flowOk : Bool
  /-- BYPASS_REQ# is asserted. -/
  bypassReq : Bool
  /-- SLOT_ID as sampled under R80, and as the contacts last stood. -/
  slotId : Nat
  slotSeen : Nat
  /-- Microseconds since the island left Off (R850). -/
  islandUs : Nat
  /-- Consecutive J1 samples below uv_warn, below uv_trip, above ov_warn, above ov_trip (R93). -/
  uvWarnRun : Nat
  uvTripRun : Nat
  ovWarnRun : Nat
  ovTripRun : Nat
  /-- Consecutive J1 samples below 30 V, and at or above 42 V (R98). -/
  offRun : Nat
  coldRun : Nat
  /-- J1 voltage samples (10 mV) and J1 power samples (pips) of the last millisecond, newest first. -/
  volts : List Nat
  pips : List Nat
  /-- Working converter tiles, one bit each (GLB_CONV). -/
  tiles : Nat
  /-- The hold of R96. -/
  powerLossHold : Bool
  /-- A Ready request stands (R99). -/
  readyReq : Bool
  /-- The hold of R647: the restart clock runs from this island time while FLOW_OK is high. -/
  dryHold : Bool
  flowHighSince : Option Nat
  /-- PWR_CFG.restart_hold and warn as they were when the hold of R647 began. -/
  holdSeconds : Nat
  holdWarn : Nat
  deriving DecidableEq, Repr

/-- Drain classes of R166. -/
inductive Drain
  | response | forward | request
  deriving DecidableEq, Repr

/-- What part of a frame a message rides (R142 to R145). -/
inductive Lane
  | control | floor | booked | openTraffic
  deriving DecidableEq, Repr

/-- A message at a hop's launcher: what it rides, whose it is, its class (R52), drain class, bytes with its
header, the epoch bit of R248, the absolute turn it was booked for, and on a col its engine (R230) and stream
channel. -/
structure HopMsg where
  lane : Lane
  part : Nat
  cls : Nat
  drain : Drain
  bytes : Nat
  epoch : Nat
  booked : Nat
  engine : Nat
  chan : Nat
  deriving DecidableEq, Repr

/-- State of the beacon, the turn tables and the hops. -/
structure RoundState where
  /-- The round number of R128. -/
  round : Nat
  /-- The turn within the round. -/
  turn : Nat
  /-- 1 while the beacon runs. -/
  running : Bool
  /-- RND_ROUND_HI as latched under R175. -/
  latchedHi : Nat
  /-- Turn tables of both banks: key bank, hop, link, direction; a table no load or selection wrote is not
  listed and every entry of it reads 0x70 (R141). -/
  tables : Table (List Nat)
  /-- Messages waiting at each hop direction, in their order of delivery (R164), each with the absolute turn
  before whose edge it was handed to the launcher (R133). -/
  waiting : Table (List (Nat × HopMsg))
  /-- The frame each hop direction sent last. -/
  sent : Table (List HopMsg)
  /-- Partition and hop direction already charged in the turn, and partitions already reported this round. -/
  charged : List (Nat × Nat)
  reported : List Nat
  /-- Floor reads outstanding in each half (tag, line), and the messages of the reads that wait at each floor
  gate, oldest first (R151). -/
  floorOut : Table (List (Nat × Nat))
  gateWait : Table (List Nat)
  deriving DecidableEq, Repr

/-- A reset waiting or running (R199 to R209). -/
structure ResetReq where
  kind : Nat
  target : Nat
  port : Nat
  cause : Nat
  /-- The hub command has carried out its effects. -/
  done : Bool
  deriving DecidableEq, Repr

/-- State of the boot, the peaks and the resets. -/
structure BootState where
  /-- A boot runs. -/
  running : Bool
  /-- Island time at which the boot started, and GLB_BOOT_CTL as read at its start (R216). -/
  startUs : Nat
  ctl : Nat
  /-- Power-ons of each peak in this boot (R188). -/
  attempts : Table Nat
  /-- Why the boot is a recovery boot (event 0x010F). -/
  recoveryReason : Nat
  /-- Resets deferred while a swap runs (R207), and the resets in progress. -/
  deferred : List ResetReq
  active : List ResetReq
  /-- Image key of R236: the 96 bytes of the key, if the boot has one. -/
  imageKey : List Nat
  deriving DecidableEq, Repr

/-- A promotion: kind 1 firmware, 2 microcode, 3 image; the image's store index; the slot written (1 A, 2 B, 0 none); and
its result, once the object has been checked. -/
structure Promo where
  kind : Nat
  index : Nat
  slot : Nat
  result : Option Nat
  deriving DecidableEq, Repr

/-- A store image slot of the hub firmware (R239, R258): the bytes of a promoted image. -/
structure StoreState where
  /-- The 64 MiB MRAM of R114. -/
  mem : Mem
  /-- Items whose placement R919 leaves to the hub firmware: stored images by index, the default index,
  write-pending marks (slot base), saved host-port settings, incarnation, and the V_cal log by half. -/
  images : Table (List Nat)
  defaultImage : Nat
  pendingMark : List Nat
  hostCfg : Table Nat
  incarnation : Nat
  vcalLog : Table (List Nat)
  /-- A write through GLB_STORE_DATA in progress: address and word. -/
  writing : Option (Nat × Nat)
  /-- A promotion in progress (R210 to R212). -/
  promo : Option Promo
  deriving DecidableEq, Repr

/-- Values set at manufacturing test ("fused"). -/
structure FuseState where
  serial : Nat
  /-- The 48 bytes of the key digest (R924). -/
  keyDigest : List Nat
  /-- Physical cores fused bad, by half, one bit each. -/
  coreBad : Table Nat
  /-- Ceilings of the cores by half and core, of the arrays by half, and V_cal0 by half (mV). -/
  coreCeil : Table Nat
  arrayCeil : Table Nat
  vcal0 : Table Nat
  deriving DecidableEq, Repr

end Sys2Proof.Machine
end

