-- ==== Sys2Proof/Machine/Types/Cols.lean ====
section
/-! DEFINITION. Cols: chapter "Cols: Die-to-Die Streams". A frame's payload is held as the messages it carries
with the units they fill; the bytes of a payload belong to the engines (R531), and a slot's crc is held as good
or bad (log entry 46). A frame is named by the turn that carried it, counted from the col's training. -/

namespace Sys2Proof.Machine

/-- A group slot as a col end receives it (R529): the lane group it came on, seq, slot, the replay flag, map
version, replay_seq, replay_slot, and whether its crc is good. -/
structure GroupSlot where
  group : Nat
  seq : Nat
  slot : Nat
  replay : Bool
  mapver : Nat
  replaySeq : Nat
  replaySlot : Nat
  crcOk : Bool
  deriving DecidableEq, Repr

/-- Where a message stands in a frame: its first unit, its units, the message, and whether it is late. -/
structure Placed where
  first : Nat
  units : Nat
  msg : HopMsg
  late : Bool
  deriving DecidableEq, Repr

/-- A frame: its turn, G, what it carries, the active index carried by each slot that has arrived intact, and
the replays that ride booked units of it (first unit, frame, slot; R542). -/
structure ColFrame where
  seq : Nat
  groups : Nat
  msgs : List Placed
  got : List Nat
  rides : List (Nat × Nat × Nat)
  deriving DecidableEq, Repr

/-- A slot that arrived damaged: frame, active index, the group that carried it, damaged replays, and the turn of
the last damage. -/
structure DamagedSlot where
  seq : Nat
  slot : Nat
  group : Nat
  tries : Nat
  turn : Nat
  deriving DecidableEq, Repr

/-- A replay asked of the sender: frame, slot, the turn it is due in, and whether it has been sent. -/
structure ReplayDue where
  seq : Nat
  slot : Nat
  turn : Nat
  done : Bool
  deriving DecidableEq, Repr

/-- One direction of a col. Sender: frames of the last 12 turns (R540), replays, credits of each channel
(unlisted: 256, R535). Receiver: frames not wholly delivered, damaged slots, damaged slots of each group in the
round. -/
structure ColDir where
  sent : List ColFrame
  due : List ReplayDue
  credits : Table Nat
  held : List ColFrame
  damaged : List DamagedSlot
  counts : Table Nat
  deriving DecidableEq, Repr

/-- A group marked for retirement (R545): its cause (0 err_limit, 1 lock, 2 exhausted) and the turn its retire
message landed in, once it has. -/
structure RetireMark where
  group : Nat
  cause : Nat
  landed : Option Nat
  deriving DecidableEq, Repr

/-- A col: its state (R551), the groups by active index, idle spares and retired groups ascending, the map
version, the turn of its training, retirements under way, groups being retrained, and its directions. -/
structure ColSt where
  st : Nat
  active : List Nat
  spares : List Nat
  retired : List Nat
  mapver : Nat
  origin : Nat
  marks : List RetireMark
  retraining : List Nat
  d0 : ColDir
  d1 : ColDir
  deriving DecidableEq, Repr

end Sys2Proof.Machine
end

