-- ==== Sys2Proof/Machine/Types/Cores.lean ====
section
/-! DEFINITION. Cores and thread groups: chapters "Cores and Thread Groups", "The Core Instruction Set" and
"Core Memory Access". -/

namespace Sys2Proof.Machine

/-- One core instruction's words as decoded fields (R293, R294): whether it is long, the guard, the register
and modifier fields, the 11-bit immediate as an unsigned number, and word 1 of a long form (0 otherwise). -/
structure CoreFields where
  long : Bool
  pred : Nat
  neg : Bool
  d : Nat
  a : Nat
  b : Nat
  c : Nat
  mod : Nat
  imm : Nat
  w1 : Nat
  deriving DecidableEq, Repr

/-- Which thread group of which core: physical half, logical core, group slot. -/
structure GroupRef where
  half : Nat
  core : Nat
  slot : Nat
  deriving DecidableEq, Repr

/-- What a group waits for before it may issue again. -/
inductive Wait
  | ready
  | barrier (k : Nat)
  | memory
  | fence (scope : Nat)
  | tiles
  | submit
  | fault (cause : Nat)
  | trap
  deriving DecidableEq, Repr

/-- A trap a group has raised and that waits to be reported (R323, R324). -/
structure TrapInfo where
  code : Nat
  user : Nat
  lanes : Nat
  /-- Absolute turn in which it was raised. -/
  turn : Nat
  deriving DecidableEq, Repr

/-- How far one lane's access is: not answered; a request of its own (RdNC, WrNC, Atom, or one to the system
window or a ring window) is out; done, with the value a load has; stopped on a resumable fault (its code). -/
inductive PieceSt
  | idle
  | out
  | done (v : Nat)
  | fault (code : Nat)
  deriving DecidableEq, Repr

/-- One lane's access of one memory instruction: element (LD.Gn), address, bytes, the value a store carries,
and the compare value of a cas. -/
structure Piece where
  lane : Nat
  elem : Nat
  addr : Nat
  len : Nat
  val : Nat
  cmp : Nat
  st : PieceSt
  deriving DecidableEq, Repr

/-- The kind of a memory instruction in progress. -/
inductive MemKind
  | ld | st | ldc | gather | atom
  deriving DecidableEq, Repr

/-- A memory instruction in progress: destination register, bytes of its words, width of an element in bytes
and its sign extension (R301), cache operation, whether it is served at the home (vol at device or system
scope), the operation of an atomic, the elements of a gather, whether its destination is marked pending, and
its lanes' accesses in lane order. -/
structure MemOp where
  kind : MemKind
  d : Nat
  len : Nat
  width : Nat
  sext : Bool
  cop : Nat
  atHome : Bool
  atomOp : Nat
  uns : Bool
  n : Nat
  mark : Bool
  /-- The number its requests carry. -/
  tag : Nat
  pieces : List Piece
  deriving DecidableEq, Repr

/-- A shadow-served read of the current window (R518): line, sectors, the confirmation and its answer once it is
in hand; `lost` when its home faulted before it answered (R523), `taken` when a reissued load waits for it. -/
structure WindowRead where
  line : Nat
  mask : Nat
  conf : Nat
  data : Option Nat
  lost : Bool
  taken : Bool
  deriving DecidableEq, Repr

/-- The architectural state a checkpoint keeps (after R319). -/
structure Checkpoint where
  regs : Table Nat
  preds : Table Nat
  pc : Nat
  mask : Nat
  rpc : Nat
  stack : List (Nat × Nat × Nat)
  gprog : Table Nat
  deriving DecidableEq, Repr

/-- A thread group (R270 to R287, R305, R314). Registers are keyed lane × 256 + register, an unlisted one is
zero; predicate k is the mask of the lanes in which it is true. -/
structure Group where
  regsPer : Nat
  regs : Table Nat
  preds : Table Nat
  pc : Nat
  mask : Nat
  rpc : Nat
  stack : List (Nat × Nat × Nat)
  /-- Threads that have exited, one bit each. -/
  exited : Nat
  gprog : Table Nat
  /-- First slot of the block, and index within it. -/
  block : Nat
  gidx : Nat
  wait : Wait
  memop : Option MemOp
  trap : Option TrapInfo
  /-- Pending marks (R314): registers, predicates, path. -/
  pendRegs : List Nat
  pendPreds : List Nat
  pathPending : Bool
  /-- Unconfirmed loads, oldest first, and the checkpoint (R519) with the rows saved in its window. -/
  unconf : List Nat
  ckpt : Option Checkpoint
  savedRows : List Nat
  /-- The shadow-served reads of the window; and, in a replay, those whose answers the reissued loads take
  (R518). -/
  window : List WindowRead
  replay : List WindowRead
  /-- Tiles submitted and not completed (R400), and stores issued and not performed. -/
  tilesOut : Nat
  storesOut : Nat
  /-- Launch order for issue (R280). -/
  order : Nat
  /-- Island time + 1 at which a resumable fault was reported (0: not reported), with the timeout in force then
  (R368). -/
  faultRound : Nat
  faultTimeout : Nat
  deriving DecidableEq, Repr

/-- A block: one tile on one core (R270 to R275). -/
structure Blk where
  job : Nat
  part : Nat
  phase : Nat
  lhalf : Nat
  pcore : Nat
  tidx : Nat
  gcnt : Nat
  param : Nat
  argBase : Nat
  argLen : Nat
  kernel : Nat
  kernelLen : Nat
  /-- Local store window in bytes, and its contents. -/
  window : Nat
  ls : Mem
  /-- Flags of the plan, and the phase's shadow setting (R62). -/
  ring : Bool
  sys : Bool
  shadow : Bool
  /-- fp_trap and brk_halt as taken at the phase start (R329). -/
  fpTrap : Nat
  brkHalt : Bool
  /-- Groups arrived at each barrier. -/
  arrived : Table (List Nat)
  deriving DecidableEq, Repr

/-- A core: its groups by slot, its blocks by first slot, and its read-only caches of R343, most recently
used first: 128-byte lines by line number, and 64-byte entries by address / 64, each with what it held when
it was filled. -/
structure Core where
  groups : Table Group
  blocks : Table Blk
  constLines : List (Nat × Nat)
  descLines : List (Nat × Nat)
  deriving DecidableEq, Repr

/-- State of the cores: keyed half × 128 + logical core; and the goodness of R261 by half. -/
structure CoreState where
  cores : Table Core
  rowBad : Table Nat
  failed : Table Nat
  /-- Launch counter for R280. -/
  launches : Nat
  /-- Physical core of a logical core by half (R264), while a map change waits (R267). -/
  mapPending : List Nat
  /-- fp_trap + 16 × brk_halt of each half, as taken at its last phase start (R329). -/
  isa : Table Nat
  /-- The slot that a DBG step lets issue one instruction on a core of a halted half (R843), by core. -/
  stepOk : Table Nat
  deriving DecidableEq, Repr

end Sys2Proof.Machine
end

