-- ==== Sys2Proof/Machine/Types/Inputs.lean ====
section
/-! DEFINITION. What comes to a command from outside the state: sensor readings and results of training. -/

namespace Sys2Proof.Machine

/-- What a round's boundary brings: the partitions whose job was, in the round that ends, blocked only on a
host memory response, an unread page stream or a ring peer ("Planned Operation"); the canary readings of
R628 (half, row, reading in 10 M steps/s); and the halves that held a tile and stepped below the plan rate
(R290), with the number of such turns. -/
structure RoundIn where
  ext : List Nat
  canary : List (Nat × Nat × Nat)
  slow : List (Nat × Nat)
  deriving DecidableEq, Repr

/-- The unit in which a handshake stalls (R165, R892, R903, R906). -/
inductive StallUnit
  | core (half core : Nat)
  | array (half : Nat)
  | governor (half : Nat)
  | launch (half : Nat)
  | l1 (half : Nat)
  | slice (half : Nat)
  | directory (half : Nat)
  | stack (peak : Nat)
  | colEnd (col die : Nat)
  | hub
  | otherUnit (die half : Nat)
  deriving DecidableEq, Repr

/-- A hardware fault that a unit detects (R885, R892, R906): an uncorrectable register-file or local store error of a
physical core; an internal error of a unit of a half's array; a corrected error of a slice (line, way; R458); an uncorrectable error of a slice's sector (line, sector,
way), of a stack's sector (pseudo-channel, address), or of a tag or directory entry (line, way); a stack's loss of
training; a fault of a unit of Tarn; a sequencer whose reset has not completed in its time (R905). -/
inductive HwFault
  | coreStore (half core : Nat)
  | arrayError (half unit : Nat)
  | sliceCorrected (half line way : Nat)
  | sliceSector (half line sector way : Nat)
  | stackSector (peak channel addr : Nat)
  | stackTraining (peak : Nat)
  | tagError (half line way : Nat)
  | tarn (unit : Nat)
  | resetLate (seq : Nat)
  deriving DecidableEq, Repr

/-- Results of a peak's self-test (R188): cores the row test finds bad in halves A and B, one bit each, and
V_cal of both halves in mV (R633). -/
structure SelfTest where
  badA : Nat
  badB : Nat
  vcalA : Nat
  vcalB : Nat
  deriving DecidableEq, Repr

end Sys2Proof.Machine
end

