-- ==== Sys2Proof/Machine/Types/Host.lean ====
section
/-! DEFINITION. Host ports, DMA engines and page streams: chapter "Host Ports". A function is keyed
port × 64 + function number (R694). -/

namespace Sys2Proof.Machine

/-- What the host has set up in a function's configuration space and in its MSI-X table (R702): the function
exists and is enabled, MSI-X Enable, the table's words (keyed vector × 4 + word; unlisted: 0, and masked in
word 3), and the pending vectors. -/
structure HostFunc where
  enabled : Bool
  msix : Bool
  table : Table Word
  pend : List Nat
  deriving DecidableEq, Repr

/-- Who waits for an answer from outside the package: a group of a logical core (with the number of its memory
instruction) for a line's accesses, a
host DMA engine with its line, a ring DMA engine with its line or its doorbell, a sequencer's memory port with the word's offset in the line,
Tarn with a layer (0xFF its output) and a line of its, or nobody: a census record. -/
inductive Asker
  | core (half lcore slot op line : Nat)
  | hostDma (k line : Nat)
  | ringDma (e line : Nat)
  | ringBell (e : Nat)
  | seq (d off : Nat)
  | tarn (layer line : Nat)
  | census
  deriving DecidableEq, Repr

/-- A read request at a host (R704): who asks, the endpoint's port and function, PASID when it carries one,
the host address and the length. -/
structure HostRead where
  who : Asker
  port : Nat
  func : Nat
  pasid : Option Nat
  addr : Nat
  len : Nat
  deriving DecidableEq, Repr

/-- A host DMA engine's transfer (R709 to R714): lines sent to be written, and WrNCs not yet acknowledged. -/
structure HostDma where
  src : Nat
  dst : Nat
  len : Nat
  mask : Nat
  irq : Bool
  vector : Nat
  /-- Lines taken from the source and lines written. -/
  sent : Nat
  lines : Nat
  deriving DecidableEq, Repr

/-- A page-stream descriptor (R715). -/
structure PageDesc where
  enable : Bool
  func : Nat
  port : Nat
  pageLog2 : Nat
  pages : Nat
  vector : Nat
  buf : Nat
  irqPage : Bool
  irqIncomplete : Bool
  deriving DecidableEq, Repr

/-- Who fills a page stream (R717). -/
inductive Producer
  | tarn
  | cairn
  deriving DecidableEq, Repr

/-- A page stream (R717 to R727): state (0 idle, 1 open, 2 incomplete, 3 bad descriptor), the cached
descriptor, the producer, the read index, the lengths of the published pages not yet acknowledged, whether
the last of them carries the end mark, the highest offset read plus 1, the incomplete bit, and whether the
unacknowledged count rose from 0 in this round, the island time at which the stream timer last restarted, and what the
producer has been told (0 nothing, 1 taken whole, 2 taken whole and incomplete, 3 aborted; R723, R724). -/
structure PStream where
  st : Nat
  desc : Option PageDesc
  producer : Option Producer
  r : Nat
  lens : List Nat
  ended : Bool
  pos : Nat
  incomplete : Bool
  rose : Bool
  since : Nat
  told : Nat
  deriving DecidableEq, Repr

/-- State of the host ports. -/
structure HostState where
  funcs : Table HostFunc
  /-- Trained rate (0 6.0, 1 5.0, 2 4.0) and lanes of endpoint 2 × port + b stand in HPT_LINK. Port and split
  settings in force since the boot (R728). -/
  split : Table Bool
  vfbar : Table Nat
  /-- Cached map entries by page (R706), and the invalidation in progress and the one held: a page, or
  4,194,304 for all, with the round of acceptance. -/
  swmCache : Table Nat
  swmInval : Option (Nat × Nat)
  swmHeld : Option Nat
  reads : Table HostRead
  nextRead : Nat
  dma : Table HostDma
  streams : Table PStream
  pstInval : Option (Nat × Nat)
  pstHeld : Option Nat
  /-- BAR2 writes received and not yet sent to their homes, by function key, oldest first: address and bytes
  (R701). -/
  bar2Out : Table (List (Nat × List Nat))
  /-- Links that a write of HPT_PORT_CTL trains again (R728): HP0.a, HP0.b, HP1.a, HP1.b. -/
  retrain : Nat
  /-- How the last access of a host completed: 0 successful, 1 Unsupported Request, 2 Completer Abort, 3 with
  poisoned data. -/
  status : Nat
  deriving DecidableEq, Repr

end Sys2Proof.Machine
end

