-- ==== Sys2Proof/Machine/Types/Ring.lean ====
section
/-! DEFINITION. The ring: chapter "The Ring". -/

namespace Sys2Proof.Machine

/-- The packet types of R735, and any other type (R751). -/
inductive PktKind
  | put | get | doorbell | crec | putAck | getData | dbAck | crecAck | stale | refused | other
  deriving DecidableEq, Repr

/-- A packet (R735) without its crc; its payload is one number, byte 0 least significant. `bytes` is the mask
of the payload bytes that a PUT writes: whole sectors, but for a core's ST (log entry 30). -/
structure RPkt where
  kind : PktKind
  src : Nat
  dst : Nat
  retry : Bool
  mc : Bool
  mask : Nat
  srcInc : Nat
  dstInc : Nat
  seq : Nat
  tag : Nat
  halfMask : Nat
  offset : Nat
  status : Nat
  hops : Nat
  bytes : Nat
  data : Nat
  deriving DecidableEq, Repr

/-- An outstanding request of this member as a source (R753, R756): its packet, who asked, its direction
(0 east, 1 west), its tries, and whether it has been sent. -/
structure RTxn where
  pkt : RPkt
  who : Asker
  dir : Nat
  tries : Nat
  sent : Bool
  deriving DecidableEq, Repr

/-- A roll mark (R742). -/
structure RollMark where
  origin : Nat
  inc : Nat
  serial : Nat
  name : Nat
  hops : Nat
  eastUp : Bool
  westUp : Bool
  stopped : Bool
  departing : Bool
  genE : Nat
  genW : Nat
  eastNb : Nat
  westNb : Nat
  deriving DecidableEq, Repr

/-- A census token (R766). -/
structure Token where
  origin : Nat
  sweep : Nat
  reverse : Bool
  returning : Bool
  visited : Nat
  inc : Nat
  deriving DecidableEq, Repr

/-- Control items a port has to send (R734). -/
inductive CtlItem
  | credit (cls count : Nat)
  | nak (turn slot : Nat)
  | mark (m : RollMark)
  | token (t : Token)
  | departure (id inc : Nat)
  deriving DecidableEq, Repr

/-- What a frame carried: its local turn, its items, and its packets by slot. -/
structure RFrame where
  turn : Nat
  items : List CtlItem
  pkts : List (Nat × RPkt)
  deriving DecidableEq, Repr

/-- A ring port: what training exchanged, credits of the neighbour (request, response), control items to
send, link naks to send with the frames left that carry each (turn, slot, frames; R736), responses and transit requests queued, the frames of the last 16 turns, and damaged slots waited for
(turn, slot, times, response class). -/
structure RPort where
  nbName : Nat
  nbId : Nat
  nbInc : Nat
  nbSerial : Nat
  reqCredits : Nat
  rspCredits : Nat
  items : List CtlItem
  naks : List (Nat × Nat × Nat)
  rsps : List RPkt
  transit : List RPkt
  sent : List RFrame
  replays : List (Nat × Nat)
  damaged : List (Nat × Nat × Nat × Bool)
  /-- Frames sent, for the skip turn (R733). -/
  turns : Nat
  /-- Packets that arrived intact and wait for an earlier damaged slot of their class (turn, slot, packet; R736). -/
  held : List (Nat × Nat × RPkt)
  deriving DecidableEq, Repr

/-- A member as the latest mark shows it, the map's fields standing in RNG_MAP. -/
structure Member where
  mark : RollMark
  /-- The island time since which it is missing, if it is (R744). -/
  missing : Option Nat
  deriving DecidableEq, Repr

/-- Why a departure stands (R749). -/
inductive DepartCause
  | bypass | op | cfg | fatal
  deriving DecidableEq, Repr

/-- A census this member originates (R767 to R769): sweep, flags of the header, records received by id, ids
seen eastward and westward, start round, visited as the returned token said. -/
structure Census where
  sweep : Nat
  closedAtStart : Bool
  reissued : Bool
  reverse : Bool
  east : Nat
  west : Nat
  got : Nat
  start : Nat
  returned : Option Nat
  deriving DecidableEq, Repr

/-- A ring DMA engine's transfer (R764). -/
structure RingDma where
  src : Nat
  dst : Nat
  len : Nat
  mask : Nat
  irq : Bool
  db : Bool
  vector : Nat
  mbox : Nat
  value : Nat
  sent : Nat
  lines : Nat
  /-- Stopping after the line in flight: a departure. -/
  halting : Bool
  deriving DecidableEq, Repr

/-- An inbound request that waits to have been performed: its packet and the port it came in by. -/
structure InReq where
  pkt : RPkt
  port : Nat
  deriving DecidableEq, Repr

/-- State of the ring. -/
structure RingState where
  switchesOpen : Bool
  /-- Joining: ports have not both come up and no JOIN_END yet. -/
  joining : Bool
  duplicate : Bool
  /-- A departure in force with its cause, and whether it has completed. -/
  departing : Option DepartCause
  departDone : Bool
  /-- Transactions that responses have completed since the departure started (R749). -/
  departGot : Nat
  ports : Table RPort
  members : Table Member
  /-- Next pair sequence by target × 65,536 + incarnation; expected sequence by source × 65,536 +
  incarnation; recorded answers by (source × 65,536 + incarnation), newest first. -/
  seqOut : Table Nat
  expected : Table Nat
  answers : Table (List RPkt)
  /-- Requests of this member by tag, and those of its own waiting to be sent, oldest first. -/
  txns : Table RTxn
  queue : List Nat
  nextTag : Nat
  /-- Inbound requests being executed. -/
  inbound : Table InReq
  nextIn : Nat
  dma : Table RingDma
  census : Option Census
  sweep : Nat
  /-- A mark is due at the next round boundary. -/
  markDue : Bool
  mboxDue : Bool
  /-- Packets addressed to this member that wait to be served, with the port they came in by, oldest first. -/
  rx : List (Nat × RPkt)
  /-- The last of the own marks sent east has returned on the west port (R744). -/
  loop : Bool
  /-- Island time at which the first port came up while joining (R748). -/
  firstUp : Option Nat
  /-- LINK_LOST completions of the round by target, sources answered STALE in the round. -/
  lostNoted : Table Nat
  deriving DecidableEq, Repr

end Sys2Proof.Machine
end

