-- ==== Sys2Proof/Syntax.lean ====
section
/-! DEFINITION. The commands of the HX8: one constructor per row of the table of operations and events, in
the table's order. A command is a register access, an event on a pin or a link, a step of one of the HX8's
own engines, or one instruction of a thread group; its operands are what the HX8 is given from outside. A
half is 0 (P0.A) to 15 (P7.B), a die 0 to 7 for a peak and 8 for the hub, a col 0 to 13 in the order of R71. -/

namespace Sys2Proof

open Sys2Proof.Machine

/-- The commands. -/
inductive Instr
  /-- REGISTER_WRITE: BAR0 write of a function (R696) to any register; fields follow their access types (R8). -/
  | registerWrite (port func off : Nat) (v : Word)
  /-- BAR0_BAD_ACCESS: BAR0 access of a size (bytes) or alignment other than R5 allows (R6). -/
  | bar0BadAccess (write : Bool) (off size : Nat)
  /-- LO_HALF_WRITE: 32-bit write of a _LO register (R7). -/
  | loHalfWrite (port func off : Nat) (v : Word)
  /-- HI_HALF_WRITE: write of a _HI register (R7). -/
  | hiHalfWrite (port func off : Nat) (v : Word)
  /-- SELECTOR_WRITE: write of a function's selector register (R37). -/
  | selectorWrite (port func off : Nat) (v : Word)
  /-- ROUND_BOUNDARY: the edge that begins turn 0 of a round (R127), with what the round's sensors and waits were. -/
  | roundBoundary (inp : Machine.RoundIn)
  /-- HOP_FRAME_SEND: one hop direction sends its frame of a turn (R146); `offered` was handed to its launcher before the edge (R133). -/
  | hopFrameSend (hop link dir turn : Nat) (offered : List Machine.HopMsg)
  /-- HANDSHAKE_STALL: a handshake has not completed 128 turns after it was needed (R165). -/
  | handshakeStall (unit : Machine.StallUnit)
  /-- FLOOR_GATE_ADMIT: the floor gate of a half admits a waiting read (R151). -/
  | floorGateAdmit (half : Nat)
  /-- ROUND_LO_READ: read of RND_ROUND_LO (R175). -/
  | roundLoRead
  /-- TURN_TABLE_SELECT: write of RND_TT_SEL (R920). -/
  | turnTableSelect (v : Word)
  /-- TURN_TABLE_ENTRY_WRITE: write of RND_TT_DATA (R174). -/
  | turnTableEntryWrite (v : Word)
  /-- J1_SAMPLE: the 1 µs sample of J1 (R93): voltage in 10 mV units, input power in pips. -/
  | j1Sample (volts pips : Nat)
  /-- ENTER_STANDBY_FROM_OFF: J1 stood at or above the cold uv_warn for 10 ms (R98, R176); SLOT_ID contacts. -/
  | enterStandbyFromOff (slot : Nat)
  /-- PERST_ASSERT: PERST# is asserted (R98). -/
  | perstAssert
  /-- PERST_DEASSERT: PERST# is deasserted with the SLOT_ID contacts (R80). -/
  | perstDeassert (slot : Nat)
  /-- SLOT_ID_COMPARE: the millisecond comparison of SLOT_ID (R81). -/
  | slotIdCompare (slot : Nat)
  /-- FLOW_OK_FALL: a FLOW_OK fall is recognized (R106). -/
  | flowOkFall
  /-- FLOW_OK_RISE: a FLOW_OK rise is recognized (R107). -/
  | flowOkRise
  /-- BYPASS_REQ_ASSERT: BYPASS_REQ# is asserted (R113). -/
  | bypassReqAssert
  /-- BYPASS_REQ_DEASSERT: BYPASS_REQ# is deasserted (R749). -/
  | bypassReqDeassert
  /-- PSTATE_REQ_RUN: GLB_PSTATE_REQ written with Run (R98). -/
  | pstateReqRun
  /-- PSTATE_REQ_READY: GLB_PSTATE_REQ written with Ready (R99). -/
  | pstateReqReady
  /-- RUN_TO_READY: no job holds a partition after a Ready request (R98). -/
  | runToReady
  /-- CONVERTER_TILE_FAIL: a converter tile fails (R90). -/
  | converterTileFail (tile : Nat)
  /-- REF_OSC_LOST: the reference shows no edge for 1 µs (R119). -/
  | refOscLost
  /-- REF_OSC_RESTORED: the reference ran 1 ms without a gap (R119). -/
  | refOscRestored
  /-- LIMIT_SAMPLE: the 100 µs sample of R122: coolant inlet, coolant outlet and lid, °C. -/
  | limitSample (inlet outlet lid : Int)
  /-- STORE_DATA_READ: read of GLB_STORE_DATA (R116). -/
  | storeDataRead
  /-- STORE_DATA_WRITE: write of GLB_STORE_DATA (R117). -/
  | storeDataWrite (v : Word)
  /-- INLIM_THR_WRITE: write of GLB_INLIM_THR (R124). -/
  | inlimThrWrite (v : Word)
  /-- BOOT_START: the island starts a boot (R177). -/
  | bootStart
  /-- BOOT_STEP_FIRMWARE: boot step 1 (R182). -/
  | bootStepFirmware
  /-- BOOT_STEP_HUB: boot step 2 (R180). -/
  | bootStepHub
  /-- BOOT_STEP_WAVE_1: boot step 3 (R179): the lane groups of each col that pass training, as (col, mask). -/
  | bootStepWave1 (passed : List (Nat × Nat))
  /-- BOOT_STEP_WAVE_2: boot step 4 (R179). -/
  | bootStepWave2 (passed : List (Nat × Nat))
  /-- BOOT_STEP_CROSS_COLS: boot step 5 (R179). -/
  | bootStepCrossCols (passed : List (Nat × Nat))
  /-- BOOT_STEP_HBM: boot step 6 (R191): stacks that train, one bit each. -/
  | bootStepHbm (trained : Nat)
  /-- BOOT_STEP_CACHE: boot step 7 (R179). -/
  | bootStepCache
  /-- BOOT_STEP_IMAGE: boot step 8 (R192). -/
  | bootStepImage
  /-- PEAK_REPORT_UP: a peak reports up (R188) with the results of its self-test. -/
  | peakReportUp (peak : Nat) (test : Machine.SelfTest)
  /-- PEAK_LAGGING: a peak is not up 40 ms after power-on (R188). -/
  | peakLagging (peak : Nat)
  /-- PEAK_SECOND_ATTEMPT: a lagging peak is powered on again (R188). -/
  | peakSecondAttempt (peak : Nat)
  /-- PEAK_FAILED: a peak is not up 40 ms after its second power-on (R188). -/
  | peakFailed (peak : Nat)
  /-- RESET_COLD: GLB_RESET with kind 1 (R199) and its key field (R217). -/
  | resetCold (key : Nat)
  /-- RESET_WARM: GLB_RESET with kind 2 (R199). -/
  | resetWarm (key : Nat)
  /-- RESET_PARTITION: GLB_RESET with kind 3 (R203). -/
  | resetPartition (key target : Nat)
  /-- RESET_FUNCTION_LEVEL: GLB_RESET with kind 4 (R205). -/
  | resetFunctionLevel (key target port : Nat)
  /-- RESET_SEQUENCER: GLB_RESET with kind 5 (R204). -/
  | resetSequencer (key target : Nat)
  /-- PARTITION_RESET_COMPLETE: a partition reset completes (R203). -/
  | partitionResetComplete (part : Nat)
  /-- SEQUENCER_RESET_COMPLETE: a sequencer reset completes (R204). -/
  | sequencerResetComplete (seq : Nat)
  /-- FLR_CONFIG: Function Level Reset in configuration space (R206). -/
  | flrConfig (port func : Nat)
  /-- FLR_COMPLETE: a function-level reset completes (R206). -/
  | flrComplete (port func : Nat) (enabled msix : Bool)
  /-- HOST_HOT_RESET: hot reset or link disable on an endpoint, 0 a or 1 b (R686). -/
  | hostHotReset (port ep : Nat) (disable : Bool)
  /-- VF_ENABLE_CLEAR: VF Enable of an endpoint's PF is cleared (R695). -/
  | vfEnableClear (port ep : Nat)
  /-- PROMOTE_FIRMWARE: GLB_PROMOTE with kind 1 (R212). -/
  | promoteFirmware
  /-- PROMOTE_MICROCODE: GLB_PROMOTE with kind 2 (R212). -/
  | promoteMicrocode
  /-- PROMOTE_IMAGE: GLB_PROMOTE with kind 3 and a store index (R239). -/
  | promoteImage (index : Nat)
  /-- PROMOTE_DONE: a promotion ends (R211). -/
  | promoteDone
  /-- IMAGE_LOAD: write of IMG_LOAD with go set (R237). -/
  | imageLoad (src index : Nat)
  /-- IMAGE_LOAD_DONE: the loader finishes its checks (R238). -/
  | imageLoadDone
  /-- IMAGE_COMMIT: write of IMG_COMMIT (R242). -/
  | imageCommit (key : Nat)
  /-- IMAGE_SEL_WRITE: write of IMG_SEL (R258). -/
  | imageSelWrite (v : Word)
  /-- IMAGE_DEFAULT_WRITE: write of IMG_DEFAULT (R259). -/
  | imageDefaultWrite (v : Word)
  /-- SHIFT_SCHEDULE: the hub command of a shift commit (R245). -/
  | shiftSchedule
  /-- EPOCH_MARK_ACK: a sequencer acknowledges the epoch mark (R246). -/
  | epochMarkAck (seq : Nat)
  /-- SHIFT_ABANDON: an acknowledgement is missing at S - 4 (R246). -/
  | shiftAbandon
  /-- SWAP_START: the boundary of round S (R247). -/
  | swapStart
  /-- PARTITION_OPEN: a new partition opens (R250). -/
  | partitionOpen (part : Nat)
  /-- SWAP_END: the first boundary after the cleanse (R252). -/
  | swapEnd
  /-- SWAP_MAX_ROUNDS: round S + max_rounds (R255). -/
  | swapMaxRounds
  /-- NOP: Instruction with no effect (R300). -/
  | nop (g : GroupRef) (f : CoreFields)
  /-- IADD: Integer add of a and b (R300). -/
  | iadd (g : GroupRef) (f : CoreFields)
  /-- ISUB: Integer subtract of b from a (R300). -/
  | isub (g : GroupRef) (f : CoreFields)
  /-- IMUL: Low half of the integer product of a and b (R300). -/
  | imul (g : GroupRef) (f : CoreFields)
  /-- IMULHI: High half of the integer product of a and b (R300). -/
  | imulhi (g : GroupRef) (f : CoreFields)
  /-- IMAC: Low half of a times b, plus c (R300). -/
  | imac (g : GroupRef) (f : CoreFields)
  /-- IMIN: Integer minimum of a and b (R300). -/
  | imin (g : GroupRef) (f : CoreFields)
  /-- IMAX: Integer maximum of a and b (R300). -/
  | imax (g : GroupRef) (f : CoreFields)
  /-- AND: Bitwise AND of a and b (R300). -/
  | and (g : GroupRef) (f : CoreFields)
  /-- OR: Bitwise OR of a and b (R300). -/
  | or (g : GroupRef) (f : CoreFields)
  /-- XOR: Bitwise XOR of a and b (R300). -/
  | xor (g : GroupRef) (f : CoreFields)
  /-- SHL: Shift a left by b[7:0] (R300). -/
  | shl (g : GroupRef) (f : CoreFields)
  /-- SHR: Shift a right by b[7:0], logical or arithmetic (R300). -/
  | shr (g : GroupRef) (f : CoreFields)
  /-- BCNT: Count of ones in a (R300). -/
  | bcnt (g : GroupRef) (f : CoreFields)
  /-- LZCNT: Count of leading zeros in a (R300). -/
  | lzcnt (g : GroupRef) (f : CoreFields)
  /-- BSEL: Byte select from the 8-byte value a:b under control c (R300). -/
  | bsel (g : GroupRef) (f : CoreFields)
  /-- ICMP: Integer compare of a and b into a predicate (R300). -/
  | icmp (g : GroupRef) (f : CoreFields)
  /-- SEL: Select a or b by predicate c (R300). -/
  | sel (g : GroupRef) (f : CoreFields)
  /-- FADD: FP32 add (R300). -/
  | fadd (g : GroupRef) (f : CoreFields)
  /-- FMUL: FP32 multiply (R300). -/
  | fmul (g : GroupRef) (f : CoreFields)
  /-- FFMA: FP32 fused multiply-add rounded once (R300). -/
  | ffma (g : GroupRef) (f : CoreFields)
  /-- FMIN: FP32 minimum (R300). -/
  | fmin (g : GroupRef) (f : CoreFields)
  /-- FMAX: FP32 maximum (R300). -/
  | fmax (g : GroupRef) (f : CoreFields)
  /-- FCMP: FP32 compare into a predicate (R300). -/
  | fcmp (g : GroupRef) (f : CoreFields)
  /-- FMF: FP32 special function selected by mod (R300). -/
  | fmf (g : GroupRef) (f : CoreFields)
  /-- PADD: Packed 16-bit add (R300). -/
  | padd (g : GroupRef) (f : CoreFields)
  /-- PMUL: Packed 16-bit multiply (R300). -/
  | pmul (g : GroupRef) (f : CoreFields)
  /-- PFMA: Packed 16-bit fused multiply-add (R300). -/
  | pfma (g : GroupRef) (f : CoreFields)
  /-- PMIN: Packed 16-bit minimum (R300). -/
  | pmin (g : GroupRef) (f : CoreFields)
  /-- PMAX: Packed 16-bit maximum (R300). -/
  | pmax (g : GroupRef) (f : CoreFields)
  /-- CVT: Type conversion under the CVT rules (R301). -/
  | cvt (g : GroupRef) (f : CoreFields)
  /-- CVTS: Saturating type conversion (R301). -/
  | cvts (g : GroupRef) (f : CoreFields)
  /-- MOV: Move b to d (R300). -/
  | mov (g : GroupRef) (f : CoreFields)
  /-- RDSR: Read the special register named in mod (R302). -/
  | rdsr (g : GroupRef) (f : CoreFields)
  /-- XLANE: Read a of another lane (R300). -/
  | xlane (g : GroupRef) (f : CoreFields)
  /-- LVOTE: Any, all or ballot vote over the acting threads (R300). -/
  | lvote (g : GroupRef) (f : CoreFields)
  /-- BRA: Conditional branch with a reconvergence point, pushing divergence entries as needed (R283). -/
  | bra (g : GroupRef) (f : CoreFields)
  /-- BRI: Indirect branch to per-thread targets in ascending order (R285). -/
  | bri (g : GroupRef) (f : CoreFields)
  /-- EXIT: The acting threads exit (R286). -/
  | exit (g : GroupRef) (f : CoreFields)
  /-- BAR: Block barrier k (R311). -/
  | bar (g : GroupRef) (f : CoreFields)
  /-- BAR_COMPLETE: A barrier completes once every group of the block that has not exited has arrived (R311). -/
  | barComplete (half core b k : Nat)
  /-- BRK: Breakpoint that halts an armed half or raises BREAK (R320). -/
  | brk (g : GroupRef) (f : CoreFields)
  /-- TRAP: Raises USER with the code in imm11 (R300). -/
  | trap (g : GroupRef) (f : CoreFields)
  /-- LD: Global load, possibly served by a shadow read (R300). -/
  | ld (g : GroupRef) (f : CoreFields)
  /-- ST: Global store (R300). -/
  | st (g : GroupRef) (f : CoreFields)
  /-- LDS: Local store load, with bank-conflict replays (R300). -/
  | lds (g : GroupRef) (f : CoreFields)
  /-- STS: Local store store (R300). -/
  | sts (g : GroupRef) (f : CoreFields)
  /-- LDC: Load through the constant or descriptor cache (R344). -/
  | ldc (g : GroupRef) (f : CoreFields)
  /-- LD_GN: Per-thread gather of n elements, resuming from GPROG (R304). -/
  | ldGn (g : GroupRef) (f : CoreFields)
  /-- ATOM: Atomic read-modify-write at the home in HBM (R308). -/
  | atom (g : GroupRef) (f : CoreFields)
  /-- ATOMS: Atomic read-modify-write in local store (R309). -/
  | atoms (g : GroupRef) (f : CoreFields)
  /-- FENCE: Fence at a scope (R310). -/
  | fence (g : GroupRef) (f : CoreFields)
  /-- MXS: Submits a matrix tile descriptor to the half's array (R373). -/
  | mxs (g : GroupRef) (f : CoreFields)
  /-- MXW: Waits until every tile of the group has completed (R400). -/
  | mxw (g : GroupRef) (f : CoreFields)
  /-- CONFIRMATION_RESPONSE: The response to a confirmation confirms the waiting loads or denies them and replays from the checkpoint (R517). -/
  | confirmationResponse (msg : Nat)
  /-- TRAP_REPORT: A trap with no unconfirmed load stops the group, partition-resets, and completes the job as ended by trap (R324). -/
  | trapReport (part : Nat)
  /-- TRAP_CLEAR: A write of 1 to COR_TRAP_CLR.clear clears the trap information registers of the half (R300). -/
  | trapClear (half : Nat)
  /-- RESUMABLE_FAULT_REPORT: A resumable fault with no unconfirmed load stops the group, is recorded in COR_MFLT and signals a notice (R357). -/
  | resumableFaultReport (g : GroupRef)
  /-- MFLT_RESUME: A write of COR_MFLT_CTL.resume reissues every stopped group's instruction and clears the fault registers (R358). -/
  | mfltResume (half : Nat)
  /-- MFLT_ABORT: A write of COR_MFLT_CTL.abort partition-resets and completes the job as ended by memory fault (R359). -/
  | mfltAbort (half : Nat)
  /-- MFLT_TIMEOUT: A fault unresumed for COR_MEM_CFG.timeout aborts as R359 gives (R359). -/
  | mfltTimeout (half : Nat)
  /-- BLOCK_END: A block ends when every thread has exited and every tile it submitted has completed, freeing its slots (R274). -/
  | blockEnd (half core b : Nat)
  /-- TILE_ACCEPT: The array checks a descriptor and accepts it into its queue once an entry is free, or refuses it with the MX trap (R374). -/
  | tileAccept (half : Nat)
  /-- PAIR_TIMEOUT: A paired MXS with no partner accepted within pair_timeout rounds is refused with reason 8 (R380). -/
  | pairTimeout (half : Nat)
  /-- CHUNK_STAGED: The streamer completes staging one chunk of operands into a bank (R383). -/
  | chunkStaged (half : Nat)
  /-- MAIN_LOOP_START: A tile's main loop starts once the previous main loop has ended, an accumulator set is free, and its partner stands at the head of its queue (R396). -/
  | mainLoopStart (half : Nat)
  /-- MAIN_LOOP_END: A tile's main loop ends and its epilogue is started when the previous epilogue has ended (R396). -/
  | mainLoopEnd (half stall : Nat)
  /-- TILE_COMPLETE: A tile completes when its epilogue writes are performed at device scope (R400). -/
  | tileComplete (half : Nat)
  /-- LEAVE_GRANT: A waiting draw is granted in request order once the share covers it (R615). -/
  | leaveGrant (half : Nat)
  /-- POOL_GRANT: A waiting pool request is granted at the next turn edge once the pool covers it (R619). -/
  | poolGrant
  /-- LIMIT_WRITE: A write of PWR_LIMIT is clamped or ignored, and otherwise takes effect at the next round boundary (R622). -/
  | limitWrite (v : Word)
  /-- LIMIT_CHANGE: When L changes, budgets and the pool are recomputed, and pool grants, bookings and shares are revoked or cut within 20 µs (R623). -/
  | limitChange
  /-- DROOP_KICK: A canary reading below the plan rate raises the rail by 25 mV within 100 ns (R630). -/
  | droopKick (half row reading : Nat)
  /-- JUNCTION_WARN: A half reaching the warn temperature sets PWR_EVENT.warn (R638). -/
  | junctionWarn (half temp : Nat)
  /-- JUNCTION_HOT: A half reaching the hot temperature revokes every pool grant and holds the pool (R639). -/
  | junctionHot (half temp : Nat)
  /-- JUNCTION_HOT_CLEAR: Every half falling below warn releases the hot hold on the pool (R639). -/
  | junctionHotClear (temps : List Nat)
  /-- JUNCTION_TRIP: A half reaching 115 °C starts a dry stop with cause thermal (R640). -/
  | junctionTrip (half temp : Nat)
  /-- DRY_STOP_END: After a rise within 2 s, the stacks wake and shares are regranted at the next round boundary, and every unit resumes (R645). -/
  | dryStopEnd
  /-- DRY_STOP_TIMEOUT: A flow dry stop not ended within 2 s takes the module to Standby with warm-reset effects (R646). -/
  | dryStopTimeout
  /-- HBM_IDLE_SELF_REFRESH: In Ready, a stack idle for 1 ms enters self-refresh (R457). -/
  | hbmIdleSelfRefresh (peak : Nat)
  /-- PATROL_SCRUB: Each scrub interval starts a pass that reads every line of the span (R456). -/
  | patrolScrub (peak : Nat) (fixed bad : List (Nat × Nat))
  /-- MULTICAST_COPY_INSTALL: A slice receiving a multicast copy installs it as a guest copy (R446). -/
  | multicastCopyInstall (msg : Nat)
  /-- GETS: The home serves a GetS in its directory state, merging reads of one turn (R473). -/
  | gets (msg : Nat)
  /-- GETM: The home serves a GetM, invalidating or forwarding as the state requires (R473). -/
  | getm (msg : Nat)
  /-- UPG: The home serves an Upg from a listed holder, or as a GetM otherwise (R473). -/
  | upg (msg : Nat)
  /-- FILL: The home serves a Fill by value from the value holder (R472). -/
  | fill (msg : Nat)
  /-- PUTM: The home writes back the dirty sectors of a PutM and updates the directory (R473). -/
  | putm (msg : Nat)
  /-- PUTE: The home serves a clean eviction from E (R473). -/
  | pute (msg : Nat)
  /-- PUTF: The home serves a clean eviction from F (R473). -/
  | putf (msg : Nat)
  /-- RDNC: The home serves a read without a copy by value (R472). -/
  | rdnc (msg : Nat)
  /-- WRNC: The home performs a write without a copy, after invalidating any holders (R473). -/
  | wrnc (msg : Nat)
  /-- ATOM_REQUEST: The home performs an atomic operation after invalidating any holders (R473). -/
  | atomRequest (msg : Nat)
  /-- INVS: An L1 drops its shared copy and answers InvAck (R481). -/
  | invs (msg : Nat)
  /-- FWDS: An L1 sends Data to the requesters, downgrades and answers FwdAck (R481). -/
  | fwds (msg : Nat)
  /-- FWDM: An L1 sends Data M, drops the line to a wake copy and answers FwdAck (R481). -/
  | fwdm (msg : Nat)
  /-- FWDR: An L1 sends the requested sectors with no state change (R481). -/
  | fwdr (msg : Nat)
  /-- RECALL: An L1 drops the line and returns its dirty sectors in InvAck (R481). -/
  | recall (msg : Nat)
  /-- DATA: An L1 installs a line in the granted state, performs its access and sends Done (R482). -/
  | data (msg : Nat)
  /-- GRANT: An L1 takes ownership for its Upg and sends Done (R482). -/
  | grant (msg : Nat)
  /-- INVACK: The home writes any returned dirty sectors and closes the transaction when it has every acknowledgement (R476). -/
  | invack (msg : Nat)
  /-- FWDACK: The home records a forward done and may close the transaction or send Release (R476). -/
  | fwdack (msg : Nat)
  /-- DONE: The home records the new holder, performs its store at device scope, and may close the transaction (R480). -/
  | done (msg : Nat)
  /-- DONEACK: An L1 ends the open state of a line and counts its stores performed (R485). -/
  | doneack (msg : Nat)
  /-- RELEASE: An L1 frees the wake slot and serves any forward that waited for one (R484). -/
  | release (msg : Nat)
  /-- PUTACK: An L1 in MI_A or II_A moves to I, and waiting accesses proceed (R481). -/
  | putack (msg : Nat)
  /-- WRACK: A device-scope volatile store completes at the core (R509). -/
  | wrack (msg : Nat)
  /-- ATOMRSP: An atomic returns its old value to d (R308). -/
  | atomrsp (msg : Nat)
  /-- NACK: A requester refused at a col end keeps the ticket for its retry (R493). -/
  | nack (msg : Nat)
  /-- RETRY_SEND: A refused request is sent again with its ticket in the next booked or open coherence turn (R495). -/
  | retrySend (msg : Nat)
  /-- TICKET_EXPIRE: A ticket not used within ticket_life rounds expires (R496). -/
  | ticketExpire (half ticket : Nat)
  /-- L1_HOLD_END: One turn after an install, and once its access has completed, the L1 serves the forwards it deferred (R483). -/
  | l1HoldEnd (half phys line : Nat)
  /-- COL_GROUP_SLOT_RECEIVE: A col end receives a group slot, checks it and delivers its units or sends Naks (R538). -/
  | colGroupSlotReceive (col dir : Nat) (slot : GroupSlot)
  /-- COL_NAK_RECEIVE: A sender receiving a Nak schedules the slot's replay for turn t + 3 (R539). -/
  | colNakReceive (col dir seq slot : Nat)
  /-- COL_CREDIT_RETURN: A credit slot in the control lane returns credits to a channel (R535). -/
  | colCreditReturn (col dir : Nat) (returns : List (Nat × Nat))
  /-- COL_LOCK_LOSS: A group whose lanes lose lock for 2 turns is marked for retirement (R545). -/
  | colLockLoss (col group : Nat)
  /-- COL_RETIRE_MESSAGE: A retire message names a group to replace at the next qualifying boundary (R546). -/
  | colRetireMessage (col group : Nat)
  /-- COL_SPARE_REPLACE: At a round boundary both ends put a spare into service, raising the map version, or the col goes thin (R546). -/
  | colSpareReplace (col : Nat)
  /-- COL_DEGRADE: With no spare, the col drops an active index and renumbers its groups at the boundary, and becomes degraded (R549). -/
  | colDegrade (col : Nat)
  /-- COL_FAIL: A col below 7 groups, or with every group out of lock for 16 turns, fails and discards its messages (R550). -/
  | colFail (col : Nat) (lock : Bool)
  /-- COL_RETRAIN_DONE: A background retraining of a retired group ends with it becoming a spare or staying retired (R548). -/
  | colRetrainDone (col group : Nat) (pass : Bool)
  /-- COL_CTL_RETRAIN: A write of COL_CTL.retrain retrains every retired group of the peak's col ends once (R548). -/
  | colCtlRetrain (peak : Nat)
  /-- DOORBELL_TAIL: A CHN_DB write with which 0 publishes a new tail, or is refused (R572). -/
  | doorbellTail (port func chan value : Nat)
  /-- DOORBELL_CQ_HEAD: A CHN_DB write with which 1 returns completion space, or is refused (R572). -/
  | doorbellCqHead (port func chan value : Nat)
  /-- CHN_INVAL: A write of CHN_INVAL starts invalidation of cached channel entries, merging with a held write (R922). -/
  | chnInval (v : Word)
  /-- CHN_INVAL_DONE: A channel-entry invalidation completes (R922). -/
  | chnInvalDone
  /-- CHN_ENABLE: CHN_CTL with op 1 makes a disabled channel active (R600). -/
  | chnEnable (chan : Nat)
  /-- CHN_DISABLE: CHN_CTL with op 2 stops the channel from reading items (R600). -/
  | chnDisable (chan : Nat)
  /-- CHN_FLUSH: CHN_CTL with op 3 flushes the channel at the next boundary, letting running jobs finish (R598). -/
  | chnFlush (chan : Nat)
  /-- CHN_FLUSH_KILL: CHN_CTL with op 4 flushes the channel and ends its running job by partition reset (R598). -/
  | chnFlushKill (chan : Nat)
  /-- FLUSH_COMPLETE: A flush completes when its records are posted, and the channel is disabled (R600). -/
  | flushComplete (chan : Nat)
  /-- JOB_PRIO_CMD: A write of JOB_PRIO_CMD requests a priority change to apply at the next round boundary (R586). -/
  | jobPrioCmd (v : Word)
  /-- READ_ITEMS: Hub command that reads whole published items from channels, making jobs or bad-item records (R576). -/
  | readItems
  /-- ADMIT_JOB: Hub command that makes the admission checks, books leave, or defers the job for its quota (R55). -/
  | admitJob (job : Nat)
  /-- DISPATCH: Hub command that dispatches or resumes the highest-priority, oldest admitted job in each free partition (R583). -/
  | dispatch
  /-- HUB_PHASE_START: Hub command that starts a phase, granting and splitting its leave (R612). -/
  | hubPhaseStart (job : Nat)
  /-- HUB_PHASE_END: Hub command run when a phase's tiles have drained: it ends the phase, and at a point it stops or holds the job, or writes its record at the end (R59). -/
  | hubPhaseEnd (job : Nat)
  /-- POST_COMPLETION: Hub command that posts written completion records to rings that have space (R592). -/
  | postCompletion (chan : Nat)
  /-- PRIORITY_CHANGE: Hub command that applies a priority change to a waiting or running job (R587). -/
  | priorityChange
  /-- FLUSH: Hub command that completes a channel's jobs and items up to the flush tail (R599). -/
  | flush (chan : Nat)
  /-- HUB_PARTITION_RESET: Hub command that carries out a partition reset (R203). -/
  | hubPartitionReset (part : Nat)
  /-- STORE_PROMOTION: Hub command that writes a checked object into a store slot under a write-pending mark (R212). -/
  | storePromotion
  /-- PATCH_LOAD: Hub command that writes a patch into every sequencer's inactive bank and latches patch-apply events (R675). -/
  | patchLoad
  /-- PEAK_PHASE_START: Peak command that applies the split and the new map, and invalidates the read-only caches (R269). -/
  | peakPhaseStart (peak job : Nat)
  /-- TILE_LAUNCH: Peak command that launches tiles into free group slots within groups_max (R50). -/
  | tileLaunch (half core : Nat)
  /-- PHASE_DRAIN: Peak command that drains a phase until its writes are visible at device scope (R59). -/
  | phaseDrain (peak job : Nat)
  /-- SHARE_UPDATE: Peak command that delivers each half's share of the phase grant to its governor (R613). -/
  | shareUpdate (peak job : Nat)
  /-- PEAK_PARTITION_RESET: Peak command that resets the cores, L1s and local store of a partition's halves (R203). -/
  | peakPartitionReset (peak part : Nat)
  /-- COL_RETIRE_REPLACE: Peak command that carries out retirement and spare replacement at a col end (R546). -/
  | colRetireReplace (peak : Nat)
  /-- CLEANSE: Peak command that writes back and invalidates the lines of changed regions and discards their guest copies (R251). -/
  | cleanse (peak : Nat)
  /-- SELF_TEST: Peak command that runs the row test and canary calibration (R188). -/
  | selfTest (peak : Nat) (test : SelfTest)
  /-- CORE_REMAP: Peak command that computes the core maps (R266). -/
  | coreRemap (peak : Nat)
  /-- COL_RETRAIN: Peak command that retrains retired col groups (R548). -/
  | colRetrain (peak : Nat)
  /-- UNKNOWN_OPCODE: A command with an unknown opcode is refused with result 0xFFFF_FFFF and event 0x0C06 (R663). -/
  | unknownOpcode (seq : Nat)
  /-- MICROWORD_EXECUTE: A sequencer executes one microword and forms its next address (R659). -/
  | microwordExecute (seq : Nat) (flips : List Nat)
  /-- HOLD_RELEASE: A hold word whose condition becomes true performs its actions once (R661). -/
  | holdRelease (seq : Nat)
  /-- COMMAND_BOUNDARY: At a command boundary the sequencer serves the highest-ranked latched event, or else dispatches the oldest command (R664). -/
  | commandBoundary (seq : Nat) (arrived : List (List Nat))
  /-- ROUND_WORK: A sequencer serves the round-work event latched at a round boundary (R666). -/
  | roundWork (seq : Nat)
  /-- SEQ_INBOUND_MESSAGE: A sequencer serves an inbound control-lane message (R664). -/
  | seqInboundMessage (seq : Nat)
  /-- SEQ_WATCHDOG: A command running longer than wdog turns is a sequencer fault of cause 1 (R667). -/
  | seqWatchdog (seq : Nat)
  /-- PATCH_APPLY_REQUEST: A write of SEQ_PATCH_CTL with op 1 and the key requests live application of a patch, or is refused (R674). -/
  | patchApplyRequest (v : Word)
  /-- PATCH_SWITCH: A sequencer makes its inactive bank active at a command boundary, and SEQ_LEVEL updates after the last switch (R675). -/
  | patchSwitch (seq : Nat)
  /-- LINK_UP: A host link finishes training and comes up (R688). -/
  | linkUp (port ep rate lanes : Nat) (funcs : List (Nat × Bool))
  /-- LINK_DOWN: An unrequested link drop resets every function of the endpoint and retrains the link (R687). -/
  | linkDown (port ep : Nat)
  /-- LINK_RETRAIN: A write of HPT_PORT_CTL retrains the named links (R728). -/
  | linkRetrain (v : Word)
  /-- BAR2_READ: A host BAR2 read is served as RdNC after earlier writes of the function are performed (R699). -/
  | bar2Read (port func off n : Nat)
  /-- BAR2_WRITE: A host BAR2 write is performed as WrNC in arrival order, or discarded (R701). -/
  | bar2Write (port func off : Nat) (data : List Nat) (poisoned : Bool)
  /-- ATOMICOP_REFUSE: A received AtomicOp is completed with Unsupported Request (R692). -/
  | atomicopRefuse (port func : Nat)
  /-- TRANSLATION_REQUEST_REFUSE: A received Translation Request is completed with Unsupported Request (R692). -/
  | translationRequestRefuse (port func : Nat)
  /-- MSIX_UNMASK: Unmasking a vector with its pending bit set sends the message (R702). -/
  | msixUnmask (port func vector : Nat)
  /-- HOST_COMPLETION: A completion from the host delivers data or a host error to its requester (R707). -/
  | hostCompletion (id status : Nat) (data : List Nat)
  /-- HOST_COMPLETION_TIMEOUT: A request without a completion within cto meets a host error (R707). -/
  | hostCompletionTimeout (id : Nat)
  /-- SWM_INVAL: A write of HPT_SWM_INVAL starts invalidation of cached map entries (R706). -/
  | swmInval (v : Word)
  /-- SWM_INVAL_DONE: A system-window map invalidation completes (R706). -/
  | swmInvalDone
  /-- HOST_DMA_START: A write of go in HPT_DMA_k_CTL checks the transfer, requests leave and starts the copy (R709). -/
  | hostDmaStart (engine : Nat) (v : Word)
  /-- HOST_DMA_DONE: A host DMA engine completes its transfer and may send its vector (R713). -/
  | hostDmaDone (engine : Nat)
  /-- PST_INVAL: A write of PST_INVAL starts invalidation of cached stream descriptors (R716). -/
  | pstInval (v : Word)
  /-- PST_INVAL_DONE: A page-stream descriptor invalidation completes (R716). -/
  | pstInvalDone
  /-- PAGE_VIEW_READ: A host read of the page view returns page r and restarts the stream timer (R719). -/
  | pageViewRead (port func ap off n : Nat)
  /-- PAGE_ACK: A write of PST_S_ACK acknowledges page r and frees its slot, ending the stream at the end mark (R720). -/
  | pageAck (port func ap : Nat) (r : Word)
  /-- STREAM_TIMEOUT: The stream timer reaching PST_TIMEOUT makes the stream incomplete (R721). -/
  | streamTimeout (stream : Nat)
  /-- STREAM_ABORT: A write of PST_S_CTL.abort discards the unacknowledged pages and returns the stream to idle (R724). -/
  | streamAbort (port func ap : Nat)
  /-- RING_PORT_UP: A ring port trains with its neighbour and comes up (R731). -/
  | ringPortUp (port gen name id inc serial : Nat)
  /-- RING_PORT_DOWN: A ring port goes down or fails training (R731). -/
  | ringPortDown (port : Nat)
  /-- RING_TRAIN_RETRY: A port that failed training tries again every 10 ms (R731). -/
  | ringTrainRetry (port : Nat) (first : Bool)
  /-- RING_FRAME_SEND: In each local turn an up port sends a frame, filling its packet slots in order (R737). -/
  | ringFrameSend (port : Nat)
  /-- RING_SLOT_RECEIVE: A port receives a frame slot, checks its crc, and relays transit or delivers it locally (R736). -/
  | ringSlotReceive (port turn slot : Nat) (replay : Option (Nat × Nat)) (crcOk : Bool) (pkt : RPkt)
  /-- RING_LINK_NAK: A link nak makes the sender replay the slot 4 turns after the damaged turn (R736). -/
  | ringLinkNak (port turn slot : Nat)
  /-- RING_CREDIT: A credit item returns request or response slots to its neighbour (R738). -/
  | ringCredit (port cls count : Nat)
  /-- ROLL_MARK: A received roll mark updates the ring map and is forwarded or dropped (R743). -/
  | rollMark (port : Nat) (mark : RollMark)
  /-- DEPARTURE_MARK: A departure mark completes every transaction to the departing member with LINK_LOST (R750). -/
  | departureMark (port id inc : Nat)
  /-- MEMBER_ABSENT: A member missing for hold ms is removed from the map as absent (R744). -/
  | memberAbsent (id : Nat)
  /-- BYPASS_SWITCH_OPEN: In Ready or Run, with the ring enabled and no departure standing, the bypass switches open and the member joins (R747). -/
  | bypassSwitchOpen
  /-- JOIN_END: Both ports being up, or 2 ms after the first came up, ends joining (R748). -/
  | joinEnd
  /-- RING_DEPART: RNG_CTL with op 2 starts a departure (R749). -/
  | ringDepart
  /-- RING_REJOIN: RNG_CTL with op 1 ends a departure that op 2 started (R749). -/
  | ringRejoin
  /-- RING_CFG_WRITE: A write of RNG_CFG may start or end a departure by its enable field (R771). -/
  | ringCfgWrite (v : Word)
  /-- DEPARTURE_COMPLETE: After step 3 the member completes its transactions with LINK_LOST and closes its switches (R749). -/
  | departureComplete
  /-- RING_PUT: A target checks a PUT and executes it as WrNC in sequence, answering PUT_ACK once performed (R754). -/
  | ringPut
  /-- RING_GET: A target checks a GET and executes it as RdNC, answering GET_DATA (R754). -/
  | ringGet
  /-- RING_DOORBELL: A target executes a DOORBELL after earlier puts, writes the mailbox and may ring a bound channel (R765). -/
  | ringDoorbell
  /-- RING_CREC: The originator writes a census record into its result buffer (R768). -/
  | ringCrec
  /-- RING_PUT_ACK: A source completes a put on its first acknowledgement (R756). -/
  | ringPutAck
  /-- RING_GET_DATA: A source completes a get with its data (R756). -/
  | ringGetData
  /-- RING_DB_ACK: A source completes a doorbell (R756). -/
  | ringDbAck
  /-- RING_CREC_ACK: A census member's record is acknowledged (R756). -/
  | ringCrecAck
  /-- RING_STALE: A STALE response completes the transaction with LINK_LOST (R757). -/
  | ringStale
  /-- RING_REFUSED: A REFUSED response completes the transaction with LINK_LOST (R757). -/
  | ringRefused
  /-- RING_RETRY_TIMER: An expired retry timer resends the pair's outstanding requests from the expired one, counting a try (R756). -/
  | ringRetryTimer (target tag : Nat)
  /-- RING_DMA_START: A write of go in RNG_DMA_e_CTL checks the transfer, requests leave and starts the copy (R764). -/
  | ringDmaStart (engine : Nat) (v : Word)
  /-- RING_DMA_DONE: A ring DMA engine completes its transfer, after the doorbell if set (R764). -/
  | ringDmaDone (engine : Nat)
  /-- CENSUS_GO: A write of RNG_CENSUS_CTL.go, or the period, starts a census sweep (R767). -/
  | censusGo
  /-- CENSUS_TOKEN: A member receiving a token sends its record and forwards the token, or turns it back (R768). -/
  | censusToken (port : Nat) (token : Token)
  /-- CENSUS_TIMEOUT: No token back within the timeout makes the originator reissue west or end a partial sweep (R769). -/
  | censusTimeout
  /-- TARN_QUEUE_TAIL: A write of TRN_Qp_TAIL queues passes, or is refused (R773). -/
  | tarnQueueTail (queue : Nat) (v : Word)
  /-- PASS_START: At a pass boundary Tarn takes the oldest pass of the highest enabled queue, checks its entries and requests leave (R772). -/
  | passStart
  /-- TARN_BAND_PUBLISH: Tarn composes a 16-row band of tiles and publishes its rows (R793). -/
  | tarnBandPublish
  /-- PASS_END: Tarn ends a pass with its status, advances the head and may send the vector (R792). -/
  | passEnd
  /-- TARN_GIVE_UP: An output stream incomplete for give_up ms is aborted, and the pass ends with status 11 (R795). -/
  | tarnGiveUp
  /-- TARN_CANCEL: A write of TRN_CTL.cancel ends the running pass at its next tile boundary (R802). -/
  | tarnCancel
  /-- UART_RX_CHARACTER: A UART receives a character, classes it and stores or discards it under the overrun policy (R812). -/
  | uartRxCharacter (uart : Nat) (samples : List Bool) (pulses : List (Nat × Nat))
  /-- UART_TX_CHARACTER: A UART finishes transmitting a character from its FIFO (R808). -/
  | uartTxCharacter (uart : Nat)
  /-- UART_DATA_READ: A read of Un_DATA pops one receive entry (R816). -/
  | uartDataRead (uart : Nat)
  /-- UART_DATA_WRITE: A write of Un_DATA pushes a character, or is discarded when the FIFO is full (R817). -/
  | uartDataWrite (uart : Nat) (v : Word)
  /-- UART_CFG_APPLY: A UART configuration takes effect once both directions lie between characters (R819). -/
  | uartCfgApply (uart : Nat)
  /-- LIN_SLOT_DUE: A due LIN slot starts its frame once no frame is in progress (R829). -/
  | linSlotDue
  /-- LIN_FRAME_END: A LIN frame ends with a result that updates LIN_DATA and LIN_STAT (R830). -/
  | linFrameEnd (back : List Nat) (recv : List (Nat × Bool))
  /-- LIN_RESPONSE_TIMEOUT: The response timeout ending before all bytes arrive ends the frame as no response or incomplete (R830). -/
  | linResponseTimeout (back : List Nat) (recv : List (Nat × Bool))
  /-- CONSOLE_READOUT_COMMAND: A received ?K line starts a console readout of a cairn or snapshot (R872). -/
  | consoleReadoutCommand
  /-- CONSOLE_READOUT_STOP: A received ?KX line ends the running console readout (R872). -/
  | consoleReadoutStop
  /-- CONSOLE_READOUT_END: A console readout sends its end line and records event 0x1108 (R873). -/
  | consoleReadoutEnd
  /-- TRST_ASSERT: TRST# resets the TAP, resumes every halt and disarms every half (R835). -/
  | trstAssert
  /-- JTAG_BYPASS: TAP instruction selecting the 1-bit bypass register (R835). -/
  | jtagBypass
  /-- JTAG_IDCODE: TAP instruction returning IDCODE (R836). -/
  | jtagIdcode
  /-- JTAG_SAMPLE_PRELOAD: TAP instruction sampling and preloading the boundary register (R837). -/
  | jtagSamplePreload (rx0 rx1 : Bool) (cells : Nat)
  /-- JTAG_EXTEST: TAP instruction driving U0_TX, U1_TX and ALERT# from the boundary cells (R838). -/
  | jtagExtest (rx0 rx1 : Bool) (cells : Nat)
  /-- MBOX_READ: An MBOX update-DR performs a 32-bit BAR0 read (R839). -/
  | mboxRead (word : Nat)
  /-- MBOX_WRITE: An MBOX update-DR performs a BAR0 write as the control function, or is refused (R839). -/
  | mboxWrite (word : Nat) (v : Word)
  /-- DBG_ARM: A DBG arm operation arms halves for BRK halts (R841). -/
  | dbgArm (halves : Nat)
  /-- DBG_DISARM: A DBG disarm operation disarms halves (R841). -/
  | dbgDisarm (halves : Nat)
  /-- DBG_HALT_HALVES: A DBG halt operation stops issue in the named halves (R842). -/
  | dbgHaltHalves (halves : Nat)
  /-- DBG_RESUME_HALVES: A DBG resume operation resumes the named halves (R841). -/
  | dbgResumeHalves (halves : Nat)
  /-- DBG_STEP: A DBG step lets one slot issue one instruction in each halted half (R843). -/
  | dbgStep (halves slot : Nat)
  /-- DBG_HALT_SEQUENCERS: A DBG operation halts the named sequencers (R841). -/
  | dbgHaltSequencers (seqs : Nat)
  /-- DBG_RESUME_SEQUENCERS: A DBG operation resumes the named sequencers (R841). -/
  | dbgResumeSequencers (seqs : Nat)
  /-- JTG_POLICY_WRITE: Clearing halt_ok resumes and disarms everything, and clearing write_ok forbids MBOX writes, until a cold reset (R845). -/
  | jtgPolicyWrite (v : Word)
  /-- CRN_FREEZE_CMD: A write of CRN_CTL.freeze triggers a freeze with trigger bit 4 (R858). -/
  | crnFreezeCmd
  /-- SNAPSHOT_COMPLETE: The snapshot finishes in its slot, the cairns thaw, and a faceplate update or a thermal Standby may follow (R864). -/
  | snapshotComplete
  /-- CRN_PIN_WRITE: A write of CRN_PIN pins slots, or is ignored if it would pin more than 7 (R866). -/
  | crnPinWrite (v : Word)
  /-- CAIRN_RD_LATCH: A read of CRN_RD_DATA_0 latches the selected cairn entry (R868). -/
  | cairnRdLatch
  /-- CAIRN_STREAM_READOUT: A write of CRN_STREAM_CTL.go binds a cairn or snapshot readout to a page stream (R869). -/
  | cairnStreamReadout (v : Word)
  /-- CAIRN_READOUT_END: A stream readout ends with its result and event 0x1108 (R871). -/
  | cairnReadoutEnd
  /-- FACEPLATE_UPDATE: An update cause sets the faceplate mark, writes the record and starts driving the panel (R880). -/
  | faceplateUpdate
  /-- FACEPLATE_UPDATE_DONE: A faceplate drive completes, the mark is cleared, and any queued update starts (R880). -/
  | faceplateUpdateDone
  /-- FPL_UPDATE_REQUEST: A write of FPL_CTL.update requests a faceplate update (R881). -/
  | fplUpdateRequest
  /-- UNIT_FAULT_DETECT: A unit detects a hardware fault and sends a fault notice to the hub sequencer (R886). -/
  | unitFaultDetect (fault : HwFault)
  /-- FAULT_NOTICE: The hub sequencer serves a fault notice, fault-stopping, fencing, replaying or poisoning as the unit kind requires (R892). -/
  | faultNotice
  /-- FAULT_RECORD_POP: A read of FLT_REC_0 pops the oldest fault record and latches its words (R910). -/
  | faultRecordPop
  /-- STORE_WRITE_COMPLETE: A store write made through GLB_STORE_DATA finishes in the MRAM, and GLB_STORE_STATUS.busy returns to 0 (R117). -/
  | storeWriteComplete
  /-- TEST_LOGIC_RESET: Five TCK rising edges with TMS high put the TAP in Test-Logic-Reset with IDCODE selected, which resumes every halt and disarms every half (R835). -/
  | testLogicReset
  deriving DecidableEq, Repr

end Sys2Proof
end

