-- ==== Sys2Proof/Config.lean ====
section
/-! DEFINITION. What the manual leaves open: constants without a body, so that nothing can be proved of
their values. A claim about the model holds whatever they are. Each is named in the assumption log. -/

namespace Sys2Proof.Config

/-- How far an FMF result lies from the correctly computed one, as a count that the meaning reduces to the
allowed range of R300 ("within 2 ulp"): function code and operand (log entry 20). -/
opaque fmfStep : Nat → Nat → Nat

/-- FMF results outside the functions' domain that R300 does not state (rsqrt of zero), log entry 21. -/
opaque fmfOpen : Nat → Nat → Nat

/-- Whether underflow is judged before rounding, where that differs from after it (log entry 22). -/
opaque tininessBefore : Bool

/-- An integer conversion of CVT whose value lies outside the destination's range: R301 states no result
(source type, destination type, operand), log entry 23. -/
opaque cvtOpen : Nat → Nat → Nat → Nat

/-- A byte of the stock faceplate body for a text (its character codes): the glyphs are no part of any
interface (R877), log entry 43. -/
opaque fontByte : List Nat → Nat → Nat

/-- The NaN that Tarn's arithmetic makes of infinities, as a choice among all NaN words (log entry 56). -/
opaque tarnNan : Nat

/-- The SHA-384 digest of Usdun's signing key, 48 bytes, which the manual does not print (R924, log entry 63). -/
opaque usdunDigest : List Nat

/-- The words of the microcode ROMs, which the manual does not print: whether it is the hub's, address (log entry 64). -/
opaque romWord : Bool → Nat → Nat

/-- Codes in event payloads for cases that no table of the manual numbers: event and case (log entry 13). -/
opaque eventCode : Nat → Nat → Nat

/-- Fresh free values, numbered by the model's counter (log entry 2). -/
opaque freeValue : Nat → Nat

end Sys2Proof.Config
end

