-- ==== Sys2Proof/Machine/Bits.lean ====
section
/-! DEFINITION. Bit fields, sign extension, byte order and saturation, used by every family. -/

namespace Sys2Proof.Machine

/-- Bits `hi` down to `lo` of `n` (the manual's `[hi:lo]`). -/
def bits (n hi lo : Nat) : Nat := n / 2 ^ lo % 2 ^ (hi + 1 - lo)

/-- Bit `i` of `n`. -/
def bit (n i : Nat) : Bool := n / 2 ^ i % 2 == 1

/-- `n` with bits `hi` down to `lo` replaced by `v`. -/
def putBits (n hi lo v : Nat) : Nat :=
  n - bits n hi lo * 2 ^ lo + v % 2 ^ (hi + 1 - lo) * 2 ^ lo

/-- `n` with bit `i` made `b`. -/
def putBit (n i : Nat) (b : Bool) : Nat := putBits n i i b.toNat

/-- The mask with ones in bits `hi` down to `lo`. -/
def ones (hi lo : Nat) : Nat := (2 ^ (hi + 1 - lo) - 1) * 2 ^ lo

/-- How many of the low `w` bits of `n` are set. -/
def popCount : Nat → Nat → Nat
  | 0, _ => 0
  | w + 1, n => (n / 2 ^ w % 2) + popCount w n

/-- The numbers of the set bits of `n` below `w`, ascending. -/
def setBitsOf (w n : Nat) : List Nat := (List.range w).filter (bit n)

/-- The mask whose set bits are those of the list. -/
def maskOf (l : List Nat) : Nat := l.foldl (fun m i => putBit m i true) 0

/-- Two's complement: the integer that the low `w` bits of `n` hold. -/
def signed (w n : Nat) : Int :=
  if bit n (w - 1) then (n % 2 ^ w : Int) - 2 ^ w else (n % 2 ^ w : Int)

/-- The low `w` bits of an integer, two's complement. -/
def unsigned (w : Nat) (i : Int) : Nat := (i % 2 ^ w).toNat

/-- Addition that stops at the largest value of `w` bits (the manual's "saturating"). -/
def satAdd (w a b : Nat) : Nat := min (a + b) (2 ^ w - 1)

/-- The `k` low bytes of `n`, least significant first. -/
def leBytes : Nat → Nat → List Nat
  | 0, _ => []
  | k + 1, n => n % 256 :: leBytes k (n / 256)

/-- The number whose bytes, least significant first, are given. -/
def leVal : List Nat → Nat
  | [] => 0
  | b :: bs => b % 256 + 256 * leVal bs

/-- The number whose bytes, most significant first, are given. -/
def beVal (l : List Nat) : Nat := l.foldl (fun a b => a * 256 + b % 256) 0

/-- `l` cut or filled with zeros to `k` entries. -/
def padTo (k : Nat) (l : List Nat) : List Nat := (l ++ List.replicate (k - l.length) 0).take k

/-- One bit step of the IEEE 802.3 CRC-32, reflected. -/
def crcStep (c : Nat) : Nat := if c % 2 == 1 then (c / 2) ^^^ 0xEDB88320 else c / 2

/-- The IEEE 802.3 CRC-32 of a byte string (R863, R879, and the slot headers). -/
def crc32 (l : List Nat) : Nat :=
  (l.foldl (fun c b => crcStep (crcStep (crcStep (crcStep (crcStep (crcStep (crcStep
    (crcStep (c ^^^ (b % 256)))))))))) 0xFFFFFFFF) ^^^ 0xFFFFFFFF

end Sys2Proof.Machine
end

