-- ==== Sys2Proof/Machine/Maps.lean ====
section
/-! DEFINITION. Sparse tables and sparse byte memory in canonical form: keys strictly rising. -/

namespace Sys2Proof.Machine

/-- The value at key `k`, if the table lists it. -/
def Map.get? {α : Type} : Table α → Nat → Option α
  | [], _ => none
  | (j, v) :: t, k => if j = k then some v else Map.get? t k

/-- The value at key `k`, or `d`. -/
def Map.getD {α : Type} (t : Table α) (k : Nat) (d : α) : α := (Map.get? t k).getD d

/-- The table with `v` at key `k`. -/
def Map.set {α : Type} : Table α → Nat → α → Table α
  | [], k, v => [(k, v)]
  | (j, w) :: t, k, v =>
    if j = k then (k, v) :: t else if k < j then (k, v) :: (j, w) :: t else (j, w) :: Map.set t k v

/-- The table without key `k`. -/
def Map.erase {α : Type} (t : Table α) (k : Nat) : Table α := t.filter fun p => p.1 != k

/-- `f` applied at key `k`, where the table lists it. -/
def Map.modify {α : Type} (t : Table α) (k : Nat) (f : α → α) : Table α :=
  match Map.get? t k with
  | some v => Map.set t k (f v)
  | none => t

/-- `f` applied to every value. -/
def Map.mapVals {α : Type} (t : Table α) (f : Nat → α → α) : Table α := t.map fun p => (p.1, f p.1 p.2)

/-- The keys whose value meets `p`, ascending. -/
def Map.keysWhere {α : Type} (t : Table α) (p : Nat → α → Bool) : List Nat :=
  (t.filter fun q => p q.1 q.2).map (·.1)

/-- The canonical form: keys strictly rising. -/
def Map.sorted {α : Type} : Table α → Bool
  | [] => true
  | [_] => true
  | (j, _) :: (k, w) :: t => decide (j < k) && Map.sorted ((k, w) :: t)

/-- The byte at an address; an unlisted address reads as zero. -/
def Mem.read (m : Mem) (a : Nat) : Byte := Map.getD m a 0

/-- The memory with byte `v` at address `a`; a zero is not listed. -/
def Mem.write (m : Mem) (a : Nat) (v : Byte) : Mem :=
  if v = 0 then Map.erase m a else Map.set m a v

/-- The canonical form of memory: addresses strictly rising, no zero listed. -/
def Mem.wf (m : Mem) : Bool := Map.sorted m && m.all (fun c => decide (c.2 ≠ 0))

/-- `k` bytes from address `a`, as numbers. -/
def Mem.readBytes (m : Mem) (a : Nat) : Nat → List Nat
  | 0 => []
  | k + 1 => (Mem.read m a).toNat :: Mem.readBytes m (a + 1) k

/-- The little-endian number in the `k` bytes from address `a`. -/
def Mem.readLE (m : Mem) (a k : Nat) : Nat := leVal (Mem.readBytes m a k)

/-- Bytes written from address `a` up. -/
def Mem.writeBytes (m : Mem) (a : Nat) : List Nat → Mem
  | [] => m
  | b :: bs => Mem.writeBytes (Mem.write m a (BitVec.ofNat 8 b)) (a + 1) bs

/-- The number `v` written little-endian into `k` bytes from address `a`. -/
def Mem.writeLE (m : Mem) (a k v : Nat) : Mem := Mem.writeBytes m a (leBytes k v)

/-- The entries of the address range `[lo, hi)` taken out of the memory. -/
def Mem.clear (m : Mem) (lo hi : Nat) : Mem := m.filter fun c => decide (c.1 < lo) || decide (hi ≤ c.1)

/-- The first member of a list that meets `p`, and the list without it. -/
def takeFirst {α : Type} (p : α → Bool) : List α → Option (α × List α)
  | [] => none
  | x :: xs => if p x then some (x, xs) else (takeFirst p xs).map fun r => (r.1, x :: r.2)

/-- The list with its member at index `i` replaced. -/
def setAt {α : Type} (l : List α) (i : Nat) (v : α) : List α := l.set i v

/-- The last `k` members of a list. -/
def lastK {α : Type} (k : Nat) (l : List α) : List α := l.drop (l.length - k)

end Sys2Proof.Machine
end

