-- ==== Sys2Proof/Machine/RegMap.lean ====
section
/-! DEFINITION. The BAR0 register map (chapter "Register Index", R914, and the register tables of every
chapter): where each register lies, which of its bits have which access type (R8), and its value after
cold reset. A peak is numbered 0 to 7, a half 0 (P0.A) to 15 (P7.B), a sequencer 0 to 7 for a peak and 8
for the hub, a col end by its peak and its index k. -/

namespace Sys2Proof.Machine

/-- The functions that have a selector (R37). -/
inductive SelGroup
  | none | inlim | boot | image | tt | job | pwr | seq | hpt | client | rng | trn | uart | crn | fpl | flt
  | isa | mem | mxa | uc | coh | shd | col
  deriving DecidableEq, Repr

/-- One line of a register table: offset in its block, stride and count for an array of registers, the bits
of each access type of R8, the cold-reset value, the function whose selector it belongs to, and whether it
is an expert register of that function. -/
structure RegRow where
  off : Nat
  stride : Nat
  count : Nat
  rw : Nat
  rwl : Nat
  w1c : Nat
  wo : Nat
  ro : Nat
  reset : Nat
  group : SelGroup
  expert : Bool
  deriving DecidableEq, Repr

/-- The register blocks. -/
inductive Block
  | glb | img | chn | job | pwr | crn | uart | fpl | jtg | trn | hpt | pst | rng | seq | rnd
  | cor | corHalf | mxa | uc | col | colEnd | gov
  deriving DecidableEq, Repr

/-- Base of the GLB block. -/
def Base.glb : Nat := 0

/-- Base of the IMG block. -/
def Base.img : Nat := 0x10000

/-- Base of the CHN block. -/
def Base.chn : Nat := 0x20000

/-- Base of the JOB block. -/
def Base.job : Nat := 0x30000

/-- Base of the PWR block. -/
def Base.pwr : Nat := 0x40000

/-- Base of the CRN block. -/
def Base.crn : Nat := 0x50000

/-- Base of the UART block. -/
def Base.uart (u : Nat) : Nat := 0x60000 + 0x1000 * u

/-- Base of the FPL block. -/
def Base.fpl : Nat := 0x62000

/-- Base of the JTG block. -/
def Base.jtg : Nat := 0x63000

/-- Base of the TRN block. -/
def Base.trn : Nat := 0x70000

/-- Base of the HPT block. -/
def Base.hpt : Nat := 0x80000

/-- Base of the PST block. -/
def Base.pst : Nat := 0xC0000

/-- Base of the RNG block. -/
def Base.rng : Nat := 0x90000

/-- Base of the RND block. -/
def Base.rnd : Nat := 0xB0000

/-- Base of the SEQ block. -/
def Base.seq (d : Nat) : Nat := if d = 8 then 0xA0000 else 0x01050000 + 0x100000 * d

/-- Base of the COR block. -/
def Base.cor (n : Nat) : Nat := 0x01010000 + 0x100000 * n

/-- Base of the CORHALF block. -/
def Base.corHalf (h : Nat) : Nat := 0x01010400 + 0x100000 * (h / 2) + 0x400 * (h % 2)

/-- Base of the MXA block. -/
def Base.mxa (h : Nat) : Nat := 0x01020000 + 0x100000 * (h / 2) + 0x8000 * (h % 2)

/-- Base of the UC block. -/
def Base.uc (h : Nat) : Nat := 0x01030000 + 0x100000 * (h / 2) + 0x8000 * (h % 2)

/-- Base of the UCA block. -/
def Base.ucA (n : Nat) : Nat := 0x01030000 + 0x100000 * n

/-- Base of the COL block. -/
def Base.col (n : Nat) : Nat := 0x01040000 + 0x100000 * n

/-- Base of the COLEND block. -/
def Base.colEnd (n : Nat) (k : Nat) : Nat := 0x01040100 + 0x100000 * n + 0x100 * k

/-- Base of the GOV block. -/
def Base.gov (h : Nat) : Nat := 0x01070100 + 0x100000 * (h / 2) + 0x100 * (h % 2)

/-- GLB_IDENT (chapter 05). -/
def R.glbIdent : Nat := Base.glb + 0x0
/-- GLB_VENDOR (chapter 05). -/
def R.glbVendor : Nat := Base.glb + 0x4
/-- GLB_SERIAL_LO (chapter 05). -/
def R.glbSerialLo : Nat := Base.glb + 0x8
/-- GLB_SERIAL_HI (chapter 05). -/
def R.glbSerialHi : Nat := Base.glb + 0xC
/-- GLB_FW_VER (chapter 05). -/
def R.glbFwVer : Nat := Base.glb + 0x10
/-- GLB_RESET (chapter 05, R199). -/
def R.glbReset : Nat := Base.glb + 0x40
/-- GLB_RESET_STATUS (chapter 05). -/
def R.glbResetStatus : Nat := Base.glb + 0x44
/-- GLB_BOOT_SEL (chapter 05). -/
def R.glbBootSel : Nat := Base.glb + 0x80
/-- GLB_BOOT_CTL (chapter 05). -/
def R.glbBootCtl : Nat := Base.glb + 0x84
/-- GLB_BOOT_STATUS (chapter 05). -/
def R.glbBootStatus : Nat := Base.glb + 0x88
/-- GLB_PEAK_STATE (chapter 05). -/
def R.glbPeakState : Nat := Base.glb + 0x8C
/-- GLB_BOOT_TIME (chapter 05). -/
def R.glbBootTime : Nat := Base.glb + 0x90
/-- GLB_PROMOTE (chapter 05). -/
def R.glbPromote : Nat := Base.glb + 0xC0
/-- GLB_PROMOTE_SRC (chapter 05). -/
def R.glbPromoteSrc : Nat := Base.glb + 0xC4
/-- GLB_PROMOTE_LEN (chapter 05). -/
def R.glbPromoteLen : Nat := Base.glb + 0xC8
/-- GLB_PROMOTE_STATUS (chapter 05). -/
def R.glbPromoteStatus : Nat := Base.glb + 0xCC
/-- GLB_KEY_DIGEST_i (chapter 05). -/
def R.glbKeyDigest (i : Nat) : Nat := Base.glb + 0x100 + 4 * i
/-- GLB_MOD_PINS (chapter 03). -/
def R.glbModPins : Nat := Base.glb + 0x200
/-- GLB_MOD_EVENT (chapter 03). -/
def R.glbModEvent : Nat := Base.glb + 0x204
/-- GLB_MOD_ALERT_EN (chapter 03). -/
def R.glbModAlertEn : Nat := Base.glb + 0x208
/-- GLB_PSTATE (chapter 03). -/
def R.glbPstate : Nat := Base.glb + 0x20C
/-- GLB_PSTATE_REQ (chapter 03). -/
def R.glbPstateReq : Nat := Base.glb + 0x210
/-- GLB_INPUT_V (chapter 03). -/
def R.glbInputV : Nat := Base.glb + 0x214
/-- GLB_INPUT_P (chapter 03). -/
def R.glbInputP : Nat := Base.glb + 0x218
/-- GLB_TEMP (chapter 03). -/
def R.glbTemp : Nat := Base.glb + 0x21C
/-- GLB_INLIM (chapter 03). -/
def R.glbInlim : Nat := Base.glb + 0x220
/-- GLB_INLIM_THR (chapter 03, R124). -/
def R.glbInlimThr : Nat := Base.glb + 0x224
/-- GLB_CONV (chapter 03). -/
def R.glbConv : Nat := Base.glb + 0x228
/-- GLB_CONV_CAP (chapter 03). -/
def R.glbConvCap : Nat := Base.glb + 0x22C
/-- GLB_OSC (chapter 03). -/
def R.glbOsc : Nat := Base.glb + 0x230
/-- GLB_STORE_ADDR (chapter 03, R116). -/
def R.glbStoreAddr : Nat := Base.glb + 0x240
/-- GLB_STORE_DATA (chapter 03, R116). -/
def R.glbStoreData : Nat := Base.glb + 0x244
/-- GLB_STORE_STATUS (chapter 03, R117). -/
def R.glbStoreStatus : Nat := Base.glb + 0x248
/-- IMG_SEL (chapter 06, R258). -/
def R.imgSel : Nat := Base.img + 0x0
/-- IMG_LOAD (chapter 06, R237). -/
def R.imgLoad : Nat := Base.img + 0x4
/-- IMG_SRC_LO (chapter 06, R7). -/
def R.imgSrcLo : Nat := Base.img + 0x8
/-- IMG_SRC_HI (chapter 06, R7). -/
def R.imgSrcHi : Nat := Base.img + 0xC
/-- IMG_STATUS (chapter 06). -/
def R.imgStatus : Nat := Base.img + 0x10
/-- IMG_COMMIT (chapter 06, R242). -/
def R.imgCommit : Nat := Base.img + 0x14
/-- IMG_POLICY (chapter 06). -/
def R.imgPolicy : Nat := Base.img + 0x18
/-- IMG_SHIFT_CFG (chapter 06). -/
def R.imgShiftCfg : Nat := Base.img + 0x1C
/-- IMG_ACTIVE_ID_LO (chapter 06). -/
def R.imgActiveIdLo : Nat := Base.img + 0x20
/-- IMG_ACTIVE_ID_HI (chapter 06). -/
def R.imgActiveIdHi : Nat := Base.img + 0x24
/-- IMG_PENDING_ID_LO (chapter 06). -/
def R.imgPendingIdLo : Nat := Base.img + 0x28
/-- IMG_PENDING_ID_HI (chapter 06). -/
def R.imgPendingIdHi : Nat := Base.img + 0x2C
/-- IMG_CHANGED (chapter 06). -/
def R.imgChanged : Nat := Base.img + 0x30
/-- IMG_HELD (chapter 06). -/
def R.imgHeld : Nat := Base.img + 0x34
/-- IMG_DEFAULT (chapter 06, R259). -/
def R.imgDefault : Nat := Base.img + 0x38
/-- IMG_INFO (chapter 06). -/
def R.imgInfo : Nat := Base.img + 0x3C
/-- IMG_PART_i (chapter 06). -/
def R.imgPart (i : Nat) : Nat := Base.img + 0x100 + 8 * i
/-- IMG_PART_DIGEST_i (chapter 06). -/
def R.imgPartDigest (i : Nat) : Nat := Base.img + 0x104 + 8 * i
/-- CHN_TBL_BASE_LO (chapter 15, R559). -/
def R.chnTblBaseLo : Nat := Base.chn + 0x0
/-- CHN_TBL_BASE_HI (chapter 15, R559). -/
def R.chnTblBaseHi : Nat := Base.chn + 0x4
/-- CHN_TBL_COUNT (chapter 15, R559). -/
def R.chnTblCount : Nat := Base.chn + 0x8
/-- CHN_INVAL (chapter 15, R922). -/
def R.chnInval : Nat := Base.chn + 0x10
/-- CHN_STATUS (chapter 15, R922). -/
def R.chnStatus : Nat := Base.chn + 0x14
/-- CHN_CTL (chapter 15, R597). -/
def R.chnCtl : Nat := Base.chn + 0x18
/-- CHN_SEL (chapter 15). -/
def R.chnSel : Nat := Base.chn + 0x20
/-- CHN_STATE (chapter 15). -/
def R.chnState : Nat := Base.chn + 0x24
/-- CHN_HEAD (chapter 15, R564). -/
def R.chnHead : Nat := Base.chn + 0x28
/-- CHN_TAIL (chapter 15, R564). -/
def R.chnTail : Nat := Base.chn + 0x2C
/-- CHN_CQ_POST (chapter 15). -/
def R.chnCqPost : Nat := Base.chn + 0x30
/-- CHN_CQ_HEAD (chapter 15). -/
def R.chnCqHead : Nat := Base.chn + 0x34
/-- CHN_ERR (chapter 15, R573). -/
def R.chnErr : Nat := Base.chn + 0x40
/-- CHN_ERR_COUNT (chapter 15, R573). -/
def R.chnErrCount : Nat := Base.chn + 0x44
/-- CHN_DB_LO (chapter 15, R572). -/
def R.chnDbLo : Nat := Base.chn + 0x100
/-- CHN_DB_HI (chapter 15, R572). -/
def R.chnDbHi : Nat := Base.chn + 0x104
/-- JOB_SEL (chapter 15, R603). -/
def R.jobSel : Nat := Base.job + 0x0
/-- JOB_CFG (chapter 15, R603). -/
def R.jobCfg : Nat := Base.job + 0x4
/-- JOB_ARENA_LO (chapter 15, R569). -/
def R.jobArenaLo : Nat := Base.job + 0x8
/-- JOB_ARENA_HI (chapter 15, R569). -/
def R.jobArenaHi : Nat := Base.job + 0xC
/-- JOB_COUNT (chapter 15). -/
def R.jobCount : Nat := Base.job + 0x10
/-- JOB_PRIO_SEQ (chapter 15, R586). -/
def R.jobPrioSeq : Nat := Base.job + 0x20
/-- JOB_PRIO_CMD (chapter 15, R586). -/
def R.jobPrioCmd : Nat := Base.job + 0x24
/-- JOB_PRIO_STATUS (chapter 15, R586). -/
def R.jobPrioStatus : Nat := Base.job + 0x28
/-- JOB_PART_i (chapter 15). -/
def R.jobPart (i : Nat) : Nat := Base.job + 0x100 + 4 * i
/-- JOB_CL_QUOTA_i (chapter 15, R603). -/
def R.jobClQuota (i : Nat) : Nat := Base.job + 0x1000 + 16 * i
/-- JOB_CL_RUN_i (chapter 15, R580). -/
def R.jobClRun (i : Nat) : Nat := Base.job + 0x1004 + 16 * i
/-- JOB_CL_SUB_i (chapter 15, R582). -/
def R.jobClSub (i : Nat) : Nat := Base.job + 0x1008 + 16 * i
/-- JOB_CL_DONE_i (chapter 15, R582). -/
def R.jobClDone (i : Nat) : Nat := Base.job + 0x100C + 16 * i
/-- PWR_SEL (chapter 16, R37). -/
def R.pwrSel : Nat := Base.pwr + 0x0
/-- PWR_LIMIT (chapter 16, R622). -/
def R.pwrLimit : Nat := Base.pwr + 0x4
/-- PWR_CFG (chapter 16). -/
def R.pwrCfg : Nat := Base.pwr + 0x8
/-- PWR_STATE (chapter 16). -/
def R.pwrState : Nat := Base.pwr + 0xC
/-- PWR_POOL (chapter 16). -/
def R.pwrPool : Nat := Base.pwr + 0x10
/-- PWR_CAP (chapter 16). -/
def R.pwrCap : Nat := Base.pwr + 0x14
/-- PWR_EVENT (chapter 16). -/
def R.pwrEvent : Nat := Base.pwr + 0x18
/-- PWR_DRY_TIME (chapter 16). -/
def R.pwrDryTime : Nat := Base.pwr + 0x1C
/-- PWR_PART_i (chapter 16). -/
def R.pwrPart (i : Nat) : Nat := Base.pwr + 0x100 + 4 * i
/-- PWR_GRANT_i (chapter 16). -/
def R.pwrGrant (i : Nat) : Nat := Base.pwr + 0x140 + 4 * i
/-- GOV_SHARE (chapter 16, R613). -/
def R.govShare (h : Nat) : Nat := Base.gov h + 0x0
/-- GOV_RAIL (chapter 16, R627). -/
def R.govRail (h : Nat) : Nat := Base.gov h + 0x4
/-- GOV_WEAR (chapter 16, R635). -/
def R.govWear (h : Nat) : Nat := Base.gov h + 0x8
/-- GOV_CANARY (chapter 16). -/
def R.govCanary (h : Nat) : Nat := Base.gov h + 0xC
/-- GOV_TEMP (chapter 16). -/
def R.govTemp (h : Nat) : Nat := Base.gov h + 0x10
/-- GOV_DROOP (chapter 16). -/
def R.govDroop (h : Nat) : Nat := Base.gov h + 0x14
/-- GOV_WAIT (chapter 16). -/
def R.govWait (h : Nat) : Nat := Base.gov h + 0x18
/-- GOV_PAUSE (chapter 16). -/
def R.govPause (h : Nat) : Nat := Base.gov h + 0x1C
/-- SEQ_VERSION (chapter 17). -/
def R.seqVersion (d : Nat) : Nat := Base.seq d + 0x0
/-- SEQ_LEVEL (chapter 17, R673). -/
def R.seqLevel : Nat := Base.seq 8 + 0x4
/-- SEQ_PATCH_CTL (chapter 17, R674). -/
def R.seqPatchCtl : Nat := Base.seq 8 + 0x8
/-- SEQ_PATCH_STATUS (chapter 17, R674). -/
def R.seqPatchStatus : Nat := Base.seq 8 + 0xC
/-- SEQ_SEL (chapter 17, R37). -/
def R.seqSel (d : Nat) : Nat := Base.seq d + 0x10
/-- SEQ_CFG (chapter 17, R667). -/
def R.seqCfg (d : Nat) : Nat := Base.seq d + 0x14
/-- SEQ_STATE (chapter 17). -/
def R.seqState (d : Nat) : Nat := Base.seq d + 0x20
/-- SEQ_CMD_COUNT (chapter 17). -/
def R.seqCmdCount (d : Nat) : Nat := Base.seq d + 0x24
/-- SEQ_CMD_MAX (chapter 17, R667). -/
def R.seqCmdMax (d : Nat) : Nat := Base.seq d + 0x28
/-- SEQ_ECC (chapter 17, R656). -/
def R.seqEcc (d : Nat) : Nat := Base.seq d + 0x2C
/-- SEQ_FAULT (chapter 17, R667). -/
def R.seqFault (d : Nat) : Nat := Base.seq d + 0x30
/-- SEQ_QUEUE (chapter 17). -/
def R.seqQueue (d : Nat) : Nat := Base.seq d + 0x34
/-- HPT_SEL (chapter 18, R37). -/
def R.hptSel : Nat := Base.hpt + 0x0
/-- HPT_PORT_CFG_i (chapter 18). -/
def R.hptPortCfg (i : Nat) : Nat := Base.hpt + 0x4 + 4 * i
/-- HPT_PORT_CTL (chapter 18, R728). -/
def R.hptPortCtl : Nat := Base.hpt + 0xC
/-- HPT_LINK_i (chapter 18). -/
def R.hptLink (i : Nat) : Nat := Base.hpt + 0x10 + 4 * i
/-- HPT_CTL_FUNC (chapter 18, R696). -/
def R.hptCtlFunc : Nat := Base.hpt + 0x18
/-- HPT_CLIENT_SEL (chapter 18, R37). -/
def R.hptClientSel : Nat := Base.hpt + 0x1C
/-- HPT_CFG (chapter 18, R707). -/
def R.hptCfg : Nat := Base.hpt + 0x20
/-- HPT_SWM_BASE_LO (chapter 18, R704). -/
def R.hptSwmBaseLo : Nat := Base.hpt + 0x30
/-- HPT_SWM_BASE_HI (chapter 18, R704). -/
def R.hptSwmBaseHi : Nat := Base.hpt + 0x34
/-- HPT_SWM_PAGES (chapter 18, R704). -/
def R.hptSwmPages : Nat := Base.hpt + 0x38
/-- HPT_SWM_INVAL (chapter 18, R706). -/
def R.hptSwmInval : Nat := Base.hpt + 0x3C
/-- HPT_BAR2_BASE (chapter 18, R697). -/
def R.hptBar2Base : Nat := Base.hpt + 0x40
/-- HPT_STATUS (chapter 18, R706). -/
def R.hptStatus : Nat := Base.hpt + 0x44
/-- HPT_ERR (chapter 18, R707). -/
def R.hptErr : Nat := Base.hpt + 0x50
/-- HPT_MSI_DROP (chapter 18, R702). -/
def R.hptMsiDrop : Nat := Base.hpt + 0x54
/-- HPT_CLIENT_i (chapter 18). -/
def R.hptClient (i : Nat) : Nat := Base.hpt + 0x100 + 4 * i
/-- HPT_VFW_i (chapter 18, R697). -/
def R.hptVfw (i : Nat) : Nat := Base.hpt + 0x900 + 4 * i
/-- HPT_DMA_SRC_LO_i (chapter 18, R709). -/
def R.hptDmaSrcLo (i : Nat) : Nat := Base.hpt + 0xB00 + 32 * i
/-- HPT_DMA_SRC_HI_i (chapter 18, R709). -/
def R.hptDmaSrcHi (i : Nat) : Nat := Base.hpt + 0xB04 + 32 * i
/-- HPT_DMA_DST_LO_i (chapter 18, R709). -/
def R.hptDmaDstLo (i : Nat) : Nat := Base.hpt + 0xB08 + 32 * i
/-- HPT_DMA_DST_HI_i (chapter 18, R709). -/
def R.hptDmaDstHi (i : Nat) : Nat := Base.hpt + 0xB0C + 32 * i
/-- HPT_DMA_LEN_i (chapter 18, R709). -/
def R.hptDmaLen (i : Nat) : Nat := Base.hpt + 0xB10 + 32 * i
/-- HPT_DMA_CTL_i (chapter 18, R709). -/
def R.hptDmaCtl (i : Nat) : Nat := Base.hpt + 0xB14 + 32 * i
/-- HPT_DMA_STATUS_i (chapter 18, R712). -/
def R.hptDmaStatus (i : Nat) : Nat := Base.hpt + 0xB18 + 32 * i
/-- PST_TBL_BASE_LO (chapter 18, R715). -/
def R.pstTblBaseLo : Nat := Base.pst + 0x0
/-- PST_TBL_BASE_HI (chapter 18, R715). -/
def R.pstTblBaseHi : Nat := Base.pst + 0x4
/-- PST_TIMEOUT (chapter 18, R721). -/
def R.pstTimeout : Nat := Base.pst + 0x8
/-- PST_INVAL (chapter 18, R716). -/
def R.pstInval : Nat := Base.pst + 0xC
/-- PST_STATUS (chapter 18, R716). -/
def R.pstStatus : Nat := Base.pst + 0x10
/-- RNG_SEL (chapter 19, R37). -/
def R.rngSel : Nat := Base.rng + 0x0
/-- RNG_CFG (chapter 19, R771). -/
def R.rngCfg : Nat := Base.rng + 0x4
/-- RNG_ID_CFG (chapter 19, R741). -/
def R.rngIdCfg : Nat := Base.rng + 0x8
/-- RNG_ID (chapter 19, R741). -/
def R.rngId : Nat := Base.rng + 0xC
/-- RNG_STATE (chapter 19). -/
def R.rngState : Nat := Base.rng + 0x10
/-- RNG_CTL (chapter 19, R749). -/
def R.rngCtl : Nat := Base.rng + 0x14
/-- RNG_IN (chapter 19, R761). -/
def R.rngIn : Nat := Base.rng + 0x18
/-- RNG_LOST (chapter 19, R757). -/
def R.rngLost : Nat := Base.rng + 0x1C
/-- RNG_RETRY (chapter 19, R756). -/
def R.rngRetry : Nat := Base.rng + 0x20
/-- RNG_STALE (chapter 19). -/
def R.rngStale : Nat := Base.rng + 0x24
/-- RNG_DROP (chapter 19). -/
def R.rngDrop : Nat := Base.rng + 0x28
/-- RNG_MAP_i (chapter 19, R742). -/
def R.rngMap (i : Nat) : Nat := Base.rng + 0x100 + 4 * i
/-- RNG_CENSUS_CFG (chapter 19, R766). -/
def R.rngCensusCfg : Nat := Base.rng + 0x200
/-- RNG_CENSUS_BUF_LO (chapter 19, R766). -/
def R.rngCensusBufLo : Nat := Base.rng + 0x204
/-- RNG_CENSUS_BUF_HI (chapter 19, R766). -/
def R.rngCensusBufHi : Nat := Base.rng + 0x208
/-- RNG_CENSUS_CTL (chapter 19, R767). -/
def R.rngCensusCtl : Nat := Base.rng + 0x20C
/-- RNG_CENSUS_STATUS (chapter 19, R769). -/
def R.rngCensusStatus : Nat := Base.rng + 0x210
/-- RNG_MBOX_VEC (chapter 19, R765). -/
def R.rngMboxVec : Nat := Base.rng + 0x300
/-- RNG_MBOX_PEND_i (chapter 19, R765). -/
def R.rngMboxPend (i : Nat) : Nat := Base.rng + 0x310 + 4 * i
/-- RNG_MBOX_LO_i (chapter 19, R765). -/
def R.rngMboxLo (i : Nat) : Nat := Base.rng + 0x800 + 8 * i
/-- RNG_MBOX_HI_i (chapter 19, R765). -/
def R.rngMboxHi (i : Nat) : Nat := Base.rng + 0x804 + 8 * i
/-- RNG_MBOX_BIND_i (chapter 19, R765). -/
def R.rngMboxBind (i : Nat) : Nat := Base.rng + 0x1000 + 4 * i
/-- RNG_DMA_SRC_LO_i (chapter 19, R764). -/
def R.rngDmaSrcLo (i : Nat) : Nat := Base.rng + 0x2000 + 64 * i
/-- RNG_DMA_SRC_HI_i (chapter 19, R764). -/
def R.rngDmaSrcHi (i : Nat) : Nat := Base.rng + 0x2004 + 64 * i
/-- RNG_DMA_DST_LO_i (chapter 19, R764). -/
def R.rngDmaDstLo (i : Nat) : Nat := Base.rng + 0x2008 + 64 * i
/-- RNG_DMA_DST_HI_i (chapter 19, R764). -/
def R.rngDmaDstHi (i : Nat) : Nat := Base.rng + 0x200C + 64 * i
/-- RNG_DMA_LEN_i (chapter 19, R764). -/
def R.rngDmaLen (i : Nat) : Nat := Base.rng + 0x2010 + 64 * i
/-- RNG_DMA_CTL_i (chapter 19, R764). -/
def R.rngDmaCtl (i : Nat) : Nat := Base.rng + 0x2014 + 64 * i
/-- RNG_DMA_STATUS_i (chapter 19, R764). -/
def R.rngDmaStatus (i : Nat) : Nat := Base.rng + 0x2018 + 64 * i
/-- RNG_DMA_MASK_i (chapter 19, R764). -/
def R.rngDmaMask (i : Nat) : Nat := Base.rng + 0x201C + 64 * i
/-- RNG_DMA_DBVAL_LO_i (chapter 19, R764). -/
def R.rngDmaDbvalLo (i : Nat) : Nat := Base.rng + 0x2020 + 64 * i
/-- RNG_DMA_DBVAL_HI_i (chapter 19, R764). -/
def R.rngDmaDbvalHi (i : Nat) : Nat := Base.rng + 0x2024 + 64 * i
/-- TRN_SEL (chapter 20, R37). -/
def R.trnSel : Nat := Base.trn + 0x0
/-- TRN_CFG (chapter 20, R795). -/
def R.trnCfg : Nat := Base.trn + 0x4
/-- TRN_CTL (chapter 20, R802). -/
def R.trnCtl : Nat := Base.trn + 0x8
/-- TRN_STATUS (chapter 20). -/
def R.trnStatus : Nat := Base.trn + 0xC
/-- TRN_PASSES (chapter 20). -/
def R.trnPasses : Nat := Base.trn + 0x10
/-- TRN_FAILED (chapter 20). -/
def R.trnFailed : Nat := Base.trn + 0x14
/-- TRN_LEAVE_WAIT (chapter 20, R798). -/
def R.trnLeaveWait : Nat := Base.trn + 0x18
/-- TRN_STREAM_WAIT (chapter 20, R799). -/
def R.trnStreamWait : Nat := Base.trn + 0x1C
/-- TRN_Q_BASE_LO_i (chapter 20, R773). -/
def R.trnQBaseLo (i : Nat) : Nat := Base.trn + 0x100 + 32 * i
/-- TRN_Q_BASE_HI_i (chapter 20, R773). -/
def R.trnQBaseHi (i : Nat) : Nat := Base.trn + 0x104 + 32 * i
/-- TRN_Q_SIZE_i (chapter 20, R773). -/
def R.trnQSize (i : Nat) : Nat := Base.trn + 0x108 + 32 * i
/-- TRN_Q_TAIL_i (chapter 20, R773). -/
def R.trnQTail (i : Nat) : Nat := Base.trn + 0x10C + 32 * i
/-- TRN_Q_HEAD_i (chapter 20, R773). -/
def R.trnQHead (i : Nat) : Nat := Base.trn + 0x110 + 32 * i
/-- U_SEL (chapter 21, R37). -/
def R.uSel (u : Nat) : Nat := Base.uart u + 0x0
/-- U_CFG (chapter 21, R819). -/
def R.uCfg (u : Nat) : Nat := Base.uart u + 0x4
/-- U_DATA (chapter 21, R816). -/
def R.uData (u : Nat) : Nat := Base.uart u + 0x8
/-- U_STATUS (chapter 21). -/
def R.uStatus (u : Nat) : Nat := Base.uart u + 0xC
/-- U_EVENT (chapter 21). -/
def R.uEvent (u : Nat) : Nat := Base.uart u + 0x10
/-- U_COUNT (chapter 21). -/
def R.uCount (u : Nat) : Nat := Base.uart u + 0x14
/-- U_IRQ (chapter 21, R818). -/
def R.uIrq (u : Nat) : Nat := Base.uart u + 0x18
/-- LIN_CTL (chapter 21, R829). -/
def R.linCtl : Nat := Base.uart 1 + 0x100
/-- LIN_EVENT (chapter 21). -/
def R.linEvent : Nat := Base.uart 1 + 0x104
/-- LIN_SLOT_i (chapter 21, R829). -/
def R.linSlot (i : Nat) : Nat := Base.uart 1 + 0x110 + 4 * i
/-- LIN_DATA_LO_i (chapter 21, R831). -/
def R.linDataLo (i : Nat) : Nat := Base.uart 1 + 0x140 + 8 * i
/-- LIN_DATA_HI_i (chapter 21, R831). -/
def R.linDataHi (i : Nat) : Nat := Base.uart 1 + 0x144 + 8 * i
/-- LIN_STAT_i (chapter 21, R830). -/
def R.linStat (i : Nat) : Nat := Base.uart 1 + 0x180 + 4 * i
/-- FPL_SEL (chapter 22, R37). -/
def R.fplSel : Nat := Base.fpl + 0x0
/-- FPL_CFG (chapter 22). -/
def R.fplCfg : Nat := Base.fpl + 0x4
/-- FPL_CTL (chapter 22, R881). -/
def R.fplCtl : Nat := Base.fpl + 0x8
/-- FPL_STATUS (chapter 22, R880). -/
def R.fplStatus : Nat := Base.fpl + 0xC
/-- FPL_FATAL (chapter 22). -/
def R.fplFatal : Nat := Base.fpl + 0x10
/-- FPL_TAG (chapter 22). -/
def R.fplTag : Nat := Base.fpl + 0x14
/-- FPL_BODY_LO (chapter 22, R884). -/
def R.fplBodyLo : Nat := Base.fpl + 0x18
/-- FPL_BODY_HI (chapter 22, R884). -/
def R.fplBodyHi : Nat := Base.fpl + 0x1C
/-- JTG_POLICY (chapter 21, R845). -/
def R.jtgPolicy : Nat := Base.jtg + 0x0
/-- JTG_STATE (chapter 21, R842). -/
def R.jtgState : Nat := Base.jtg + 0x4
/-- JTG_ARMED (chapter 21, R841). -/
def R.jtgArmed : Nat := Base.jtg + 0x8
/-- CRN_SEL (chapter 22, R37). -/
def R.crnSel : Nat := Base.crn + 0x0
/-- CRN_CFG (chapter 22, R858). -/
def R.crnCfg : Nat := Base.crn + 0x4
/-- CRN_CLASS (chapter 22). -/
def R.crnClass : Nat := Base.crn + 0x8
/-- CRN_CTL (chapter 22, R858). -/
def R.crnCtl : Nat := Base.crn + 0xC
/-- CRN_STATUS (chapter 22, R923). -/
def R.crnStatus : Nat := Base.crn + 0x10
/-- CRN_PIN (chapter 22, R866). -/
def R.crnPin : Nat := Base.crn + 0x14
/-- CRN_VALID (chapter 22, R923). -/
def R.crnValid : Nat := Base.crn + 0x18
/-- CRN_RD_SEL (chapter 22, R868). -/
def R.crnRdSel : Nat := Base.crn + 0x20
/-- CRN_RD_DATA_i (chapter 22, R868). -/
def R.crnRdData (i : Nat) : Nat := Base.crn + 0x40 + 4 * i
/-- CRN_STREAM_CTL (chapter 22, R869). -/
def R.crnStreamCtl : Nat := Base.crn + 0x60
/-- CRN_STREAM_STATUS (chapter 22, R871). -/
def R.crnStreamStatus : Nat := Base.crn + 0x64
/-- CRN_CON (chapter 22, R872). -/
def R.crnCon : Nat := Base.crn + 0x68
/-- CRN_CNT_i (chapter 22, R854). -/
def R.crnCnt (i : Nat) : Nat := Base.crn + 0x100 + 4 * i
/-- CRN_DROP_i (chapter 22, R854). -/
def R.crnDrop (i : Nat) : Nat := Base.crn + 0x140 + 4 * i
/-- CRN_FROZEN_i (chapter 22). -/
def R.crnFrozen (i : Nat) : Nat := Base.crn + 0x180 + 4 * i
/-- RND_ROUND_LO (chapter 04, R175). -/
def R.rndRoundLo : Nat := Base.rnd + 0x0
/-- RND_ROUND_HI (chapter 04, R175). -/
def R.rndRoundHi : Nat := Base.rnd + 0x4
/-- RND_TURN (chapter 04). -/
def R.rndTurn : Nat := Base.rnd + 0x8
/-- RND_TT_SEL (chapter 04, R920). -/
def R.rndTtSel : Nat := Base.rnd + 0x10
/-- RND_TT_ADDR (chapter 04, R174). -/
def R.rndTtAddr : Nat := Base.rnd + 0x14
/-- RND_TT_DATA (chapter 04, R174). -/
def R.rndTtData : Nat := Base.rnd + 0x18
/-- RND_EPOCH (chapter 04). -/
def R.rndEpoch : Nat := Base.rnd + 0x20
/-- RND_SWAP_ROUND_LO (chapter 04). -/
def R.rndSwapRoundLo : Nat := Base.rnd + 0x24
/-- RND_SWAP_ROUND_HI (chapter 04). -/
def R.rndSwapRoundHi : Nat := Base.rnd + 0x28
/-- RND_OVR_CFG (chapter 04). -/
def R.rndOvrCfg : Nat := Base.rnd + 0x30
/-- RND_OVR_OPEN (chapter 04, R163). -/
def R.rndOvrOpen : Nat := Base.rnd + 0x34
/-- RND_STALL (chapter 04, R165). -/
def R.rndStall : Nat := Base.rnd + 0x38
/-- RND_FLOOR (chapter 04, R151). -/
def R.rndFloor : Nat := Base.rnd + 0x3C
/-- RND_OVR_CNT_i (chapter 04, R163). -/
def R.rndOvrCnt (i : Nat) : Nat := Base.rnd + 0x100 + 4 * i
/-- COR_INFO (chapter 07). -/
def R.corInfo (n : Nat) : Nat := Base.cor n + 0x0
/-- COR_ISA_SEL (chapter 08, R37). -/
def R.corIsaSel (n : Nat) : Nat := Base.cor n + 0x10
/-- COR_ISA_CFG (chapter 08). -/
def R.corIsaCfg (n : Nat) : Nat := Base.cor n + 0x14
/-- COR_MEM_SEL (chapter 09, R37). -/
def R.corMemSel (n : Nat) : Nat := Base.cor n + 0x18
/-- COR_MEM_CFG (chapter 09). -/
def R.corMemCfg (n : Nat) : Nat := Base.cor n + 0x1C
/-- COR_COUNT (chapter 07). -/
def R.corCount (h : Nat) : Nat := Base.corHalf h + 0x0
/-- COR_FUSED_i (chapter 07). -/
def R.corFused (h : Nat) (i : Nat) : Nat := Base.corHalf h + 0x4 + 4 * i
/-- COR_GOOD_i (chapter 07). -/
def R.corGood (h : Nat) (i : Nat) : Nat := Base.corHalf h + 0x10 + 4 * i
/-- COR_RETIRE_i (chapter 07). -/
def R.corRetire (h : Nat) (i : Nat) : Nat := Base.corHalf h + 0x20 + 4 * i
/-- COR_SLOW (chapter 07). -/
def R.corSlow (h : Nat) : Nat := Base.corHalf h + 0x30
/-- COR_RESIDENT (chapter 07). -/
def R.corResident (h : Nat) : Nat := Base.corHalf h + 0x34
/-- COR_MAP_i (chapter 07, R266). -/
def R.corMap (h : Nat) (i : Nat) : Nat := Base.corHalf h + 0x100 + 4 * i
/-- COR_CEIL_i (chapter 07). -/
def R.corCeil (h : Nat) (i : Nat) : Nat := Base.corHalf h + 0x200 + 4 * i
/-- COR_TRAP_INFO (chapter 08, R324). -/
def R.corTrapInfo (h : Nat) : Nat := Base.corHalf h + 0x300
/-- COR_TRAP_PC (chapter 08, R324). -/
def R.corTrapPc (h : Nat) : Nat := Base.corHalf h + 0x304
/-- COR_TRAP_LANES (chapter 08, R324). -/
def R.corTrapLanes (h : Nat) : Nat := Base.corHalf h + 0x308
/-- COR_TRAP_CORE (chapter 08, R324). -/
def R.corTrapCore (h : Nat) : Nat := Base.corHalf h + 0x30C
/-- COR_TRAP_CLR (chapter 08). -/
def R.corTrapClr (h : Nat) : Nat := Base.corHalf h + 0x310
/-- COR_FPX (chapter 08). -/
def R.corFpx (h : Nat) : Nat := Base.corHalf h + 0x314
/-- COR_MFLT_INFO (chapter 09, R357). -/
def R.corMfltInfo (h : Nat) : Nat := Base.corHalf h + 0x320
/-- COR_MFLT_ADDR_LO (chapter 09, R357). -/
def R.corMfltAddrLo (h : Nat) : Nat := Base.corHalf h + 0x324
/-- COR_MFLT_ADDR_HI (chapter 09, R357). -/
def R.corMfltAddrHi (h : Nat) : Nat := Base.corHalf h + 0x328
/-- COR_MFLT_STOP (chapter 09, R357). -/
def R.corMfltStop (h : Nat) : Nat := Base.corHalf h + 0x32C
/-- COR_MFLT_CTL (chapter 09, R358). -/
def R.corMfltCtl (h : Nat) : Nat := Base.corHalf h + 0x330
/-- COR_GSECT (chapter 09). -/
def R.corGsect (h : Nat) : Nat := Base.corHalf h + 0x334
/-- COR_LS_REPLAY (chapter 09). -/
def R.corLsReplay (h : Nat) : Nat := Base.corHalf h + 0x338
/-- COR_COH_WAKE (chapter 12). -/
def R.corCohWake (h : Nat) : Nat := Base.corHalf h + 0x340
/-- COR_COH_PROT (chapter 12). -/
def R.corCohProt (h : Nat) : Nat := Base.corHalf h + 0x344
/-- MXA_SEL (chapter 10, R37). -/
def R.mxaSel (h : Nat) : Nat := Base.mxa h + 0x0
/-- MXA_CFG (chapter 10). -/
def R.mxaCfg (h : Nat) : Nat := Base.mxa h + 0x4
/-- MXA_STATUS (chapter 10). -/
def R.mxaStatus (h : Nat) : Nat := Base.mxa h + 0x8
/-- MXA_CEIL (chapter 10). -/
def R.mxaCeil (h : Nat) : Nat := Base.mxa h + 0xC
/-- MXA_TILES_LO (chapter 10). -/
def R.mxaTilesLo (h : Nat) : Nat := Base.mxa h + 0x10
/-- MXA_TILES_HI (chapter 10). -/
def R.mxaTilesHi (h : Nat) : Nat := Base.mxa h + 0x14
/-- MXA_MAIN_LO (chapter 10). -/
def R.mxaMainLo (h : Nat) : Nat := Base.mxa h + 0x18
/-- MXA_MAIN_HI (chapter 10). -/
def R.mxaMainHi (h : Nat) : Nat := Base.mxa h + 0x1C
/-- MXA_STALL (chapter 10). -/
def R.mxaStall (h : Nat) : Nat := Base.mxa h + 0x20
/-- MXA_LEAVE_WAIT (chapter 10). -/
def R.mxaLeaveWait (h : Nat) : Nat := Base.mxa h + 0x24
/-- MXA_FPX (chapter 10). -/
def R.mxaFpx (h : Nat) : Nat := Base.mxa h + 0x28
/-- MXA_ERR (chapter 10). -/
def R.mxaErr (h : Nat) : Nat := Base.mxa h + 0x2C
/-- MXA_ERR_PC (chapter 10). -/
def R.mxaErrPc (h : Nat) : Nat := Base.mxa h + 0x30
/-- UC_SEL (chapter 11, R37). -/
def R.ucSel (h : Nat) : Nat := Base.uc h + 0x0
/-- UC_CFG (chapter 11). -/
def R.ucCfg (h : Nat) : Nat := Base.uc h + 0x4
/-- UC_STATUS (chapter 11). -/
def R.ucStatus (h : Nat) : Nat := Base.uc h + 0x8
/-- UC_LOOKUP_LO (chapter 11). -/
def R.ucLookupLo (h : Nat) : Nat := Base.uc h + 0x10
/-- UC_LOOKUP_HI (chapter 11). -/
def R.ucLookupHi (h : Nat) : Nat := Base.uc h + 0x14
/-- UC_MISS_LO (chapter 11). -/
def R.ucMissLo (h : Nat) : Nat := Base.uc h + 0x18
/-- UC_MISS_HI (chapter 11). -/
def R.ucMissHi (h : Nat) : Nat := Base.uc h + 0x1C
/-- UC_MERGE (chapter 11). -/
def R.ucMerge (h : Nat) : Nat := Base.uc h + 0x20
/-- UC_DIR_EVICT (chapter 11). -/
def R.ucDirEvict (h : Nat) : Nat := Base.uc h + 0x24
/-- UC_GUEST (chapter 11). -/
def R.ucGuest (h : Nat) : Nat := Base.uc h + 0x28
/-- UC_MC_COPIES (chapter 11). -/
def R.ucMcCopies (h : Nat) : Nat := Base.uc h + 0x2C
/-- UC_MC_DROP (chapter 11). -/
def R.ucMcDrop (h : Nat) : Nat := Base.uc h + 0x30
/-- UC_ECC (chapter 11). -/
def R.ucEcc (h : Nat) : Nat := Base.uc h + 0x34
/-- UC_HBM_STATE (chapter 11). -/
def R.ucHbmState (n : Nat) : Nat := Base.ucA n + 0x40
/-- UC_HBM_TEMP (chapter 11). -/
def R.ucHbmTemp (n : Nat) : Nat := Base.ucA n + 0x44
/-- UC_COH_SEL (chapter 12, R37). -/
def R.ucCohSel (h : Nat) : Nat := Base.uc h + 0x80
/-- UC_COH_CFG (chapter 12). -/
def R.ucCohCfg (h : Nat) : Nat := Base.uc h + 0x84
/-- UC_COH_OPEN (chapter 12). -/
def R.ucCohOpen (h : Nat) : Nat := Base.uc h + 0x88
/-- UC_COH_NACK (chapter 12). -/
def R.ucCohNack (h : Nat) : Nat := Base.uc h + 0x8C
/-- UC_COH_TICKET (chapter 12). -/
def R.ucCohTicket (h : Nat) : Nat := Base.uc h + 0x90
/-- UC_COH_PROT (chapter 12). -/
def R.ucCohProt (h : Nat) : Nat := Base.uc h + 0x94
/-- UC_SHD_SEL (chapter 13, R526). -/
def R.ucShdSel (h : Nat) : Nat := Base.uc h + 0xC0
/-- UC_SHD_CFG (chapter 13, R526). -/
def R.ucShdCfg (h : Nat) : Nat := Base.uc h + 0xC4
/-- UC_SHD_SERVED (chapter 13). -/
def R.ucShdServed (h : Nat) : Nat := Base.uc h + 0xC8
/-- UC_SHD_DENY (chapter 13). -/
def R.ucShdDeny (h : Nat) : Nat := Base.uc h + 0xCC
/-- UC_SHD_TABLE (chapter 13). -/
def R.ucShdTable (h : Nat) : Nat := Base.uc h + 0xD0
/-- UC_SHD_CUT (chapter 13). -/
def R.ucShdCut (h : Nat) : Nat := Base.uc h + 0xD4
/-- COL_SEL (chapter 14, R558). -/
def R.colSel (n : Nat) : Nat := Base.col n + 0x0
/-- COL_CFG (chapter 14, R558). -/
def R.colCfg (n : Nat) : Nat := Base.col n + 0x4
/-- COL_CTL (chapter 14, R548). -/
def R.colCtl (n : Nat) : Nat := Base.col n + 0x8
/-- COL_END_STATE (chapter 14). -/
def R.colEndState (n : Nat) (k : Nat) : Nat := Base.colEnd n k + 0x0
/-- COL_END_INSVC_LO (chapter 14). -/
def R.colEndInsvcLo (n : Nat) (k : Nat) : Nat := Base.colEnd n k + 0x4
/-- COL_END_INSVC_HI (chapter 14). -/
def R.colEndInsvcHi (n : Nat) (k : Nat) : Nat := Base.colEnd n k + 0x8
/-- COL_END_DAMAGED (chapter 14). -/
def R.colEndDamaged (n : Nat) (k : Nat) : Nat := Base.colEnd n k + 0xC
/-- COL_END_REPLAY (chapter 14). -/
def R.colEndReplay (n : Nat) (k : Nat) : Nat := Base.colEnd n k + 0x10
/-- COL_END_SWAP (chapter 14). -/
def R.colEndSwap (n : Nat) (k : Nat) : Nat := Base.colEnd n k + 0x14
/-- COL_END_LOST (chapter 14). -/
def R.colEndLost (n : Nat) (k : Nat) : Nat := Base.colEnd n k + 0x18
/-- FLT_SEL (chapter 23, R37). -/
def R.fltSel : Nat := Base.seq 8 + 0x200
/-- FLT_CFG (chapter 23). -/
def R.fltCfg : Nat := Base.seq 8 + 0x204
/-- FLT_STATUS (chapter 23, R907). -/
def R.fltStatus : Nat := Base.seq 8 + 0x208
/-- FLT_FENCED (chapter 23). -/
def R.fltFenced : Nat := Base.seq 8 + 0x20C
/-- FLT_FAILED (chapter 23). -/
def R.fltFailed : Nat := Base.seq 8 + 0x210
/-- FLT_VEC (chapter 23, R911). -/
def R.fltVec : Nat := Base.seq 8 + 0x214
/-- FLT_FATAL (chapter 23). -/
def R.fltFatal : Nat := Base.seq 8 + 0x218
/-- FLT_POISON (chapter 23). -/
def R.fltPoison : Nat := Base.seq 8 + 0x21C
/-- FLT_REC_i (chapter 23, R910). -/
def R.fltRec (i : Nat) : Nat := Base.seq 8 + 0x220 + 4 * i

/-- The registers of one GLB block. -/
def Rows.glb : List RegRow :=
  [ ⟨0x0, 0, 1, 0x0, 0x0, 0x0, 0x0, 0xFFFFFF, 0x100A58, .none, false⟩,
    ⟨0x4, 0, 1, 0x0, 0x0, 0x0, 0x0, 0xFFFF, 0x1F3C, .none, false⟩,
    ⟨0x8, 0, 1, 0x0, 0x0, 0x0, 0x0, 0xFFFFFFFF, 0x0, .none, false⟩,
    ⟨0xC, 0, 1, 0x0, 0x0, 0x0, 0x0, 0xFFFFFFFF, 0x0, .none, false⟩,
    ⟨0x10, 0, 1, 0x0, 0x0, 0x0, 0x0, 0xFFFFFFFF, 0x0, .none, false⟩,
    ⟨0x40, 0, 1, 0x0, 0x0, 0x0, 0xFFFFFF07, 0x0, 0x0, .none, false⟩,
    ⟨0x44, 0, 1, 0x0, 0x0, 0x0, 0x0, 0x7FFF, 0x2, .none, false⟩,
    ⟨0x80, 0, 1, 0xF, 0x0, 0x0, 0x0, 0x0, 0x0, .boot, false⟩,
    ⟨0x84, 0, 1, 0xFFFFF, 0x0, 0x0, 0x0, 0x0, 0xFFFE0, .boot, true⟩,
    ⟨0x88, 0, 1, 0x0, 0x0, 0x0, 0x0, 0xFFFFFF, 0x0, .none, false⟩,
    ⟨0x8C, 0, 1, 0x0, 0x0, 0x0, 0x0, 0xFFFFFFFF, 0x0, .none, false⟩,
    ⟨0x90, 0, 1, 0x0, 0x0, 0x0, 0x0, 0xFFFF, 0x0, .none, false⟩,
    ⟨0xC0, 0, 1, 0x0, 0x0, 0x0, 0xFF3, 0x0, 0x0, .none, false⟩,
    ⟨0xC4, 0, 1, 0x3FFFFFF, 0x0, 0x0, 0x0, 0x0, 0x0, .none, false⟩,
    ⟨0xC8, 0, 1, 0xFFFFFF, 0x0, 0x0, 0x0, 0x0, 0x0, .none, false⟩,
    ⟨0xCC, 0, 1, 0x0, 0x0, 0x0, 0x0, 0x3F1, 0x0, .none, false⟩,
    ⟨0x100, 4, 12, 0x0, 0x0, 0x0, 0x0, 0xFFFFFFFF, 0x0, .none, false⟩,
    ⟨0x200, 0, 1, 0x0, 0x0, 0x0, 0x0, 0x33F3, 0x3000, .none, false⟩,
    ⟨0x204, 0, 1, 0x0, 0x0, 0x7FF, 0x0, 0x0, 0x0, .none, false⟩,
    ⟨0x208, 0, 1, 0x7FF, 0x0, 0x0, 0x0, 0x0, 0x329, .none, false⟩,
    ⟨0x20C, 0, 1, 0x0, 0x0, 0x0, 0x0, 0xF3, 0x1, .none, false⟩,
    ⟨0x210, 0, 1, 0x0, 0x0, 0x0, 0x3, 0x0, 0x0, .none, false⟩,
    ⟨0x214, 0, 1, 0x0, 0x0, 0x0, 0x0, 0xFFFF, 0x0, .none, false⟩,
    ⟨0x218, 0, 1, 0x0, 0x0, 0x0, 0x0, 0x3FFF, 0x0, .none, false⟩,
    ⟨0x21C, 0, 1, 0x0, 0x0, 0x0, 0x0, 0xFFFFFF, 0x0, .none, false⟩,
    ⟨0x220, 0, 1, 0xF, 0x0, 0x0, 0x0, 0x0, 0x0, .inlim, false⟩,
    ⟨0x224, 0, 1, 0xFFFFFFFF, 0x0, 0x0, 0x0, 0x0, 0xF4EC9CA8, .inlim, true⟩,
    ⟨0x228, 0, 1, 0x0, 0x0, 0x0, 0x0, 0xFFFFFF, 0x0, .none, false⟩,
    ⟨0x22C, 0, 1, 0x0, 0x0, 0x0, 0x0, 0x1FFF, 0xAF0, .none, false⟩,
    ⟨0x230, 0, 1, 0x0, 0x0, 0x0, 0x0, 0x3, 0x1, .none, false⟩,
    ⟨0x240, 0, 1, 0x3FFFFFC, 0x0, 0x0, 0x0, 0x0, 0x0, .none, false⟩,
    ⟨0x244, 0, 1, 0xFFFFFFFF, 0x0, 0x0, 0x0, 0x0, 0x0, .none, false⟩,
    ⟨0x248, 0, 1, 0x0, 0x0, 0x2, 0x0, 0x1, 0x0, .none, false⟩ ]

/-- The registers of one IMG block. -/
def Rows.img : List RegRow :=
  [ ⟨0x0, 0, 1, 0x0, 0xF, 0x0, 0x0, 0x0, 0x0, .image, false⟩,
    ⟨0x4, 0, 1, 0x0, 0x0, 0x0, 0xF3, 0x0, 0x0, .none, false⟩,
    ⟨0x8, 0, 1, 0xFFFFFFFF, 0x0, 0x0, 0x0, 0x0, 0x0, .none, true⟩,
    ⟨0xC, 0, 1, 0xFFFF, 0x0, 0x0, 0x0, 0x0, 0x0, .none, true⟩,
    ⟨0x10, 0, 1, 0x0, 0x0, 0x0, 0x0, 0xFFFF0F, 0x0, .none, false⟩,
    ⟨0x14, 0, 1, 0x0, 0x0, 0x0, 0xFFFF0000, 0x0, 0x0, .none, false⟩,
    ⟨0x18, 0, 1, 0x1, 0x0, 0x0, 0x0, 0x0, 0x1, .none, false⟩,
    ⟨0x1C, 0, 1, 0xFFFFFFFF, 0x0, 0x0, 0x0, 0x0, 0x20, .none, false⟩,
    ⟨0x20, 0, 1, 0x0, 0x0, 0x0, 0x0, 0xFFFFFFFF, 0x0, .none, false⟩,
    ⟨0x24, 0, 1, 0x0, 0x0, 0x0, 0x0, 0xFFFFFFFF, 0x0, .none, false⟩,
    ⟨0x28, 0, 1, 0x0, 0x0, 0x0, 0x0, 0xFFFFFFFF, 0x0, .none, false⟩,
    ⟨0x2C, 0, 1, 0x0, 0x0, 0x0, 0x0, 0xFFFFFFFF, 0x0, .none, false⟩,
    ⟨0x30, 0, 1, 0x0, 0x0, 0x0, 0x0, 0xFFFFFFFF, 0x0, .none, false⟩,
    ⟨0x34, 0, 1, 0x0, 0x0, 0x0, 0x0, 0xFFFF, 0x0, .none, false⟩,
    ⟨0x38, 0, 1, 0xF, 0x0, 0x0, 0x0, 0x0, 0x0, .none, false⟩,
    ⟨0x3C, 0, 1, 0x0, 0x0, 0x0, 0x0, 0xFFFF00FF, 0x0, .none, false⟩,
    ⟨0x100, 8, 16, 0x0, 0x0, 0x0, 0x0, 0x8FFFFFFF, 0x0, .none, false⟩,
    ⟨0x104, 8, 16, 0x0, 0x0, 0x0, 0x0, 0xFFFFFFFF, 0x0, .none, false⟩ ]

/-- The registers of one CHN block. -/
def Rows.chn : List RegRow :=
  [ ⟨0x0, 0, 1, 0xFFFFF000, 0x0, 0x0, 0x0, 0x0, 0x0, .none, false⟩,
    ⟨0x4, 0, 1, 0xFFFF, 0x0, 0x0, 0x0, 0x0, 0x0, .none, false⟩,
    ⟨0x8, 0, 1, 0x1FFF, 0x0, 0x0, 0x0, 0x0, 0x0, .none, false⟩,
    ⟨0x10, 0, 1, 0x0, 0x0, 0x0, 0x10FFF, 0x0, 0x0, .none, false⟩,
    ⟨0x14, 0, 1, 0x0, 0x0, 0x0, 0x0, 0x3, 0x0, .none, false⟩,
    ⟨0x18, 0, 1, 0x0, 0x0, 0x0, 0x70FFF, 0x0, 0x0, .none, false⟩,
    ⟨0x20, 0, 1, 0xFFF, 0x0, 0x0, 0x0, 0x0, 0x0, .none, false⟩,
    ⟨0x24, 0, 1, 0x0, 0x0, 0x0, 0x0, 0xFFFFFFFF, 0x0, .none, false⟩,
    ⟨0x28, 0, 1, 0x0, 0x0, 0x0, 0x0, 0xFFFFFFFF, 0x0, .none, false⟩,
    ⟨0x2C, 0, 1, 0x0, 0x0, 0x0, 0x0, 0xFFFFFFFF, 0x0, .none, false⟩,
    ⟨0x30, 0, 1, 0x0, 0x0, 0x0, 0x0, 0xFFFFFFFF, 0x0, .none, false⟩,
    ⟨0x34, 0, 1, 0x0, 0x0, 0x0, 0x0, 0xFFFFFFFF, 0x0, .none, false⟩,
    ⟨0x40, 0, 1, 0x0, 0x0, 0x0, 0x0, 0x7FFFFFF, 0x0, .none, false⟩,
    ⟨0x44, 0, 1, 0x0, 0x0, 0x0, 0x0, 0xFFFFFFFF, 0x0, .none, false⟩,
    ⟨0x100, 0, 1, 0x0, 0x0, 0x0, 0xFFFFFFFF, 0x0, 0x0, .none, false⟩,
    ⟨0x104, 0, 1, 0x0, 0x0, 0x0, 0x1FFF, 0x0, 0x0, .none, false⟩ ]

/-- The registers of one JOB block. -/
def Rows.job : List RegRow :=
  [ ⟨0x0, 0, 1, 0xF, 0x0, 0x0, 0x0, 0x0, 0x0, .job, false⟩,
    ⟨0x4, 0, 1, 0x3, 0x0, 0x0, 0x0, 0x0, 0x1, .job, true⟩,
    ⟨0x8, 0, 1, 0xFFC00000, 0x0, 0x0, 0x0, 0x0, 0x0, .none, false⟩,
    ⟨0xC, 0, 1, 0xFFFF, 0x0, 0x0, 0x0, 0x0, 0x0, .none, false⟩,
    ⟨0x10, 0, 1, 0x0, 0x0, 0x0, 0x0, 0x1FFF1FFF, 0x0, .none, false⟩,
    ⟨0x20, 0, 1, 0xFFFF, 0x0, 0x0, 0x0, 0x0, 0x0, .none, false⟩,
    ⟨0x24, 0, 1, 0x0, 0x0, 0x0, 0x3FFF, 0x0, 0x0, .none, false⟩,
    ⟨0x28, 0, 1, 0x0, 0x0, 0x0, 0x0, 0xF, 0x0, .none, false⟩,
    ⟨0x100, 4, 16, 0x0, 0x0, 0x0, 0x0, 0xFFFF, 0x0, .none, false⟩,
    ⟨0x1000, 16, 512, 0x1FFF, 0x0, 0x0, 0x0, 0x0, 0x1000, .job, true⟩,
    ⟨0x1004, 16, 512, 0x0, 0x0, 0x0, 0x0, 0x1FFF, 0x0, .none, false⟩,
    ⟨0x1008, 16, 512, 0x0, 0x0, 0x0, 0x0, 0xFFFFFFFF, 0x0, .none, false⟩,
    ⟨0x100C, 16, 512, 0x0, 0x0, 0x0, 0x0, 0xFFFFFFFF, 0x0, .none, false⟩ ]

/-- The registers of one PWR block. -/
def Rows.pwr : List RegRow :=
  [ ⟨0x0, 0, 1, 0xF, 0x0, 0x0, 0x0, 0x0, 0x0, .pwr, false⟩,
    ⟨0x4, 0, 1, 0xFFF, 0x0, 0x0, 0x0, 0x0, 0xAF0, .pwr, true⟩,
    ⟨0x8, 0, 1, 0xFFFFFFF, 0x0, 0x0, 0x0, 0x0, 0x695F0A8, .pwr, true⟩,
    ⟨0xC, 0, 1, 0x0, 0x0, 0x0, 0x0, 0xFFFF, 0xAF0, .none, false⟩,
    ⟨0x10, 0, 1, 0x0, 0x0, 0x0, 0x0, 0xFFFFFFFF, 0x0, .none, false⟩,
    ⟨0x14, 0, 1, 0x0, 0x0, 0x0, 0x0, 0xFFFFFF, 0x960, .none, false⟩,
    ⟨0x18, 0, 1, 0x0, 0x0, 0x1FF, 0x0, 0x0, 0x0, .none, false⟩,
    ⟨0x1C, 0, 1, 0x0, 0x0, 0x0, 0x0, 0xFFFFFFFF, 0x0, .none, false⟩,
    ⟨0x100, 4, 16, 0x0, 0x0, 0x0, 0x0, 0x3FFFFFF, 0x0, .none, false⟩,
    ⟨0x140, 4, 16, 0x0, 0x0, 0x0, 0x0, 0xFFF, 0x0, .none, false⟩ ]

/-- The registers of one CRN block. -/
def Rows.crn : List RegRow :=
  [ ⟨0x0, 0, 1, 0xF, 0x0, 0x0, 0x0, 0x0, 0x0, .crn, false⟩,
    ⟨0x4, 0, 1, 0x3, 0x0, 0x0, 0x0, 0x0, 0x0, .crn, true⟩,
    ⟨0x8, 0, 1, 0x7FFFE, 0x0, 0x0, 0x0, 0x0, 0x7FFFE, .crn, true⟩,
    ⟨0xC, 0, 1, 0x0, 0x0, 0x0, 0x1, 0x0, 0x0, .none, false⟩,
    ⟨0x10, 0, 1, 0x0, 0x0, 0x0, 0x0, 0xFFFFFF1F, 0x0, .none, false⟩,
    ⟨0x14, 0, 1, 0xFF, 0x0, 0x0, 0x0, 0x0, 0x0, .none, false⟩,
    ⟨0x18, 0, 1, 0x0, 0x0, 0x0, 0x0, 0xFF, 0x0, .none, false⟩,
    ⟨0x20, 0, 1, 0x3FFF001F, 0x0, 0x0, 0x0, 0x0, 0x0, .none, false⟩,
    ⟨0x40, 4, 8, 0x0, 0x0, 0x0, 0x0, 0xFFFFFFFF, 0x0, .none, false⟩,
    ⟨0x60, 0, 1, 0x0, 0x0, 0x0, 0x11F3F, 0x0, 0x0, .none, false⟩,
    ⟨0x64, 0, 1, 0x0, 0x0, 0x0, 0x0, 0xFFFF000F, 0x0, .none, false⟩,
    ⟨0x68, 0, 1, 0x1, 0x0, 0x0, 0x0, 0x2, 0x1, .none, false⟩,
    ⟨0x100, 4, 9, 0x0, 0x0, 0x0, 0x0, 0xFFFFFFFF, 0x0, .none, false⟩,
    ⟨0x140, 4, 9, 0x0, 0x0, 0x0, 0x0, 0xFFFFFFFF, 0x0, .none, false⟩,
    ⟨0x180, 4, 9, 0x0, 0x0, 0x0, 0x0, 0xFFFFFFFF, 0x0, .none, false⟩ ]

/-- The registers of one FPL block. -/
def Rows.fpl : List RegRow :=
  [ ⟨0x0, 0, 1, 0xF, 0x0, 0x0, 0x0, 0x0, 0x0, .fpl, false⟩,
    ⟨0x4, 0, 1, 0x3, 0x0, 0x0, 0x0, 0x0, 0x1, .fpl, true⟩,
    ⟨0x8, 0, 1, 0x0, 0x0, 0x0, 0x1, 0x0, 0x0, .none, false⟩,
    ⟨0xC, 0, 1, 0x0, 0x0, 0x0, 0x0, 0xFFFF0003, 0x0, .none, false⟩,
    ⟨0x10, 0, 1, 0x0, 0x0, 0x0, 0x0, 0xFFFF, 0x0, .none, false⟩,
    ⟨0x14, 0, 1, 0x0, 0x0, 0x0, 0x0, 0xFFFFFFFF, 0x0, .none, false⟩,
    ⟨0x18, 0, 1, 0xFFFFFFC0, 0x0, 0x0, 0x0, 0x0, 0x0, .none, true⟩,
    ⟨0x1C, 0, 1, 0xFFFFFFFF, 0x0, 0x0, 0x0, 0x0, 0x0, .none, true⟩ ]

/-- The registers of one JTG block. -/
def Rows.jtg : List RegRow :=
  [ ⟨0x0, 0, 1, 0x0, 0x0, 0x3, 0x0, 0x0, 0x3, .none, false⟩,
    ⟨0x4, 0, 1, 0x0, 0x0, 0x0, 0x0, 0x3FFFFFF, 0x0, .none, false⟩,
    ⟨0x8, 0, 1, 0x0, 0x0, 0x0, 0x0, 0xFFFF, 0x0, .none, false⟩ ]

/-- The registers of one TRN block. -/
def Rows.trn : List RegRow :=
  [ ⟨0x0, 0, 1, 0xF, 0x0, 0x0, 0x0, 0x0, 0x0, .trn, false⟩,
    ⟨0x4, 0, 1, 0xFFFF, 0x0, 0x0, 0x0, 0x0, 0x3E8, .trn, true⟩,
    ⟨0x8, 0, 1, 0xF, 0x0, 0x0, 0x100, 0x0, 0xF, .none, false⟩,
    ⟨0xC, 0, 1, 0x0, 0x0, 0x0, 0x0, 0xFFFFFFFF, 0x0, .none, false⟩,
    ⟨0x10, 0, 1, 0x0, 0x0, 0x0, 0x0, 0xFFFFFFFF, 0x0, .none, false⟩,
    ⟨0x14, 0, 1, 0x0, 0x0, 0x0, 0x0, 0xFFFFFFFF, 0x0, .none, false⟩,
    ⟨0x18, 0, 1, 0x0, 0x0, 0x0, 0x0, 0xFFFFFFFF, 0x0, .none, false⟩,
    ⟨0x1C, 0, 1, 0x0, 0x0, 0x0, 0x0, 0xFFFFFFFF, 0x0, .none, false⟩,
    ⟨0x100, 32, 4, 0xFFFFFFC0, 0x0, 0x0, 0x0, 0x0, 0x0, .none, false⟩,
    ⟨0x104, 32, 4, 0xFFFF, 0x0, 0x0, 0x0, 0x0, 0x0, .none, false⟩,
    ⟨0x108, 32, 4, 0xF, 0x0, 0x0, 0x0, 0x0, 0x4, .none, false⟩,
    ⟨0x10C, 32, 4, 0xFFFFFFFF, 0x0, 0x0, 0x0, 0x0, 0x0, .none, false⟩,
    ⟨0x110, 32, 4, 0x0, 0x0, 0x0, 0x0, 0xFFFFFFFF, 0x0, .none, false⟩ ]

/-- The registers of one HPT block. -/
def Rows.hpt : List RegRow :=
  [ ⟨0x0, 0, 1, 0xF, 0x0, 0x0, 0x0, 0x0, 0x0, .hpt, false⟩,
    ⟨0x4, 4, 2, 0x7F, 0x0, 0x0, 0x0, 0x0, 0x30, .hpt, true⟩,
    ⟨0xC, 0, 1, 0x0, 0x0, 0x0, 0xF, 0x0, 0x0, .none, false⟩,
    ⟨0x10, 4, 2, 0x0, 0x0, 0x0, 0x0, 0xFFFF, 0x0, .none, false⟩,
    ⟨0x18, 0, 1, 0x3, 0x0, 0x0, 0x0, 0x0, 0x0, .none, false⟩,
    ⟨0x1C, 0, 1, 0xF, 0x0, 0x0, 0x0, 0x0, 0x0, .client, false⟩,
    ⟨0x20, 0, 1, 0x3, 0x0, 0x0, 0x0, 0x0, 0x0, .none, false⟩,
    ⟨0x30, 0, 1, 0xFFFF0000, 0x0, 0x0, 0x0, 0x0, 0x0, .none, false⟩,
    ⟨0x34, 0, 1, 0xFFFF, 0x0, 0x0, 0x0, 0x0, 0x0, .none, false⟩,
    ⟨0x38, 0, 1, 0x7FFFFF, 0x0, 0x0, 0x0, 0x0, 0x0, .none, false⟩,
    ⟨0x3C, 0, 1, 0x0, 0x0, 0x0, 0x803FFFFF, 0x0, 0x0, .none, false⟩,
    ⟨0x40, 0, 1, 0x1FF, 0x0, 0x0, 0x0, 0x0, 0x0, .none, false⟩,
    ⟨0x44, 0, 1, 0x0, 0x0, 0x0, 0x0, 0x1, 0x0, .none, false⟩,
    ⟨0x50, 0, 1, 0x0, 0x0, 0x0, 0x0, 0xFFFFFFFF, 0x0, .none, false⟩,
    ⟨0x54, 0, 1, 0x0, 0x0, 0x0, 0x0, 0xFFFFFFFF, 0x0, .none, false⟩,
    ⟨0x100, 4, 512, 0xFF, 0x0, 0x0, 0x0, 0x0, 0x0, .client, true⟩,
    ⟨0x900, 4, 128, 0x1FF, 0x0, 0x0, 0x0, 0x0, 0x0, .none, false⟩,
    ⟨0xB00, 32, 8, 0xFFFFFFFF, 0x0, 0x0, 0x0, 0x0, 0x0, .none, false⟩,
    ⟨0xB04, 32, 8, 0xFFFFFFFF, 0x0, 0x0, 0x0, 0x0, 0x0, .none, false⟩,
    ⟨0xB08, 32, 8, 0xFFFFFFFF, 0x0, 0x0, 0x0, 0x0, 0x0, .none, false⟩,
    ⟨0xB0C, 32, 8, 0xFFFFFFFF, 0x0, 0x0, 0x0, 0x0, 0x0, .none, false⟩,
    ⟨0xB10, 32, 8, 0x1FFFFFF, 0x0, 0x0, 0x0, 0x0, 0x0, .none, false⟩,
    ⟨0xB14, 32, 8, 0xFFFF1FFE, 0x0, 0x0, 0x1, 0x0, 0x0, .none, false⟩,
    ⟨0xB18, 32, 8, 0x0, 0x0, 0x0, 0x0, 0x1FFFFF, 0x0, .none, false⟩ ]

/-- The registers of one PST block. -/
def Rows.pst : List RegRow :=
  [ ⟨0x0, 0, 1, 0xFFFFF800, 0x0, 0x0, 0x0, 0x0, 0x0, .none, false⟩,
    ⟨0x4, 0, 1, 0xFFFF, 0x0, 0x0, 0x0, 0x0, 0x0, .none, false⟩,
    ⟨0x8, 0, 1, 0xFFFF, 0x0, 0x0, 0x0, 0x0, 0x64, .none, false⟩,
    ⟨0xC, 0, 1, 0x0, 0x0, 0x0, 0x1003F, 0x0, 0x0, .none, false⟩,
    ⟨0x10, 0, 1, 0x0, 0x0, 0x0, 0x0, 0x1, 0x0, .none, false⟩ ]

/-- The registers of one RNG block. -/
def Rows.rng : List RegRow :=
  [ ⟨0x0, 0, 1, 0xF, 0x0, 0x0, 0x0, 0x0, 0x0, .rng, false⟩,
    ⟨0x4, 0, 1, 0xFFFFFF1F, 0x0, 0x0, 0x0, 0x0, 0x7D04000, .rng, true⟩,
    ⟨0x8, 0, 1, 0xFFFF001F, 0x0, 0x0, 0x0, 0x0, 0x0, .none, false⟩,
    ⟨0xC, 0, 1, 0x0, 0x0, 0x0, 0x0, 0xFFFF001F, 0x0, .none, false⟩,
    ⟨0x10, 0, 1, 0x0, 0x0, 0x0, 0x0, 0x1FFFF, 0x0, .none, false⟩,
    ⟨0x14, 0, 1, 0x0, 0x0, 0x0, 0x3, 0x0, 0x0, .none, false⟩,
    ⟨0x18, 0, 1, 0x71FF01FF, 0x0, 0x0, 0x0, 0x0, 0x0, .none, false⟩,
    ⟨0x1C, 0, 1, 0x0, 0x0, 0x0, 0x0, 0xFFFFFFFF, 0x0, .none, false⟩,
    ⟨0x20, 0, 1, 0x0, 0x0, 0x0, 0x0, 0xFFFFFFFF, 0x0, .none, false⟩,
    ⟨0x24, 0, 1, 0x0, 0x0, 0x0, 0x0, 0xFFFFFFFF, 0x0, .none, false⟩,
    ⟨0x28, 0, 1, 0x0, 0x0, 0x0, 0x0, 0xFFFFFFFF, 0x0, .none, false⟩,
    ⟨0x100, 4, 32, 0x0, 0x0, 0x0, 0x0, 0xFFFF3FFF, 0x0, .none, false⟩,
    ⟨0x200, 0, 1, 0xFFFFFF, 0x0, 0x0, 0x0, 0x0, 0x320000, .none, false⟩,
    ⟨0x204, 0, 1, 0xFFFFFFFF, 0x0, 0x0, 0x0, 0x0, 0x0, .none, false⟩,
    ⟨0x208, 0, 1, 0xFFFFFFFF, 0x0, 0x0, 0x0, 0x0, 0x0, .none, false⟩,
    ⟨0x20C, 0, 1, 0x0, 0x0, 0x0, 0x1, 0x0, 0x0, .none, false⟩,
    ⟨0x210, 0, 1, 0x0, 0x0, 0x0, 0x0, 0xFFFF001F, 0x0, .none, false⟩,
    ⟨0x300, 0, 1, 0x800007FF, 0x0, 0x0, 0x0, 0x0, 0x0, .none, false⟩,
    ⟨0x310, 4, 8, 0x0, 0x0, 0xFFFFFFFF, 0x0, 0x0, 0x0, .none, false⟩,
    ⟨0x800, 8, 256, 0x0, 0x0, 0x0, 0x0, 0xFFFFFFFF, 0x0, .none, false⟩,
    ⟨0x804, 8, 256, 0x0, 0x0, 0x0, 0x0, 0xFFFFFFFF, 0x0, .none, false⟩,
    ⟨0x1000, 4, 256, 0x80000FFF, 0x0, 0x0, 0x0, 0x0, 0x0, .none, false⟩,
    ⟨0x2000, 64, 8, 0xFFFFFFFF, 0x0, 0x0, 0x0, 0x0, 0x0, .none, false⟩,
    ⟨0x2004, 64, 8, 0xFFFFFFFF, 0x0, 0x0, 0x0, 0x0, 0x0, .none, false⟩,
    ⟨0x2008, 64, 8, 0xFFFFFFFF, 0x0, 0x0, 0x0, 0x0, 0x0, .none, false⟩,
    ⟨0x200C, 64, 8, 0xFFFFFFFF, 0x0, 0x0, 0x0, 0x0, 0x0, .none, false⟩,
    ⟨0x2010, 64, 8, 0x1FFFFFF, 0x0, 0x0, 0x0, 0x0, 0x0, .none, false⟩,
    ⟨0x2014, 64, 8, 0x3FFFFE, 0x0, 0x0, 0x1, 0x0, 0x0, .none, false⟩,
    ⟨0x2018, 64, 8, 0x0, 0x0, 0x0, 0x0, 0x1FFFFF, 0x0, .none, false⟩,
    ⟨0x201C, 64, 8, 0xFFFF, 0x0, 0x0, 0x0, 0x0, 0x0, .none, false⟩,
    ⟨0x2020, 64, 8, 0xFFFFFFFF, 0x0, 0x0, 0x0, 0x0, 0x0, .none, false⟩,
    ⟨0x2024, 64, 8, 0xFFFFFFFF, 0x0, 0x0, 0x0, 0x0, 0x0, .none, false⟩ ]

/-- The registers of one RND block. -/
def Rows.rnd : List RegRow :=
  [ ⟨0x0, 0, 1, 0x0, 0x0, 0x0, 0x0, 0xFFFFFFFF, 0x0, .none, false⟩,
    ⟨0x4, 0, 1, 0x0, 0x0, 0x0, 0x0, 0xFFFFFFFF, 0x0, .none, false⟩,
    ⟨0x8, 0, 1, 0x0, 0x0, 0x0, 0x0, 0x8000007F, 0x0, .none, false⟩,
    ⟨0x10, 0, 1, 0x0, 0xF, 0x0, 0x0, 0x0, 0x0, .tt, false⟩,
    ⟨0x14, 0, 1, 0x1FFFF, 0x0, 0x0, 0x0, 0x0, 0x0, .none, true⟩,
    ⟨0x18, 0, 1, 0x0, 0xFF, 0x0, 0x0, 0x0, 0x0, .tt, true⟩,
    ⟨0x20, 0, 1, 0x0, 0x0, 0x0, 0x0, 0x3FFFF, 0x0, .none, false⟩,
    ⟨0x24, 0, 1, 0x0, 0x0, 0x0, 0x0, 0xFFFFFFFF, 0x0, .none, false⟩,
    ⟨0x28, 0, 1, 0x0, 0x0, 0x0, 0x0, 0xFFFFFFFF, 0x0, .none, false⟩,
    ⟨0x30, 0, 1, 0x3, 0x0, 0x0, 0x0, 0x0, 0x0, .none, false⟩,
    ⟨0x34, 0, 1, 0x0, 0x0, 0x0, 0x0, 0xFFFFFFFF, 0x0, .none, false⟩,
    ⟨0x38, 0, 1, 0x0, 0x0, 0x1FFFF, 0x0, 0x0, 0x0, .none, false⟩,
    ⟨0x3C, 0, 1, 0x0, 0x0, 0x0, 0x0, 0xFFFFFFFF, 0x3, .none, false⟩,
    ⟨0x100, 4, 16, 0x0, 0x0, 0x0, 0x0, 0xFFFFFFFF, 0x0, .none, false⟩ ]

/-- The registers of one COR block. -/
def Rows.cor : List RegRow :=
  [ ⟨0x0, 0, 1, 0x0, 0x0, 0x0, 0x0, 0x7F7F01, 0x0, .none, false⟩,
    ⟨0x10, 0, 1, 0xF, 0x0, 0x0, 0x0, 0x0, 0x0, .isa, false⟩,
    ⟨0x14, 0, 1, 0x1F, 0x0, 0x0, 0x0, 0x0, 0x0, .isa, true⟩,
    ⟨0x18, 0, 1, 0xF, 0x0, 0x0, 0x0, 0x0, 0x0, .mem, false⟩,
    ⟨0x1C, 0, 1, 0x1FFFF, 0x0, 0x0, 0x0, 0x0, 0x64, .mem, true⟩ ]

/-- The registers of one CORHALF block. -/
def Rows.corHalf : List RegRow :=
  [ ⟨0x0, 0, 1, 0x0, 0x0, 0x0, 0x0, 0xFF7F, 0x0, .none, false⟩,
    ⟨0x4, 4, 3, 0x0, 0x0, 0x0, 0x0, 0xFFFFFFFF, 0x0, .none, false⟩,
    ⟨0x10, 4, 3, 0x0, 0x0, 0x0, 0x0, 0xFFFFFFFF, 0x0, .none, false⟩,
    ⟨0x20, 4, 3, 0x0, 0xFFFFFFFF, 0x0, 0x0, 0x0, 0x0, .none, true⟩,
    ⟨0x30, 0, 1, 0x0, 0x0, 0x0, 0x0, 0xFFFFFFFF, 0x0, .none, false⟩,
    ⟨0x34, 0, 1, 0x0, 0x0, 0x0, 0x0, 0x71FFF, 0x0, .none, false⟩,
    ⟨0x100, 4, 18, 0x0, 0x0, 0x0, 0x0, 0xFFFFFFFF, 0xFFFFFFFF, .none, false⟩,
    ⟨0x200, 4, 18, 0x0, 0x0, 0x0, 0x0, 0xFFFFFFFF, 0x0, .none, false⟩,
    ⟨0x300, 0, 1, 0x0, 0x0, 0x0, 0x0, 0xFFFFFFFF, 0x0, .none, false⟩,
    ⟨0x304, 0, 1, 0x0, 0x0, 0x0, 0x0, 0xFFFFFFFF, 0x0, .none, false⟩,
    ⟨0x308, 0, 1, 0x0, 0x0, 0x0, 0x0, 0xFFFFFFFF, 0x0, .none, false⟩,
    ⟨0x30C, 0, 1, 0x0, 0x0, 0x0, 0x0, 0x7F, 0x0, .none, false⟩,
    ⟨0x310, 0, 1, 0x0, 0x0, 0x0, 0x1, 0x0, 0x0, .none, false⟩,
    ⟨0x314, 0, 1, 0x0, 0x0, 0xF, 0x0, 0x0, 0x0, .none, false⟩,
    ⟨0x320, 0, 1, 0x0, 0x0, 0x0, 0x0, 0xFFFFFFF, 0x0, .none, false⟩,
    ⟨0x324, 0, 1, 0x0, 0x0, 0x0, 0x0, 0xFFFFFFFF, 0x0, .none, false⟩,
    ⟨0x328, 0, 1, 0x0, 0x0, 0x0, 0x0, 0xFFFF, 0x0, .none, false⟩,
    ⟨0x32C, 0, 1, 0x0, 0x0, 0x0, 0x0, 0xFFFF1FFF, 0x0, .none, false⟩,
    ⟨0x330, 0, 1, 0x0, 0x0, 0x0, 0x3, 0x0, 0x0, .none, false⟩,
    ⟨0x334, 0, 1, 0x0, 0x0, 0x0, 0x0, 0xFFFFFFFF, 0x0, .none, false⟩,
    ⟨0x338, 0, 1, 0x0, 0x0, 0x0, 0x0, 0xFFFFFFFF, 0x0, .none, false⟩,
    ⟨0x340, 0, 1, 0x0, 0x0, 0x0, 0x0, 0xFFFFFFFF, 0x0, .none, false⟩,
    ⟨0x344, 0, 1, 0x0, 0x0, 0x0, 0x0, 0xFFFF, 0x0, .none, false⟩ ]

/-- The registers of one MXA block. -/
def Rows.mxa : List RegRow :=
  [ ⟨0x0, 0, 1, 0xF, 0x0, 0x0, 0x0, 0x0, 0x0, .mxa, false⟩,
    ⟨0x4, 0, 1, 0xFF01, 0x0, 0x0, 0x0, 0x0, 0x4000, .mxa, true⟩,
    ⟨0x8, 0, 1, 0x0, 0x0, 0x0, 0x0, 0x1F7F, 0x1F00, .none, false⟩,
    ⟨0xC, 0, 1, 0x0, 0x0, 0x0, 0x0, 0xFF, 0x0, .none, false⟩,
    ⟨0x10, 0, 1, 0x0, 0x0, 0x0, 0x0, 0xFFFFFFFF, 0x0, .none, false⟩,
    ⟨0x14, 0, 1, 0x0, 0x0, 0x0, 0x0, 0xFFFFFFFF, 0x0, .none, false⟩,
    ⟨0x18, 0, 1, 0x0, 0x0, 0x0, 0x0, 0xFFFFFFFF, 0x0, .none, false⟩,
    ⟨0x1C, 0, 1, 0x0, 0x0, 0x0, 0x0, 0xFFFFFFFF, 0x0, .none, false⟩,
    ⟨0x20, 0, 1, 0x0, 0x0, 0x0, 0x0, 0xFFFFFFFF, 0x0, .none, false⟩,
    ⟨0x24, 0, 1, 0x0, 0x0, 0x0, 0x0, 0xFFFFFFFF, 0x0, .none, false⟩,
    ⟨0x28, 0, 1, 0x0, 0x0, 0xF, 0x0, 0x0, 0x0, .none, false⟩,
    ⟨0x2C, 0, 1, 0x0, 0x0, 0x80000000, 0x0, 0x1FFFF, 0x0, .none, false⟩,
    ⟨0x30, 0, 1, 0x0, 0x0, 0x0, 0x0, 0xFFFFFFFF, 0x0, .none, false⟩ ]

/-- The registers of one COL block. -/
def Rows.col : List RegRow :=
  [ ⟨0x0, 0, 1, 0xF, 0x0, 0x0, 0x0, 0x0, 0x0, .col, false⟩,
    ⟨0x4, 0, 1, 0x1FF, 0x0, 0x0, 0x0, 0x0, 0x104, .col, true⟩,
    ⟨0x8, 0, 1, 0x0, 0x0, 0x0, 0x1, 0x0, 0x0, .none, false⟩ ]

/-- The registers of one COLEND block. -/
def Rows.colEnd : List RegRow :=
  [ ⟨0x0, 0, 1, 0x0, 0x0, 0x0, 0x0, 0x3FFFFFF, 0x3F000F, .none, false⟩,
    ⟨0x4, 0, 1, 0x0, 0x0, 0x0, 0x0, 0xFFFFFFFF, 0x0, .none, false⟩,
    ⟨0x8, 0, 1, 0x0, 0x0, 0x0, 0x0, 0xFFF, 0x0, .none, false⟩,
    ⟨0xC, 0, 1, 0x0, 0x0, 0x0, 0x0, 0xFFFFFFFF, 0x0, .none, false⟩,
    ⟨0x10, 0, 1, 0x0, 0x0, 0x0, 0x0, 0xFFFFFFFF, 0x0, .none, false⟩,
    ⟨0x14, 0, 1, 0x0, 0x0, 0x0, 0x0, 0xFFFF, 0x0, .none, false⟩,
    ⟨0x18, 0, 1, 0x0, 0x0, 0x0, 0x0, 0xFFFFFFFF, 0x0, .none, false⟩ ]

/-- The registers of one GOV block. -/
def Rows.gov : List RegRow :=
  [ ⟨0x0, 0, 1, 0x0, 0x0, 0x0, 0x0, 0xFFFFFF, 0x0, .none, false⟩,
    ⟨0x4, 0, 1, 0x0, 0x0, 0x0, 0x0, 0xFFFFF, 0x0, .none, false⟩,
    ⟨0x8, 0, 1, 0x0, 0x0, 0x0, 0x0, 0xFFFFF, 0x0, .none, false⟩,
    ⟨0xC, 0, 1, 0x0, 0x0, 0x0, 0x0, 0xFFF, 0x0, .none, false⟩,
    ⟨0x10, 0, 1, 0x0, 0x0, 0x0, 0x0, 0xFFFF, 0x0, .none, false⟩,
    ⟨0x14, 0, 1, 0x0, 0x0, 0x0, 0x0, 0xFFFFFFFF, 0x0, .none, false⟩,
    ⟨0x18, 0, 1, 0x0, 0x0, 0x0, 0x0, 0xFFFFFFFF, 0x0, .none, false⟩,
    ⟨0x1C, 0, 1, 0x0, 0x0, 0x0, 0x0, 0xFFFFFFFF, 0x0, .none, false⟩ ]

/-- The registers of the U0 block. -/
def Rows.uart0 : List RegRow :=
  [ ⟨0x0, 0, 1, 0xF, 0x0, 0x0, 0x0, 0x0, 0x0, .uart, false⟩,
    ⟨0x4, 0, 1, 0x7FFFFFFF, 0x0, 0x0, 0x0, 0x0, 0x841001A, .uart, true⟩,
    ⟨0x8, 0, 1, 0xFF, 0x0, 0x0, 0x0, 0xF00, 0x0, .none, false⟩,
    ⟨0xC, 0, 1, 0x0, 0x0, 0x0, 0x0, 0x1FF7F, 0x0, .none, false⟩,
    ⟨0x10, 0, 1, 0x0, 0x0, 0x3, 0x0, 0x0, 0x0, .none, false⟩,
    ⟨0x14, 0, 1, 0x0, 0x0, 0x0, 0x0, 0xFFFFFFFF, 0x0, .none, false⟩,
    ⟨0x18, 0, 1, 0x8007F7FF, 0x0, 0x0, 0x0, 0x0, 0x20000, .none, false⟩ ]

/-- The registers of the U1 block, with the LIN registers. -/
def Rows.uart1 : List RegRow :=
  [ ⟨0x0, 0, 1, 0xF, 0x0, 0x0, 0x0, 0x0, 0x3, .uart, false⟩,
    ⟨0x4, 0, 1, 0x7FFFFFFF, 0x0, 0x0, 0x0, 0x0, 0x2844009C, .uart, true⟩,
    ⟨0x8, 0, 1, 0xFF, 0x0, 0x0, 0x0, 0xF00, 0x0, .none, false⟩,
    ⟨0xC, 0, 1, 0x0, 0x0, 0x0, 0x0, 0x1FF7F, 0x0, .none, false⟩,
    ⟨0x10, 0, 1, 0x0, 0x0, 0x3, 0x0, 0x0, 0x0, .none, false⟩,
    ⟨0x14, 0, 1, 0x0, 0x0, 0x0, 0x0, 0xFFFFFFFF, 0x0, .none, false⟩,
    ⟨0x18, 0, 1, 0x8007F7FF, 0x0, 0x0, 0x0, 0x0, 0x20000, .none, false⟩,
    ⟨0x100, 0, 1, 0xF, 0x0, 0x0, 0x0, 0x0, 0x1, .uart, true⟩,
    ⟨0x104, 0, 1, 0x0, 0x0, 0x7, 0x0, 0x0, 0x0, .none, false⟩,
    ⟨0x110, 4, 1, 0xFF0FFF, 0x0, 0x0, 0x0, 0x0, 0x10A10, .uart, true⟩,
    ⟨0x114, 4, 1, 0xFF0FFF, 0x0, 0x0, 0x0, 0x0, 0x640911, .uart, true⟩,
    ⟨0x118, 4, 6, 0xFF0FFF, 0x0, 0x0, 0x0, 0x0, 0x0, .uart, true⟩,
    ⟨0x140, 8, 8, 0xFFFFFFFF, 0x0, 0x0, 0x0, 0x0, 0x0, .none, false⟩,
    ⟨0x144, 8, 8, 0xFFFFFFFF, 0x0, 0x0, 0x0, 0x0, 0x0, .none, false⟩,
    ⟨0x180, 4, 8, 0x0, 0x0, 0x8, 0x0, 0xFF07, 0x0, .none, false⟩ ]

/-- The registers of a peak SEQ block. -/
def Rows.seqPeak : List RegRow :=
  [ ⟨0x0, 0, 1, 0x0, 0x0, 0x0, 0x0, 0x1FFFFFF, 0x10000, .none, false⟩,
    ⟨0x10, 0, 1, 0xF, 0x0, 0x0, 0x0, 0x0, 0x0, .seq, false⟩,
    ⟨0x14, 0, 1, 0x3FFF, 0x0, 0x0, 0x0, 0x0, 0x800, .seq, true⟩,
    ⟨0x20, 0, 1, 0x0, 0x0, 0x0, 0x0, 0x3FFFFF, 0x8000, .none, false⟩,
    ⟨0x24, 0, 1, 0x0, 0x0, 0x0, 0x0, 0xFFFFFFFF, 0x0, .none, false⟩,
    ⟨0x28, 0, 1, 0x0, 0x0, 0x0, 0x0, 0x3FFFFF, 0x0, .none, false⟩,
    ⟨0x2C, 0, 1, 0x0, 0x0, 0x0, 0x0, 0xFFFF, 0x0, .none, false⟩,
    ⟨0x30, 0, 1, 0x0, 0x0, 0x1, 0x0, 0x3FFFE, 0x0, .none, false⟩,
    ⟨0x34, 0, 1, 0x0, 0x0, 0x0, 0x0, 0x1FFF, 0x0, .none, false⟩ ]

/-- The registers of the hub SEQ block, with the FLT registers. -/
def Rows.seqHub : List RegRow :=
  [ ⟨0x0, 0, 1, 0x0, 0x0, 0x0, 0x0, 0x1FFFFFF, 0x10000, .none, false⟩,
    ⟨0x4, 0, 1, 0x0, 0x0, 0x0, 0x0, 0xFFFFFFFF, 0x0, .none, false⟩,
    ⟨0x8, 0, 1, 0x0, 0x0, 0x0, 0xFFFF000F, 0x0, 0x0, .none, false⟩,
    ⟨0xC, 0, 1, 0x0, 0x0, 0x0, 0x0, 0x3FFF, 0x0, .none, false⟩,
    ⟨0x10, 0, 1, 0xF, 0x0, 0x0, 0x0, 0x0, 0x0, .seq, false⟩,
    ⟨0x14, 0, 1, 0x3FFF, 0x0, 0x0, 0x0, 0x0, 0x800, .seq, true⟩,
    ⟨0x20, 0, 1, 0x0, 0x0, 0x0, 0x0, 0x3FFFFF, 0x8000, .none, false⟩,
    ⟨0x24, 0, 1, 0x0, 0x0, 0x0, 0x0, 0xFFFFFFFF, 0x0, .none, false⟩,
    ⟨0x28, 0, 1, 0x0, 0x0, 0x0, 0x0, 0x3FFFFF, 0x0, .none, false⟩,
    ⟨0x2C, 0, 1, 0x0, 0x0, 0x0, 0x0, 0xFFFF, 0x0, .none, false⟩,
    ⟨0x30, 0, 1, 0x0, 0x0, 0x1, 0x0, 0x3FFFE, 0x0, .none, false⟩,
    ⟨0x34, 0, 1, 0x0, 0x0, 0x0, 0x0, 0x1FFF, 0x0, .none, false⟩,
    ⟨0x200, 0, 1, 0xF, 0x0, 0x0, 0x0, 0x0, 0x0, .flt, false⟩,
    ⟨0x204, 0, 1, 0x1FFF1, 0x0, 0x0, 0x0, 0x0, 0x4001, .flt, true⟩,
    ⟨0x208, 0, 1, 0x0, 0x0, 0x80, 0x0, 0xFFFF007F, 0x0, .none, false⟩,
    ⟨0x20C, 0, 1, 0x0, 0x0, 0x0, 0x0, 0xFFFF, 0x0, .none, false⟩,
    ⟨0x210, 0, 1, 0x0, 0x0, 0x0, 0x0, 0x1FFFF, 0x0, .none, false⟩,
    ⟨0x214, 0, 1, 0x800007FF, 0x0, 0x0, 0x0, 0x0, 0x0, .none, false⟩,
    ⟨0x218, 0, 1, 0x0, 0x0, 0x0, 0x0, 0xFFFF, 0x0, .none, false⟩,
    ⟨0x21C, 0, 1, 0x0, 0x0, 0x0, 0x0, 0xFFFFFFFF, 0x0, .none, false⟩,
    ⟨0x220, 4, 4, 0x0, 0x0, 0x0, 0x0, 0xFFFFFFFF, 0x0, .none, false⟩ ]

/-- The registers of a UC A block. -/
def Rows.ucA : List RegRow :=
  [ ⟨0x0, 0, 1, 0xF, 0x0, 0x0, 0x0, 0x0, 0x0, .uc, false⟩,
    ⟨0x4, 0, 1, 0xFF1F, 0x0, 0x0, 0x0, 0x0, 0x1814, .uc, true⟩,
    ⟨0x8, 0, 1, 0x0, 0x0, 0x0, 0x0, 0x7, 0x0, .none, false⟩,
    ⟨0x10, 0, 1, 0x0, 0x0, 0x0, 0x0, 0xFFFFFFFF, 0x0, .none, false⟩,
    ⟨0x14, 0, 1, 0x0, 0x0, 0x0, 0x0, 0xFFFFFFFF, 0x0, .none, false⟩,
    ⟨0x18, 0, 1, 0x0, 0x0, 0x0, 0x0, 0xFFFFFFFF, 0x0, .none, false⟩,
    ⟨0x1C, 0, 1, 0x0, 0x0, 0x0, 0x0, 0xFFFFFFFF, 0x0, .none, false⟩,
    ⟨0x20, 0, 1, 0x0, 0x0, 0x0, 0x0, 0xFFFFFFFF, 0x0, .none, false⟩,
    ⟨0x24, 0, 1, 0x0, 0x0, 0x0, 0x0, 0xFFFFFFFF, 0x0, .none, false⟩,
    ⟨0x28, 0, 1, 0x0, 0x0, 0x0, 0x0, 0x3FFFF, 0x0, .none, false⟩,
    ⟨0x2C, 0, 1, 0x0, 0x0, 0x0, 0x0, 0xFFFFFFFF, 0x0, .none, false⟩,
    ⟨0x30, 0, 1, 0x0, 0x0, 0x0, 0x0, 0xFFFFFFFF, 0x0, .none, false⟩,
    ⟨0x34, 0, 1, 0x0, 0x0, 0x0, 0x0, 0xFFFFFFFF, 0x0, .none, false⟩,
    ⟨0x40, 0, 1, 0x0, 0x0, 0x0, 0x0, 0xFF, 0x0, .none, false⟩,
    ⟨0x44, 0, 1, 0x0, 0x0, 0x0, 0x0, 0xFF, 0x0, .none, false⟩,
    ⟨0x80, 0, 1, 0xF, 0x0, 0x0, 0x0, 0x0, 0x0, .coh, false⟩,
    ⟨0x84, 0, 1, 0x3F, 0x0, 0x0, 0x0, 0x0, 0x12, .coh, true⟩,
    ⟨0x88, 0, 1, 0x0, 0x0, 0x0, 0x0, 0x1FFFFFFF, 0x0, .none, false⟩,
    ⟨0x8C, 0, 1, 0x0, 0x0, 0x0, 0x0, 0xFFFFFFFF, 0x0, .none, false⟩,
    ⟨0x90, 0, 1, 0x0, 0x0, 0x0, 0x0, 0xFFFFFFFF, 0x0, .none, false⟩,
    ⟨0x94, 0, 1, 0x0, 0x0, 0x0, 0x0, 0xFFFF, 0x0, .none, false⟩,
    ⟨0xC0, 0, 1, 0xF, 0x0, 0x0, 0x0, 0x0, 0x0, .shd, false⟩,
    ⟨0xC4, 0, 1, 0xFF0F, 0x0, 0x0, 0x0, 0x0, 0x4005, .shd, true⟩,
    ⟨0xC8, 0, 1, 0x0, 0x0, 0x0, 0x0, 0xFFFFFFFF, 0x0, .none, false⟩,
    ⟨0xCC, 0, 1, 0x0, 0x0, 0x0, 0x0, 0xFFFFFFFF, 0x0, .none, false⟩,
    ⟨0xD0, 0, 1, 0x0, 0x0, 0x0, 0x0, 0xFFFF01FF, 0x0, .none, false⟩,
    ⟨0xD4, 0, 1, 0x0, 0x0, 0x0, 0x0, 0xFFFFFFFF, 0x0, .none, false⟩ ]

/-- The registers of a UC B block. -/
def Rows.ucB : List RegRow :=
  [ ⟨0x0, 0, 1, 0xF, 0x0, 0x0, 0x0, 0x0, 0x0, .uc, false⟩,
    ⟨0x4, 0, 1, 0xFF1F, 0x0, 0x0, 0x0, 0x0, 0x1814, .uc, true⟩,
    ⟨0x8, 0, 1, 0x0, 0x0, 0x0, 0x0, 0x7, 0x0, .none, false⟩,
    ⟨0x10, 0, 1, 0x0, 0x0, 0x0, 0x0, 0xFFFFFFFF, 0x0, .none, false⟩,
    ⟨0x14, 0, 1, 0x0, 0x0, 0x0, 0x0, 0xFFFFFFFF, 0x0, .none, false⟩,
    ⟨0x18, 0, 1, 0x0, 0x0, 0x0, 0x0, 0xFFFFFFFF, 0x0, .none, false⟩,
    ⟨0x1C, 0, 1, 0x0, 0x0, 0x0, 0x0, 0xFFFFFFFF, 0x0, .none, false⟩,
    ⟨0x20, 0, 1, 0x0, 0x0, 0x0, 0x0, 0xFFFFFFFF, 0x0, .none, false⟩,
    ⟨0x24, 0, 1, 0x0, 0x0, 0x0, 0x0, 0xFFFFFFFF, 0x0, .none, false⟩,
    ⟨0x28, 0, 1, 0x0, 0x0, 0x0, 0x0, 0x3FFFF, 0x0, .none, false⟩,
    ⟨0x2C, 0, 1, 0x0, 0x0, 0x0, 0x0, 0xFFFFFFFF, 0x0, .none, false⟩,
    ⟨0x30, 0, 1, 0x0, 0x0, 0x0, 0x0, 0xFFFFFFFF, 0x0, .none, false⟩,
    ⟨0x34, 0, 1, 0x0, 0x0, 0x0, 0x0, 0xFFFFFFFF, 0x0, .none, false⟩,
    ⟨0x80, 0, 1, 0xF, 0x0, 0x0, 0x0, 0x0, 0x0, .coh, false⟩,
    ⟨0x84, 0, 1, 0x3F, 0x0, 0x0, 0x0, 0x0, 0x12, .coh, true⟩,
    ⟨0x88, 0, 1, 0x0, 0x0, 0x0, 0x0, 0x1FFFFFFF, 0x0, .none, false⟩,
    ⟨0x8C, 0, 1, 0x0, 0x0, 0x0, 0x0, 0xFFFFFFFF, 0x0, .none, false⟩,
    ⟨0x90, 0, 1, 0x0, 0x0, 0x0, 0x0, 0xFFFFFFFF, 0x0, .none, false⟩,
    ⟨0x94, 0, 1, 0x0, 0x0, 0x0, 0x0, 0xFFFF, 0x0, .none, false⟩,
    ⟨0xC0, 0, 1, 0xF, 0x0, 0x0, 0x0, 0x0, 0x0, .shd, false⟩,
    ⟨0xC4, 0, 1, 0xFF0F, 0x0, 0x0, 0x0, 0x0, 0x4005, .shd, true⟩,
    ⟨0xC8, 0, 1, 0x0, 0x0, 0x0, 0x0, 0xFFFFFFFF, 0x0, .none, false⟩,
    ⟨0xCC, 0, 1, 0x0, 0x0, 0x0, 0x0, 0xFFFFFFFF, 0x0, .none, false⟩,
    ⟨0xD0, 0, 1, 0x0, 0x0, 0x0, 0x0, 0xFFFF01FF, 0x0, .none, false⟩,
    ⟨0xD4, 0, 1, 0x0, 0x0, 0x0, 0x0, 0xFFFFFFFF, 0x0, .none, false⟩ ]

/-- The register table of a block; `i` is the instance (UART, sequencer, half, peak, or 4 × peak + end). -/
def Rows.of (b : Block) (i : Nat) : List RegRow :=
  match b with
  | .glb => Rows.glb | .img => Rows.img | .chn => Rows.chn | .job => Rows.job | .pwr => Rows.pwr
  | .crn => Rows.crn | .uart => if i = 0 then Rows.uart0 else Rows.uart1
  | .fpl => Rows.fpl | .jtg => Rows.jtg | .trn => Rows.trn | .hpt => Rows.hpt | .pst => Rows.pst
  | .rng => Rows.rng | .seq => if i = 8 then Rows.seqHub else Rows.seqPeak | .rnd => Rows.rnd
  | .cor => Rows.cor | .corHalf => Rows.corHalf | .mxa => Rows.mxa
  | .uc => if i % 2 = 0 then Rows.ucA else Rows.ucB
  | .col => Rows.col | .colEnd => Rows.colEnd | .gov => Rows.gov

/-- The block a BAR0 offset lies in, the instance, and the offset within the block. -/
def blockAt (a : Nat) : Option (Block × Nat × Nat) :=
  if a < 0x10000 then some (.glb, 0, a)
  else if a < 0x20000 then some (.img, 0, a - 0x10000)
  else if a < 0x30000 then some (.chn, 0, a - 0x20000)
  else if a < 0x40000 then some (.job, 0, a - 0x30000)
  else if a < 0x50000 then some (.pwr, 0, a - 0x40000)
  else if a < 0x60000 then some (.crn, 0, a - 0x50000)
  else if a < 0x62000 then some (.uart, (a - 0x60000) / 0x1000, (a - 0x60000) % 0x1000)
  else if a < 0x63000 then some (.fpl, 0, a - 0x62000)
  else if a < 0x64000 then some (.jtg, 0, a - 0x63000)
  else if a < 0x70000 then none
  else if a < 0x80000 then some (.trn, 0, a - 0x70000)
  else if a < 0x90000 then some (.hpt, 0, a - 0x80000)
  else if a < 0xA0000 then some (.rng, 0, a - 0x90000)
  else if a < 0xB0000 then some (.seq, 8, a - 0xA0000)
  else if a < 0xC0000 then some (.rnd, 0, a - 0xB0000)
  else if a < 0xD0000 then some (.pst, 0, a - 0xC0000)
  else if a < 0x01000000 then none
  else if a < 0x01800000 then
    let n := (a - 0x01000000) / 0x100000
    let r := a % 0x100000
    if r < 0x10000 then none
    else if r < 0x10400 then some (.cor, n, r - 0x10000)
    else if r < 0x10C00 then some (.corHalf, 2 * n + (r - 0x10400) / 0x400, (r - 0x10400) % 0x400)
    else if r < 0x20000 then none
    else if r < 0x30000 then some (.mxa, 2 * n + (r - 0x20000) / 0x8000, (r - 0x20000) % 0x8000)
    else if r < 0x40000 then some (.uc, 2 * n + (r - 0x30000) / 0x8000, (r - 0x30000) % 0x8000)
    else if r < 0x40100 then some (.col, n, r - 0x40000)
    else if r < 0x40500 then some (.colEnd, 4 * n + (r - 0x40100) / 0x100, (r - 0x40100) % 0x100)
    else if r < 0x50000 then none
    else if r < 0x60000 then some (.seq, n, r - 0x50000)
    else if r < 0x70100 then none
    else if r < 0x70300 then some (.gov, 2 * n + (r - 0x70100) / 0x100, (r - 0x70100) % 0x100)
    else none
  else none

/-- The row of a register table that covers block offset `r`. -/
def rowAt (l : List RegRow) (r : Nat) : Option RegRow :=
  l.find? fun q =>
    if q.count = 1 then q.off == r
    else decide (q.off ≤ r) && (r - q.off) % q.stride == 0 && decide ((r - q.off) / q.stride < q.count)

/-- The register at a BAR0 offset: `none` where the map has none (R14, R914). -/
def regRow (a : Nat) : Option RegRow :=
  match blockAt a with
  | some (b, i, r) => rowAt (Rows.of b i) r
  | none => none

/-- The cold-reset value of the register file at a BAR0 offset. A register whose reset entry is "image",
"fused", "measured" or "store" holds 0 here, HPT_PORT_CFG the value of its setting 0 (log entry 61); its value is a view
of the state (Machine/Views.lean), or is reloaded from the store (Machine/Standby.lean). -/
def regReset (a : Nat) : Word :=
  match regRow a with
  | some q => BitVec.ofNat 32 q.reset
  | none => 0

end Sys2Proof.Machine
end

