-- ==== Sys2Proof/Machine/Types/Arrays.lean ====
section
/-! DEFINITION. Matrix arrays: chapter "Matrix Arrays". -/

namespace Sys2Proof.Machine

/-- A tile descriptor (R378). -/
structure TileDesc where
  aAddr : Nat
  bAddr : Nat
  cAddr : Nat
  rAddr : Nat
  biasAddr : Nat
  saAddr : Nat
  sbAddr : Nat
  statAddr : Nat
  m : Nat
  n : Nat
  k : Nat
  lda : Nat
  ldb : Nat
  ldc : Nat
  ldr : Nat
  fmtA : Nat
  fmtB : Nat
  fmtC : Nat
  fmtR : Nat
  pro : Nat
  epi : Nat
  pair : Nat
  partner : Nat
  alpha : Nat
  tag : Nat
  /-- The 26 reserved bytes. -/
  rest : Nat
  deriving DecidableEq, Repr

/-- Where a tile of an array is: in the queue, in its main loop, waiting for the epilogue, in its epilogue. -/
inductive TileSt
  | queued | main | ended | epi
  deriving DecidableEq, Repr

/-- A shared chunk that the leader sent: the operand's rows and its scale rows, as bytes. -/
structure SharedChunk where
  rows : List (List Nat)
  scales : List (List Nat)
  deriving DecidableEq, Repr

/-- An accepted tile: its number in its array, the group that submitted it, the descriptor and its address, the chunks
staged and the
accumulators as they then stand (FP32 words, or integers on the INT32 path), the array and tile of its pair,
chunks of the shared operand not yet consumed, and the turn in which it first asked for leave. -/
structure Tile where
  no : Nat
  group : GroupRef
  addr : Nat
  desc : TileDesc
  st : TileSt
  chunks : Nat
  acc : List Int
  mate : Option (Nat × Nat)
  inbox : List SharedChunk
  asked : Option Nat
  deriving DecidableEq, Repr

/-- An MXS that the array has not accepted: its group, the descriptor's address and the descriptor as it was
read (none where the address is no descriptor address), its pc, and its round. -/
structure MxsAsk where
  group : GroupRef
  addr : Nat
  desc : Option TileDesc
  pc : Nat
  round : Nat
  deriving DecidableEq, Repr

/-- The array of a half: MXS not accepted, the queue (R375), the tiles whose main loop has started, the bound
partner (R403), MXA_CFG as taken at the phase start (R411), the next tile number, and whether 0x0505 has been
recorded in the phase. -/
structure ArraySt where
  asks : List MxsAsk
  queue : List Tile
  running : List Tile
  partner : Option Nat
  ftz : Bool
  timeout : Nat
  nextTile : Nat
  fpxNoted : Bool
  deriving DecidableEq, Repr

end Sys2Proof.Machine
end

