-- ==== Sys2Proof/Machine/Types/Cache.lean ====
section
/-! DEFINITION. L1s, slices, directories, the coherence protocol's messages and transactions, and shadow
confirmations: chapters "The Unified Cache", "Coherence Protocol" and "Memory Model and Shadow Reads". A
line is named by its line number (address / 128); its 128 bytes are one number, byte 0 least significant;
sectors are a 4-bit mask. A core of the protocol is a physical core, keyed half × 128 + physical index. -/

namespace Sys2Proof.Machine

/-- The messages of R467. -/
inductive MsgKind
  | getS | getM | upg | fill | putM | putE | putF | rdNC | wrNC | atom
  | invS | fwdS | fwdM | fwdR | recall
  | data | grant | invAck | fwdAck | done | doneAck | release | putAck | wrAck | atomRsp
  /-- A copy of a multicast write to a slice (R446). -/
  | copy
  deriving DecidableEq, Repr

/-- The states of an L1 copy (R462, R481). -/
inductive L1St
  | i | s | e | m | o | f | isD | imD | smG | omG | miA | iiA
  deriving DecidableEq, Repr

/-- Who sends or receives: an L1 (half × 128 + physical core), a home slice, a half's matrix array, a half's
confirmation table, or an engine at the hub. -/
inductive Agent
  | core (key : Nat)
  | home (half : Nat)
  | array (half : Nat)
  | conf (half : Nat)
  | engine (k : Nat)
  deriving DecidableEq, Repr

/-- How far a request is: waiting in its half's request queue (R466); under way; waiting in the home's
arbiter; refused, its Nack under way; held by the requester for its retry; waiting at its half's floor gate
(R151); discarded or not sent across a failed col, its home not yet told (R556, R557, R902). -/
inductive Stage
  | gate | lost | queued | sent | waiting | nacked | held
  deriving DecidableEq, Repr

/-- One lane's atomic operation (R308): lane, byte offset in the line, operation, operand bytes (4 or 8),
unsigned, operand and compare value. -/
structure AtomLane where
  lane : Nat
  off : Nat
  op : Nat
  len : Nat
  uns : Bool
  val : Nat
  cmp : Nat
  deriving DecidableEq, Repr

/-- A message of the protocol. -/
structure CohMsg where
  kind : MsgKind
  stage : Stage
  src : Agent
  dst : Agent
  line : Nat
  /-- Sectors asked for or carried, and those of them that are dirty. -/
  mask : Nat
  dirty : Nat
  data : Nat
  /-- Bytes a WrNC writes (one bit each), and the half mask of a multicast write (R445). -/
  bytes : Nat
  halves : Nat
  /-- The state that Data or Grant grants; for FwdAck, the state the giver had. -/
  grant : L1St
  /-- The requesters a forward names, with their sectors. -/
  reqs : List (Agent × Nat)
  ops : List AtomLane
  olds : List (Nat × Nat)
  /-- What the sender uses to tell its requests apart: a group slot + 1 of a core, a tile, a transfer. -/
  tag : Nat
  /-- The line by which the asker knows its accesses (another than `line` for the own ring window). -/
  asked : Nat
  ticket : Option Nat
  /-- A floor read (R469); a confirmation (R515). -/
  floor : Bool
  confirm : Bool
  /-- No data: the home met a fault (R523). -/
  bad : Bool
  deriving DecidableEq, Repr

/-- An L1 copy. `left` is the state that SM_G, OM_G and MI_A were entered from. -/
structure L1Line where
  line : Nat
  st : L1St
  left : L1St
  valid : Nat
  dirty : Nat
  data : Nat
  /-- A Fill of the line is out. -/
  filling : Bool
  /-- The hold of R483, and the forwards deferred. -/
  hold : Bool
  deferred : List Nat
  deriving DecidableEq, Repr

/-- A wake copy (R484). -/
structure WakeCopy where
  line : Nat
  valid : Nat
  data : Nat
  deriving DecidableEq, Repr

/-- An L1: its split (l1_sel), its lines most recently used first, the lines that are open from Done to
DoneAck (R482) with the group slots whose stores to them are not yet performed, its wake copies, and the
forwards that wait for a wake slot. -/
structure L1 where
  split : Nat
  lines : List L1Line
  opens : List (Nat × List Nat)
  wake : List WakeCopy
  wakeWait : List Nat
  deriving DecidableEq, Repr

/-- A way of a slice's set: a home line or a guest copy (R424, R439). -/
structure Way where
  line : Nat
  guest : Bool
  valid : Nat
  dirty : Nat
  data : Nat
  deriving DecidableEq, Repr

/-- The directory states of R470 but H_I, which has no entry. -/
inductive DirSt
  | s | f | em | o
  deriving DecidableEq, Repr

/-- A directory entry: the owner o or forwarder f, the sharers named exactly, and the coarse vector (one bit
a row, 0 while exact, R430). -/
structure DirEntry where
  line : Nat
  st : DirSt
  owner : Option Nat
  sharers : List Nat
  coarse : Nat
  deriving DecidableEq, Repr

/-- What a transaction does once no InvAck, Recall answer or FwdAck is due. -/
inductive TxnAct
  | none | dataM | grantM | write | atomic | evict
  deriving DecidableEq, Repr

/-- An open transaction (R471): the request that began it (none for an eviction or cleanse), its home, the
cores whose InvAck is due, the giver whose FwdAck is due, the Dones due and received, the giver that was sent
FwdM or Recall, and the turn its request was served in. -/
structure Txn where
  req : Option CohMsg
  home : Nat
  act : TxnAct
  invDue : List Nat
  fwdDue : Option Nat
  doneDue : List (Nat × L1St)
  doneGot : List Nat
  giver : Option Nat
  turn : Nat
  deriving DecidableEq, Repr

/-- A live ticket (R493): its number, the half it was given to, and the round it expires in. -/
structure Ticket where
  no : Nat
  half : Nat
  expire : Nat
  deriving DecidableEq, Repr

/-- An entry of a half's confirmation table (R516): half, line, sectors, turn of creation, waiting loads. -/
structure ConfEntry where
  half : Nat
  line : Nat
  mask : Nat
  turn : Nat
  loads : List Nat
  deriving DecidableEq, Repr

/-- An unconfirmed load: half, logical core and slot of its group, the bytes read (address, length, value),
the confirmations it waits for, and whether one differed. -/
structure UnconfLoad where
  half : Nat
  core : Nat
  slot : Nat
  reads : List (Nat × Nat × Nat)
  waits : List Nat
  bad : Bool
  deriving DecidableEq, Repr

/-- State of the caches and the protocol. -/
structure CacheState where
  l1 : Table L1
  /-- Sets of a slice, keyed half × 12,288 + set, most recently used first. -/
  sets : Table (List Way)
  /-- Sets of a directory, keyed half × 16,384 + set, most recently used first. -/
  dir : Table (List DirEntry)
  /-- Messages under way, by number, and the next number. -/
  net : Table CohMsg
  nextMsg : Nat
  /-- Open transactions by line. -/
  txns : Table Txn
  /-- Requests waiting in each home's arbiter, in order. -/
  arb : Table (List Nat)
  /-- Live tickets by home, oldest first, and the next number. -/
  tickets : Table (List Ticket)
  nextTicket : Table Nat
  /-- Lines read at each home in a turn with no conflicting request since (R436): turn and lines. -/
  readTurn : Table (Nat × List Nat)
  /-- FwdR routed to a giver and not answered: line, giver; and Releases that wait for them. -/
  fwdrOut : List (Nat × Nat)
  releaseDue : List (Nat × Nat)
  /-- WrNCs of each engine not yet acknowledged, by tag. -/
  wrOut : Table Nat
  /-- Requests of each half outstanding at homes on other peaks (R466). -/
  outReq : Table Nat
  /-- Confirmation table entries by number of their RdNC, and unconfirmed loads. -/
  conf : Table ConfEntry
  loads : Table UnconfLoad
  nextLoad : Nat
  /-- Denials of the current round by half, and the last round of a cut-off (R522). -/
  denies : Table Nat
  cutTo : Table Nat
  /-- Directory evictions of the current round by half (R435). -/
  dirEvicts : Table Nat
  /-- Round in which an event that is recorded once a round was last recorded, keyed code × 4,096 + unit;
  round + 1. -/
  noted : Table Nat
  /-- Round of the last access of each stack (R457), and uncorrectable errors of the current round of slices
  (half) and stacks (16 + peak). -/
  stackUse : Table Nat
  errors : Table Nat
  deriving DecidableEq, Repr

end Sys2Proof.Machine
end

