-- ==== Sys2Proof/Machine/Types/Faults.lean ====
section
/-! DEFINITION. Cairns, snapshots, the faceplate and faults: chapters "Cairn and Faceplate" and "Faults and
Degraded Operation". -/

namespace Sys2Proof.Machine

/-- A cairn entry (R850). -/
structure CairnEntry where
  code : Nat
  source : Nat
  flags : Nat
  uctx : Nat
  time : Nat
  payload : List Nat
  deriving DecidableEq, Repr

/-- One die's cairn: its present entries, oldest first, and the rate limit of R854. -/
structure Cairn where
  entries : List CairnEntry
  /-- Turn of the last acceptance, and entries accepted in it. -/
  turn : Nat
  accepted : Nat
  /-- Entries discarded in the round `dropRound`, not yet told in 0x1104. -/
  dropped : Nat
  dropRound : Nat
  gap : Bool
  /-- Entries discarded since the freeze. -/
  frozenDrop : Nat
  deriving DecidableEq, Repr

/-- A snapshot being written (R862). -/
structure Snapshot where
  slot : Nat
  number : Nat
  code : Nat
  triggers : Nat
  round : Nat
  us : Nat
  deriving DecidableEq, Repr

/-- A readout of a cairn (source 0 to 8) or a snapshot slot (16 + slot) to a page stream or the console (R869, R872):
CRN_CNT and round number at its start, entries or lines (of a slot: bytes) to send and sent, and its result where it is
known. -/
structure Readout where
  source : Nat
  stream : Nat
  start : Nat
  round : Nat
  total : Nat
  sent : Nat
  result : Nat
  deriving DecidableEq, Repr

/-- State of the cairns and the faceplate. -/
structure CairnState where
  cairns : Table Cairn
  snap : Option Snapshot
  streamRead : Option Readout
  consoleRead : Option Readout
  /-- The entry latched by a read of CRN_RD_DATA_0 (R868), 32 bytes. -/
  latched : List Nat
  /-- Characters of the console's readout not yet sent (R873). -/
  conText : List Nat
  /-- What the e-paper panel shows: left block tag, body tag, right block tag (R878). -/
  panelLeft : Nat
  panelBody : Nat
  panelRight : Nat
  /-- The update being driven: its cause, 3 for one that R882 starts. -/
  drawing : Option Nat
  queued : Option Nat
  /-- A thermal dry stop enters Standby when its snapshot completes (R646). -/
  thermalStandby : Bool
  deriving DecidableEq, Repr

/-- A fault notice (R886): unit kind of R892 (12 for fatal), cairn code, die, unit byte of the record,
affected partitions, detection round, and what the kind needs: a half, a core, a col or a line. -/
structure Notice where
  kind : Nat
  code : Nat
  die : Nat
  unit : Nat
  parts : Nat
  round : Nat
  half : Nat
  line : Nat
  /-- FLT_CFG in force at the detection (R913). -/
  cfg : Nat := 0
  deriving DecidableEq, Repr

/-- State of the faults. -/
structure FaultState where
  notices : List Notice
  /-- The FIFO of 32 fault records (R910), each 16 bytes, and the latched words. -/
  records : List (List Nat)
  latched : List Nat
  /-- A record was added in this round (R911). -/
  added : Bool
  /-- Poisoned lines (R898) by line number, ascending. -/
  poison : List Nat
  /-- Failed cols and stacks, one bit each; sequencers' last reset end, and halves' last protocol fault. -/
  colsFailed : Nat
  stacksFailed : Nat
  seqReset : Table Nat
  protRound : Table Nat
  /-- Partitions to fence when their running job ends (R901), with the fault. -/
  fenceAtEnd : Table Notice
  deriving DecidableEq, Repr

end Sys2Proof.Machine
end

