-- ==== Sys2Proof/Machine/Types/Image.lean ====
section
/-! DEFINITION. Structure images (chapter "The Structure Image and Shift Change"). -/

namespace Sys2Proof.Machine

/-- A partition record (R222). -/
structure PartRec where
  part : Nat
  halves : List Nat
  budget : Nat
  digest : Nat
  deriving DecidableEq, Repr

/-- A turn entry (R52). -/
structure TurnEntry where
  hop : Nat
  cls : Nat
  turns : Nat
  link : Nat
  deriving DecidableEq, Repr

/-- A preset profile (R228). -/
structure Profile where
  number : Nat
  entries : List TurnEntry
  deriving DecidableEq, Repr

/-- A col stream record (R230). -/
structure ColStream where
  col : Nat
  channel : Nat
  engine : Nat
  part : Nat
  deriving DecidableEq, Repr

/-- A region record (R232). -/
structure Region where
  base : Nat
  size : Nat
  attr : Nat
  homePart : Nat
  deriving DecidableEq, Repr

/-- A parsed structure image without its turn tables, which stand in a turn-table bank. -/
structure Image where
  version : Nat
  id : Nat
  parts : List PartRec
  streams : List ColStream
  regions : List Region
  maxCount : Bool
  ucodeLevel : Nat
  profiles : List Profile
  /-- Signature kind (R236), and whether a kind-1 signature verified at the load. -/
  sigKind : Nat
  sigOk : Bool
  /-- Turn set of a stock image (R258), or 15. -/
  turnSet : Nat
  deriving DecidableEq, Repr

/-- A load in progress (R237): from a store slot, or from an address. -/
structure LoadReq where
  fromStore : Bool
  index : Nat
  addr : Nat
  deriving DecidableEq, Repr

/-- A swap that is scheduled or running (R245 to R255). -/
structure Swap where
  /-- Round S. -/
  start : Nat
  /-- The changed partitions of the old image, one bit each. -/
  changed : Nat
  /-- Sequencers that have acknowledged the epoch mark, and those that must. -/
  acked : Nat
  mustAck : Nat
  /-- The swap has started at S. -/
  live : Bool
  /-- New partitions opened, one bit each; the cleanse is complete; peaks that have cleansed. -/
  opened : Nat
  cleansed : Bool
  cleansedPeaks : Nat
  /-- The round in which the first peak cleansed. -/
  cleanseAt : Nat
  /-- max_rounds has been applied. -/
  cut : Bool
  deriving DecidableEq, Repr

/-- State of the image function. -/
structure ImageState where
  pending : Option Image
  committed : Option Image
  /-- A first commit that waits for the next round boundary (R243). -/
  firstCommit : Bool
  load : Option LoadReq
  swap : Option Swap
  /-- Committed partitions that count as absent (R256, R890), one bit each. -/
  absent : Nat
  deriving DecidableEq, Repr

end Sys2Proof.Machine
end

