-- ==== Sys2Proof/Machine/Types/Jobs.lean ====
section
/-! DEFINITION. Channels, items, jobs, leave and power: chapters "Planned Operation", "Plans and Their
Guarantees", "Channels, Items and Jobs" and "Leave, Power and Cooling". -/

namespace Sys2Proof.Machine

/-- The states of a channel (CHN_STATE.state). -/
inductive ChanSt
  | disabled | active | error | flushing | badEntry
  deriving DecidableEq, Repr

/-- A channel table entry (R559), as the hub sequencer caches it (R561). -/
structure ChanEntry where
  enable : Bool
  part : Nat
  client : Nat
  func : Nat
  port : Nat
  prioDefault : Nat
  prioMax : Nat
  sqAddr : Nat
  sqLog2 : Nat
  cqLog2 : Nat
  vector : Nat
  irq : Bool
  notices : Bool
  cqAddr : Nat
  headWb : Nat
  deriving DecidableEq, Repr

/-- A completion record or notice that is written and not yet posted (R592): its 64 bytes without the phase
bit, the job it belongs to, whether its item is quiet, and the client and function that the counts concern. -/
structure Rec where
  bytes : List Nat
  job : Option Nat
  quiet : Bool
  notice : Bool
  deriving DecidableEq, Repr

/-- State of one channel. -/
structure Channel where
  st : ChanSt
  entry : Option ChanEntry
  head : Nat
  tail : Nat
  posted : Nat
  cqHead : Nat
  nextSeq : Nat
  /-- Head at the last write-back (R574). -/
  wbHead : Nat
  /-- Written records in their order (R592). -/
  recs : List Rec
  /-- A vector is due at the next round boundary (R595); 0x090A has been recorded this round (R594). -/
  irqDue : Bool
  fullNoted : Bool
  /-- A flush asked for (op 3 or 4) or running with its tail, and its counts: jobs, items, torn. -/
  flushOp : Nat
  flushTail : Option Nat
  flushJobs : Nat
  flushItems : Nat
  flushTorn : Nat
  /-- Items read in this round (R576). -/
  readThisRound : Nat
  deriving DecidableEq, Repr

/-- What a job of the job table is doing. -/
inductive JobSt
  | read | deferred | admitted | running | stopped | held | ended
  deriving DecidableEq, Repr

/-- A job (R575 to R580, R590). -/
structure Job where
  st : JobSt
  channel : Nat
  seq : Nat
  part : Nat
  client : Nat
  func : Nat
  port : Nat
  prio : Nat
  ageRound : Nat
  tag : Nat
  quiet : Bool
  planAddr : Nat
  argBase : Nat
  /-- An inline argument block had no arena (R569): admission fails with code 0x02. -/
  noArena : Bool
  planId : Nat
  bound : Nat
  allowance : Nat
  leavePeak : Nat
  /-- Next or current phase, and the number of phases. -/
  phase : Nat
  phases : Nat
  inPhase : Bool
  /-- Booking (R58), and whether it was cut (R623). -/
  claim : Nat
  cut : Bool
  charged : Nat
  preempted : Nat
  extWait : Nat
  overruns : Nat
  voidCond : Nat
  breach : Bool
  shift : Bool
  wasDeferred : Bool
  wasStopped : Bool
  dispatched : Bool
  /-- Counted in its client's running count (R580). -/
  counted : Bool
  /-- Tiles moved by replay (R893): tile number and core it now names. -/
  moved : List (Nat × Nat)
  /-- Tiles already launched of this phase. -/
  launched : List Nat
  /-- Peaks that have started the phase, been given their shares, and drained it, one bit each. -/
  begun : Nat
  shared : Nat
  drained : Nat
  deriving DecidableEq, Repr

/-- A priority change waiting for its boundary (R586). -/
structure PrioReq where
  channel : Nat
  seq : Nat
  prio : Nat
  deriving DecidableEq, Repr

/-- State of channels and jobs. -/
structure JobState where
  channels : Table Channel
  jobs : Table Job
  /-- The job holding each partition (R583). -/
  holder : Table Nat
  prioReq : Option PrioReq
  /-- Channel invalidations: the one in progress and the one held (R922): a channel, or 4096 for all, with
  the round of acceptance. -/
  inval : Option (Nat × Nat)
  invalHeld : Option Nat
  /-- The channel last read (R576). -/
  lastRead : Nat
  /-- Dispatch and admission are stopped: a hub sequencer reset (R204). -/
  paused : Bool
  deriving DecidableEq, Repr

/-- How a draw stands. -/
inductive DrawSt
  | waiting | granted | paused
  deriving DecidableEq, Repr

/-- A draw on a half's share (R614): the unit (0 to 71 a logical core; 100 on an array activity), its pips. -/
structure Draw where
  unit : Nat
  pips : Nat
  st : DrawSt
  /-- Absolute turn of the request. -/
  since : Nat
  deriving DecidableEq, Repr

/-- Who asks the pool for leave (R614). -/
inductive PoolUser
  | hostDma (k : Nat) | ringDma (e : Nat) | tarn
  deriving DecidableEq, Repr

/-- A pool request (R619). -/
structure PoolReq where
  user : PoolUser
  pips : Nat
  granted : Bool
  deriving DecidableEq, Repr

/-- Causes of a dry stop (R641). -/
inductive DryCause
  | flow | thermal
  deriving DecidableEq, Repr

/-- State of leave, rails and cooling that is in no register. -/
structure PowerCtl where
  /-- Draws of each half in request order. -/
  draws : Table (List Draw)
  /-- Pool requests in request order. -/
  pool : List PoolReq
  /-- A dry stop with its start (island time), or a power-loss stop: units are halted. -/
  dry : Option (DryCause × Nat)
  halted : Bool
  /-- A flow dry stop whose end waits for the round boundary (R645). -/
  dryEnding : Bool
  /-- Consecutive rounds of the rail rules (R629, R631), by half. -/
  lowRun : Table Nat
  highRun : Table Nat
  /-- Canary readings by half and row (16 × half + row), 10 M steps/s. -/
  canary : Table Nat
  /-- Junction temperatures by half, and halves at or above warn since last below (R638). -/
  junction : Table Nat
  warned : List Nat
  /-- Halves that recorded 0x0A03 and 0x0A05 this round. -/
  waitNoted : List Nat
  kickNoted : List Nat
  deriving DecidableEq, Repr

end Sys2Proof.Machine
end

