-- ==== Sys2Proof/Machine/Types/Seq.lean ====
section
/-! DEFINITION. The nine sequencers: chapter "Sequencers and Microcode". A sequencer is numbered 0 to 7 for that
of a peak and 8 for the hub's. The address it executes, its state and the opcode of its command stand in
SEQ_STATE; its active bank and level in SEQ_VERSION. -/

namespace Sys2Proof.Machine

/-- A microword's fields (R655). -/
structure MicroWord where
  nxBase : Nat
  nxC0 : Nat
  nxC1 : Nat
  nxMode : Nat
  aluOp : Nat
  aluA : Nat
  aluB : Nat
  aluD : Nat
  flagsWe : Bool
  busOp : Nat
  busUnit : Nat
  busAddr : Nat
  msgOp : Nat
  msgDst : Nat
  cntOp : Nat
  hold : Bool
  trace : Nat
  lit : Nat
  rest : Nat
  deriving DecidableEq, Repr

/-- A patch body's sections (R670): words of 144 bits, and hooks as pairs of ROM and RAM address, for the hub's
and for the peaks' sequencers. -/
structure Patch where
  level : Nat
  hubWords : List Nat
  peakWords : List Nat
  hubHooks : List (Nat × Nat)
  peakHooks : List (Nat × Nat)
  deriving DecidableEq, Repr

/-- A sequencer: the RAM words of both banks (keyed bank × 4,096 + word number) and their hooks, scratch
registers, flags, counter, call stack (newest first), the words of the command that runs, of msg-in and of msg-out,
the command's result, the last bus read and whether it is done, whether msg-out was accepted and a leave reply has
arrived; the commands queued and the messages waiting; whether round work is latched; the rank of the event that the
running command serves (0: a queued command), the absolute turn and the round it began in and the turns R667 does not
count; the turn in which it was halted or began to wait on a host or a ring peer; the state a halt left; and the level
of the patch that its inactive bank holds, once it is to be made active. -/
structure SeqSt where
  ram : Table Nat
  hooks0 : List (Nat × Nat)
  hooks1 : List (Nat × Nat)
  scratch : Table Nat
  zero : Bool
  neg : Bool
  carry : Bool
  cnt : Nat
  stack : List Nat
  cmd : List Nat
  msgIn : List Nat
  msgOut : List Nat
  result : Nat
  bus : Nat
  busDone : Bool
  msgTaken : Bool
  leave : Bool
  queue : List (List Nat)
  inbox : List (List Nat)
  roundWork : Bool
  serving : Nat
  began : Nat
  beganRound : Nat
  skipped : Nat
  outside : Bool
  haltedAt : Nat
  before : Nat
  staged : Option Nat
  deriving DecidableEq, Repr

/-- The sequencers, and the patches: the one in force (none: ROM microcode), and the one being applied (R672 to
R677), with the sequencers that have to switch, one bit each. -/
structure SeqState where
  seqs : Table SeqSt
  inForce : Option Patch
  applying : Option Patch
  mustSwitch : Nat
  deriving DecidableEq, Repr

end Sys2Proof.Machine
end

