-- ==== Sys2Proof/Machine/Types/Serial.lean ====
section
/-! DEFINITION. The management serial ports: chapter "Management Serial Ports". -/

namespace Sys2Proof.Machine

/-- A UART: receive entries (character, and fe, pe, brk as bits 8, 9 and 10), transmit FIFO, the character being sent,
the line cells and the SIR pulse length (sixteenths of an island clock) of the character or LIN frame sent last, the
selector value and configuration that wait under R819, whether R818's vector has been sent for this fill, overruns and
counted bad characters of the period with their tags, UART0's received line so far and its last complete line, and the
island time until which the detector is ignored (R824). -/
structure Uart where
  rx : List Nat
  tx : List Nat
  shift : Option Nat
  cells : List Bool
  pulse : Nat
  cfg : Option (Nat × Nat)
  told : Bool
  overs : Nat
  bad : Nat
  badTags : Nat
  line : List Nat
  command : Option (List Nat)
  quiet : Nat
  deriving DecidableEq, Repr

/-- A LIN frame in progress: its slot, the slot's fields as they were, and the bytes the HX8 sends after the break. -/
structure LinFrame where
  slot : Nat
  desc : Nat
  sent : List Nat
  deriving DecidableEq, Repr

/-- The test access port: the instruction, the boundary cells as preloaded (bit 0 nearest TDO), whether EXTEST drives the
output contacts, and what MBOX's capture returns. -/
structure Tap where
  ir : Nat
  cells : Nat
  extest : Bool
  done : Bool
  refused : Bool
  data : Nat
  deriving DecidableEq, Repr

/-- State of the management serial ports: UARTs by number; the LIN frame in progress, the island time at which each slot
is next due, and whether the schedule stops when the frame ends (R834); the TAP. -/
structure SerialState where
  uarts : Table Uart
  frame : Option LinFrame
  due : Table Nat
  stopping : Bool
  tap : Tap
  deriving DecidableEq, Repr

end Sys2Proof.Machine
end

