-- ==== Sys2Proof/Machine/Types/Tarn.lean ====
section
/-! DEFINITION. Tarn: chapter "Tarn Compositor". -/

namespace Sys2Proof.Machine

/-- A layer of a pass (R776), a Scree layer with what its header gives (R785): tile table, data area and its size. -/
structure TarnLayer where
  addr : Nat
  stride : Nat
  scree : Bool
  fmt : Nat
  straight : Bool
  op : Nat
  w : Nat
  h : Nat
  dx : Int
  dy : Int
  la : Nat
  table : Nat
  data : Nat
  size : Nat
  deriving DecidableEq, Repr

/-- The pass that Tarn runs (R774): its entry, what it has read and made so far, and how it ends. -/
structure TarnPass where
  queue : Nat
  count : Nat
  /-- Address of the entry. -/
  entry : Nat
  kind : Nat
  fmt : Nat
  straight : Bool
  stream : Nat
  w : Nat
  h : Nat
  stride : Nat
  addr : Nat
  bg : List Nat
  vector : Nat
  irq : Bool
  /-- The checked layers, once every entry has been checked. -/
  layers : List TarnLayer
  checked : Bool
  /-- Lines of the system window read for this pass, by line number. -/
  lines : Table (List Nat)
  /-- Output tiles completed; the layer whose pixels are awaited. -/
  tiles : Nat
  layer : Nat
  inTile : Bool
  /-- Rows of the band being composed, and bytes composed but not yet published. -/
  band : List (List Nat)
  buf : List Nat
  /-- Scree output: tile table, data area, its size, bytes used, and the header written at the end. -/
  table : Nat
  data : Nat
  size : Nat
  used : Nat
  sealed : Bool
  /-- Leave: the pass asks for this much, holds it, and since when it is without it after a revocation (R798). -/
  pips : Nat
  granted : Bool
  leaveSince : Option Nat
  /-- The turn since which it waits for a slot of its stream (R799). -/
  slotSince : Option Nat
  cancel : Bool
  /-- give_up in force when the stream turned incomplete (R804). -/
  giveUp : Nat
  /-- Status and detail with which the pass ends. -/
  ended : Option (Nat × Nat)
  deriving DecidableEq, Repr

/-- Tarn: the running pass and the vectors to be sent at the next round boundary (R792). -/
structure TarnState where
  pass : Option TarnPass
  vectors : List Nat
  deriving DecidableEq, Repr

end Sys2Proof.Machine
end

