-- ==== Sys2Proof/Machine/State.lean ====
section
/-! DEFINITION. The state of the HX8 as plain data, its reasons to stop, and the state right after reset. -/

namespace Sys2Proof.Machine

/-- Faults of the block. No command of the table raises one: the HX8's own faults (chapter "Faults and
Degraded Operation") are effects on the state. -/
inductive Fault
  /-- Raised by no meaning; the type needs a member to be a closed inductive that is not empty. Safe. -/
  | none
  deriving DecidableEq, Repr

/-- Refusals. -/
inductive Refusal
  /-- A command whose meaning is not modelled yet; raised only by `exec`'s own arms. Safe. -/
  | notModelled (mnemonic : String)
  deriving DecidableEq, Repr

/-- The state of the HX8. -/
structure State where
  /-- The model's own counter of free values drawn (log entry 2); it is no state of the spec. -/
  free : Nat
  /-- The BAR0 register file (R4): a listed register differs from its cold-reset value. -/
  regs : Table Word
  /-- Staged low halves (R7), keyed by the offset of the _LO register; unlisted: the value in force. -/
  staged : Table Word
  /-- Register writes that wait for the next round boundary (R918), in arrival order. -/
  delayed : List (Nat × Word)
  /-- The value the last read command returned to its reader (R6, R116, R175, R816, R868, R910). -/
  answer : Nat
  mod : ModuleState
  rnd : RoundState
  boot : BootState
  store : StoreState
  fuse : FuseState
  img : ImageState
  jobs : JobState
  pwr : PowerCtl
  crn : CairnState
  flt : FaultState
  cor : CoreState
  mem : CacheState
  hst : HostState
  rng : RingState
  seq : SeqState
  trn : TarnState
  ser : SerialState
  /-- The matrix arrays by half. -/
  arr : Table ArraySt
  /-- The cols, by index of R71. -/
  cols : Table ColSt
  /-- The HBM stacks' contents (R414). -/
  hbm : Mem
  /-- Host memory as the HX8 has read or written it, keyed port × 2⁶⁴ + host address (log entry 6). -/
  host : Mem
  /-- The commands that wait, first in, first out. -/
  pending : List Instr
  deriving DecidableEq, Repr

/-- The module right after reset: cold reset on entering Standby (R176, R201). -/
def ModuleState.reset : ModuleState :=
  { power := .standby, toStandby := none, perst := true, flowOk := false, bypassReq := false, slotId := 0, slotSeen := 0,
    islandUs := 0, uvWarnRun := 0, uvTripRun := 0, ovWarnRun := 0, ovTripRun := 0, offRun := 0, coldRun := 0,
    volts := [], pips := [], tiles := 0xFFFFFF, powerLossHold := false,
    readyReq := false, dryHold := false, flowHighSince := none, holdSeconds := 0, holdWarn := 0 }

/-- The beacon stopped, no turn table written (R141). -/
def RoundState.reset : RoundState :=
  { round := 0, turn := 0, running := false, latchedHi := 0, tables := [], waiting := [], sent := [],
    charged := [], reported := [], floorOut := [], gateWait := [] }

/-- No boot runs. -/
def BootState.reset : BootState :=
  { running := false, startUs := 0, ctl := 0, attempts := [], recoveryReason := 0,
    deferred := [], active := [], imageKey := [] }

/-- An empty store (log entry 7). -/
def StoreState.reset : StoreState :=
  { mem := [], images := [], defaultImage := 0, pendingMark := [], hostCfg := [], incarnation := 0,
    vcalLog := [], writing := none, promo := none }

/-- Fuses (log entry 8). -/
def FuseState.reset : FuseState :=
  { serial := 0, keyDigest := Config.usdunDigest, coreBad := [], coreCeil := [], arrayCeil := [], vcal0 := [] }

/-- No image. -/
def ImageState.reset : ImageState :=
  { pending := none, committed := none, firstCommit := false, load := none, swap := none, absent := 0 }

/-- No channel active, no job. -/
def JobState.reset : JobState :=
  { channels := [], jobs := [], holder := [], prioReq := none, inval := none, invalHeld := none,
    lastRead := 4095, paused := false }

/-- No leave drawn. -/
def PowerCtl.reset : PowerCtl :=
  { draws := [], pool := [], dry := none, halted := false, dryEnding := false, lowRun := [], highRun := [],
    canary := [], junction := [], warned := [], waitNoted := [], kickNoted := [] }

/-- Cairns cleared (R201), the panel blank (log entry 9). -/
def CairnState.reset : CairnState :=
  { cairns := [], snap := none, streamRead := none, consoleRead := none, latched := [], conText := [],
    panelLeft := 0, panelBody := 0, panelRight := 0, drawing := none, queued := none,
    thermalStandby := false }

/-- No fault. -/
def FaultState.reset : FaultState :=
  { notices := [], records := [], latched := [], added := false, poison := [], colsFailed := 0,
    stacksFailed := 0, seqReset := [], protRound := [], fenceAtEnd := [] }

/-- No group resident. -/
def CoreState.reset : CoreState :=
  { cores := [], rowBad := [], failed := [], launches := 0, mapPending := [], isa := [], stepOk := [] }

/-- Caches empty, no message under way. -/
def CacheState.reset : CacheState :=
  { l1 := [], sets := [], dir := [], net := [], nextMsg := 0, txns := [], arb := [], tickets := [],
    nextTicket := [], readTurn := [], fwdrOut := [], releaseDue := [], wrOut := [], outReq := [], conf := [], loads := [],
    nextLoad := 0, denies := [], cutTo := [], dirEvicts := [], noted := [], stackUse := [], errors := [] }

/-- No function enumerated, nothing under way. -/
def HostState.reset : HostState :=
  { funcs := [], split := [], vfbar := [], swmCache := [], swmInval := none, swmHeld := none, reads := [],
    nextRead := 0, dma := [], streams := [], pstInval := none, pstHeld := none, bar2Out := [], retrain := 0, status := 0 }

/-- The switches closed. -/
def RingState.reset : RingState :=
  { switchesOpen := false, joining := false, duplicate := false, departing := none, departDone := false, departGot := 0,
    ports := [], members := [], seqOut := [], expected := [], answers := [], txns := [],
    queue := [], nextTag := 0, inbound := [], nextIn := 0, dma := [], census := none, sweep := 0,
    markDue := false, mboxDue := false, rx := [], loop := false,
    firstUp := none, lostNoted := [] }

/-- ROM microcode, nothing queued. -/
def SeqState.reset : SeqState := { seqs := [], inForce := none, applying := none, mustSwitch := 0 }

/-- No pass. -/
def TarnState.reset : TarnState := { pass := none, vectors := [] }

/-- Both UARTs idle, every LIN slot due, the TAP in Test-Logic-Reset (R829, R835). -/
def SerialState.reset : SerialState :=
  { uarts := [], frame := none, due := [], stopping := false,
    tap := { ir := 1, cells := 0, extest := false, done := false, refused := false, data := 0 } }

/-- The machine right after the cold reset of R176. -/
def State.reset : State :=
  { free := 0, regs := [], staged := [], delayed := [], answer := 0, mod := .reset, rnd := .reset,
    boot := .reset, store := .reset, fuse := .reset, img := .reset, jobs := .reset, pwr := .reset,
    crn := .reset, flt := .reset, cor := .reset, mem := .reset, hst := .reset, rng := .reset, seq := .reset, trn := .reset, ser := .reset,
    arr := [], cols := [], hbm := [], host := [], pending := [] }

end Sys2Proof.Machine
end

