-- ==== Sys2Proof/Machine/Ops.lean ====
section
/-! DEFINITION. The named operations over the register file, the cairns and the fault notices, which every
family uses. -/

namespace Sys2Proof.Machine

/-! ### The register file -/

/-- The register at BAR0 offset `a`, as stored. -/
def State.reg (s : State) (a : Nat) : Nat := (Map.getD s.regs a (regReset a)).toNat

/-- The register at `a` made `v`; a register at its cold-reset value is not listed. -/
def State.setReg (s : State) (a v : Nat) : State :=
  let w := BitVec.ofNat 32 v
  { s with regs := if w = regReset a then Map.erase s.regs a else Map.set s.regs a w }

/-- Field `[hi:lo]` of the register at `a`. -/
def State.fld (s : State) (a hi lo : Nat) : Nat := bits (s.reg a) hi lo

/-- Bit `i` of the register at `a`. -/
def State.flag (s : State) (a i : Nat) : Bool := bit (s.reg a) i

/-- The register at `a` with field `[hi:lo]` made `v`. -/
def State.setFld (s : State) (a hi lo v : Nat) : State := s.setReg a (putBits (s.reg a) hi lo v)

/-- The register at `a` with bit `i` made `b`. -/
def State.setFlag (s : State) (a i : Nat) (b : Bool) : State := s.setFld a i i b.toNat

/-- Field `[hi:lo]` counted up by `k`, saturating. -/
def State.addFld (s : State) (a hi lo k : Nat) : State :=
  s.setFld a hi lo (satAdd (hi + 1 - lo) (s.fld a hi lo) k)

/-- The 32-bit counter at `a` counted up by `k`, saturating. -/
def State.count (s : State) (a k : Nat) : State := s.addFld a 31 0 k

/-- A 64-bit counter held in a _LO and a _HI register. -/
def State.count64 (s : State) (lo hi k : Nat) : State :=
  let v := (s.reg lo + 2 ^ 32 * s.reg hi + k) % 2 ^ 64
  (s.setReg lo (v % 2 ^ 32)).setReg hi (v / 2 ^ 32)

/-- The 64-bit quantity in force of a register pair (R7). -/
def State.pair (s : State) (lo hi : Nat) : Nat := s.reg lo + 2 ^ 32 * s.reg hi

/-- The 64-bit quantity written into a register pair. -/
def State.setPair (s : State) (lo hi v : Nat) : State :=
  (s.setReg lo (v % 2 ^ 32)).setReg hi (v / 2 ^ 32 % 2 ^ 32)

/-! ### Time -/

/-- The absolute turn: 128 turns to a round (R127). -/
def State.absTurn (s : State) : Nat := s.rnd.round * 128 + s.rnd.turn

/-- The time a cairn entry carries: round and turn, or island time while the beacon is stopped (R850,
R853). -/
def State.stamp (s : State) : Nat := if s.rnd.running then s.absTurn else s.mod.islandUs

/-- RND_EPOCH.swap: old and new turn tables are both live. -/
def State.inSwap (s : State) : Bool := s.flag R.rndEpoch 16

/-! ### Cairns (R849 to R860) -/

/-- An empty cairn. -/
def Cairn.empty : Cairn :=
  { entries := [], turn := 0, accepted := 0, dropped := 0, dropRound := 0, gap := false, frozenDrop := 0 }

/-- The cairn of die `d`. -/
def State.cairn (s : State) (d : Nat) : Cairn := Map.getD s.crn.cairns d Cairn.empty

/-- The state with the cairn of die `d` replaced. -/
def State.setCairn (s : State) (d : Nat) (c : Cairn) : State :=
  { s with crn := { s.crn with cairns := Map.set s.crn.cairns d c } }

/-- Entries a cairn holds (R849). -/
def cairnCap (d : Nat) : Nat := if d = 8 then 16384 else 4096

/-- Entries a cairn accepts in one turn (R854). -/
def cairnRate (d : Nat) : Nat := if d = 8 then 4 else 2

/-- The fields of a payload packed in order, a field that would pass byte 16 left out (R851, R852), and
whether one was left out. -/
def packPayload (fs : List (Nat × Nat)) : List Nat × Bool :=
  let r := fs.foldl (fun (acc : List Nat × Bool) f =>
    if acc.2 || 16 < acc.1.length + f.1 then (acc.1, true) else (acc.1 ++ leBytes f.1 f.2, false)) ([], false)
  (padTo 16 r.1, r.2)

/-- The code of case `k` in an event's payload where no table numbers the cases (log entry 13). -/
def evCode (event k : Nat) : Nat := Config.eventCode event k % 256

/-- Whether CRN_CLASS records a class; classes 1, 0x0B, 0x11 and 0x12 always are (R855). -/
def State.classOn (s : State) (code : Nat) : Bool :=
  let c := code / 256
  c == 1 || c == 0x0B || c == 0x11 || c == 0x12 || bit (s.reg R.crnClass) c

/-- A cairn with an entry appended; the oldest goes when it is full (R849). -/
def Cairn.push (c : Cairn) (cap : Nat) (e : CairnEntry) : Cairn :=
  { c with entries := lastK cap (c.entries ++ [e]) }

/-- Flags of an entry: island time, sequencer, gap, trunc (R850). -/
def entryFlags (island seq gap trunc : Bool) : Nat :=
  island.toNat + 2 * seq.toNat + 4 * gap.toNat + 8 * trunc.toNat

/-- The entry an event makes. -/
def State.entry (s : State) (die half code uctx : Nat) (seq : Bool) (fs : List (Nat × Nat)) : CairnEntry :=
  { code := code, source := die % 16 + 16 * (half % 2),
    flags := entryFlags (!s.rnd.running) seq false (packPayload fs).2,
    uctx := uctx, time := s.stamp, payload := (packPayload fs).1 }

/-- The cairn that die `d` has before its next acceptance: event 0x1104 first when entries were discarded
in an earlier round (R854). -/
def State.toldDrops (s : State) (d : Nat) (c : Cairn) : Cairn :=
  if 0 < c.dropped && (c.dropRound < s.rnd.round || !s.rnd.running) then
    { c.push (cairnCap d) { s.entry d 0 0x1104 0 false [(1, d), (4, c.dropped)] with
        flags := entryFlags (!s.rnd.running) false c.gap false } with
      dropped := 0, gap := false, accepted := c.accepted + 1 }
  else c

/-- An entry offered to the cairn of die `d`: discarded while frozen (R860), discarded past the rate of
R854, or accepted. `spread` is for a command that records over many turns: the rate does not bind it
(log entry 12). -/
def State.offer (s : State) (d : Nat) (e : CairnEntry) (spread : Bool) : State :=
  let c := s.cairn d
  if s.flag R.crnStatus 0 then
    (s.setCairn d { c with frozenDrop := c.frozenDrop + 1 }).count (R.crnFrozen d) 1
  else
    let now := s.absTurn
    let c := if c.turn = now then c else { c with turn := now, accepted := 0 }
    if s.rnd.running && !spread && decide (cairnRate d ≤ c.accepted) then
      (s.setCairn d { c with dropped := (if c.dropRound = s.rnd.round then c.dropped else 0) + 1,
                             dropRound := s.rnd.round, gap := true }).count (R.crnDrop d) 1
    else
      let c1 := s.toldDrops d c
      let told := c1.entries.length != c.entries.length || c1.dropped != c.dropped
      let e := { e with flags := if c1.gap then putBit e.flags 2 true else e.flags }
      (s.setCairn d { c1.push (cairnCap d) e with gap := false, accepted := c1.accepted + 1 }).count
        (R.crnCnt d) (if told then 2 else 1)

/-- An event of die `die` (8 the hub) and half (0 A, 1 B): recorded in that die's cairn unless its class is
off (R853, R855). -/
def State.event (s : State) (die half code : Nat) (fs : List (Nat × Nat)) : State :=
  if s.classOn code then s.offer die (s.entry die half code 0 false fs) false else s

/-- An event of a hub unit or the island. -/
def State.hubEvent (s : State) (code : Nat) (fs : List (Nat × Nat)) : State := s.event 8 0 code fs

/-- An event of a physical half 0 to 15. -/
def State.halfEvent (s : State) (h code : Nat) (fs : List (Nat × Nat)) : State :=
  s.event (h / 2) (h % 2) code fs

/-- An event that the hub records in the course of a step that lasts many turns. -/
def State.slowEvent (s : State) (code : Nat) (fs : List (Nat × Nat)) : State :=
  if s.classOn code then s.offer 8 (s.entry 8 0 code 0 false fs) true else s

/-- An event that sequencer `d` records (R678): uaddr, bank and patch level in uctx. -/
def State.seqEvent (s : State) (d code : Nat) (fs : List (Nat × Nat)) : State :=
  let u := s.fld (R.seqState d) 12 0 + (s.flag (R.seqVersion d) 24).toNat * 2 ^ 15 +
    s.fld (R.seqVersion d) 15 0 * 2 ^ 16
  if s.classOn code then s.offer d (s.entry d 0 code u true fs) false else s

/-! ### Snapshots in the store (R861 to R867, R923) -/

/-- Store address of snapshot slot `i` (R861). -/
def snapBase (i : Nat) : Nat := 0x02100000 + i * 0x00200000

/-- Slot `i` holds a valid snapshot (R923). -/
def snapValid (m : Mem) (i : Nat) : Bool :=
  let b := snapBase i
  Mem.readLE m b 4 == 0x504E5343 && Mem.readLE m (b + 4) 2 == 1 && Mem.readLE m (b + 6) 2 == 256 &&
  Mem.readLE m (b + 0xFC) 4 == crc32 (Mem.readBytes m b 0xFC) &&
  Mem.readLE m (b + 0x38) 4 == crc32 (Mem.readBytes m (b + 0x1000) 0x180000)

/-- The snapshot number a slot's header holds. -/
def snapNumber (m : Mem) (i : Nat) : Nat := Mem.readLE m (snapBase i + 8) 4

/-- The slots that hold a valid snapshot, ascending (CRN_VALID). -/
def validSlots (m : Mem) : List Nat := (List.range 8).filter (snapValid m)

/-- The highest snapshot number in the store; 0 in an empty one. -/
def topSnapshot (m : Mem) : Nat := (validSlots m).foldl (fun t i => max t (snapNumber m i)) 0

/-- The slot a snapshot is written into (R861): the lowest unpinned slot with no valid snapshot, otherwise
the unpinned slot with the lowest number. -/
def pickSlot (m : Mem) (pin : Nat) : Nat :=
  let free := (List.range 8).filter fun i => !bit pin i
  match free.find? (fun i => !snapValid m i) with
  | some i => i
  | none =>
    match free with
    | [] => 7
    | i :: is => is.foldl (fun b j => if snapNumber m j < snapNumber m b then j else b) i

/-- The cairns freeze on trigger `bitNo` whose event is `code` (R858, R859): 0x1101 is the hub cairn's last
entry, and the snapshot starts: the mark is set and the slot's magic zeroed (R862 step 1). While a snapshot
is being written the trigger is only added to its header (R865). -/
def State.freeze (s : State) (bitNo code : Nat) : State :=
  match s.crn.snap with
  | some sn => { s with crn := { s.crn with snap := some { sn with triggers := putBit sn.triggers bitNo true } } }
  | none =>
    let s := s.slowEvent 0x1101 [(1, bitNo), (2, code)]
    let slot := pickSlot s.store.mem (s.fld R.crnPin 7 0)
    let num := topSnapshot s.store.mem + 1
    let m := Mem.writeLE s.store.mem 0x000F1004 4 (slot + 1)
    let m := Mem.writeLE m (snapBase slot) 4 0
    let s := { s with store := { s.store with mem := m } }
    let s := { s with crn := { s.crn with snap := some { slot := slot, number := num, code := code, triggers := putBit 0 bitNo true, round := if s.rnd.running then s.rnd.round else 0, us := s.mod.islandUs } } }
    (s.setFlag R.crnStatus 0 true).setFlag R.crnStatus 1 true

/-- An event that a unit records once a round. -/
def State.oncePerRound (s : State) (code unit : Nat) (f : State → State) : State :=
  let k := code * 4096 + unit
  if Map.get? s.mem.noted k = some (s.rnd.round + 1) then s
  else { f s with mem := { (f s).mem with noted := Map.set (f s).mem.noted k (s.rnd.round + 1) } }

/-- A BAR0 offset that is none of the cairns' counters of the nine dies: every event may count in those. -/
def notCairnCount (a : Nat) : Prop := a < 0x50100 ∨ 0x501A4 ≤ a

/-! ### Fault notices (R886) -/

/-- A unit fault is detected: 0x1201 is recorded and a notice goes to the hub sequencer. The payload of
0x1201 is unit kind, die, unit byte and partitions; with CRN_CFG.on_fault the cairns freeze (R858). -/
def State.notice (s : State) (n : Notice) : State :=
  let s := if n.kind = 12 then s else s.event n.die (n.half % 2) 0x1201 [(1, n.kind), (1, n.die), (1, n.unit), (2, n.parts)]
  let s := if n.kind != 12 && s.flag R.crnCfg 0 then s.freeze 5 n.code else s
  { s with flt := { s.flt with notices := s.flt.notices ++ [{ n with cfg := s.reg R.fltCfg }] } }

/-- The partition records in force: those of the committed image; in a swap, the new partitions that have
opened come first, and an old one whose number has opened again is gone (R250). -/
def State.partTable (s : State) : List PartRec :=
  match s.img.committed with
  | none => []
  | some im =>
    match s.img.swap, s.img.pending with
    | some sw, some nw =>
      if sw.live then
        (nw.parts.filter fun p => bit sw.opened p.part) ++ (im.parts.filter fun p => !bit sw.opened p.part)
      else im.parts
    | _, _ => im.parts

/-- The partition that holds physical half `h`. -/
def State.partOfHalf (s : State) (h : Nat) : Option Nat :=
  (s.partTable.find? fun p => p.halves.contains h).map (·.part)

/-- The record of partition `p`. -/
def State.partRec (s : State) (p : Nat) : Option PartRec := s.partTable.find? fun r => r.part == p

/-- The mask of the partitions that hold a half meeting `f`. -/
def State.partsHolding (s : State) (f : Nat → Bool) : Nat :=
  maskOf ((s.partTable.filter fun p => p.halves.any f).map (·.part))

/-- The job that holds partition `p`. -/
def State.holderOf (s : State) (p : Nat) : Option Nat := Map.get? s.jobs.holder p

/-- Job `j` changed by `f`. -/
def State.modJob (s : State) (j : Nat) (f : Job → Job) : State :=
  { s with jobs := { s.jobs with jobs := Map.modify s.jobs.jobs j f } }

/-- Condition `c` of R29 fails for job `j`: the first failed condition stands (R31). -/
def State.voidJob (s : State) (j c : Nat) : State :=
  s.modJob j fun x => if x.voidCond = 0 then { x with voidCond := c } else x

/-- Condition `c` fails for the job that holds partition `p`. -/
def State.voidPart (s : State) (p c : Nat) : State :=
  match s.holderOf p with
  | some j => s.voidJob j c
  | none => s

/-- Condition `c` fails for every job that holds a partition. -/
def State.voidAll (s : State) (c : Nat) : State :=
  s.jobs.holder.foldl (fun s q => s.voidJob q.2 c) s

/-- The units of the HX8 run: no dry stop, power-loss stop or fatal fault has halted them, and the module is
in Ready or Run. -/
def State.unitsRun (s : State) : Bool :=
  !s.pwr.halted && !s.flag R.fltStatus 0 && (s.mod.power == .ready || s.mod.power == .run)

/-- A change made only while the units run. -/
def State.whenRun (s : State) (f : State → State) : State := if s.unitsRun then f s else s

/-- A sequencer executes: it is neither halted, nor in reset, nor faulted (SEQ_STATE). -/
def State.seqRuns (s : State) (d : Nat) : Bool := s.fld (R.seqState d) 15 13 < 3

/-- A change that a sequencer's command makes: while the units run and the sequencer executes. -/
def State.whenSeq (s : State) (d : Nat) (f : State → State) : State := if s.unitsRun && s.seqRuns d then f s else s

/-- A sequencer at a command boundary that has done nothing. -/
def SeqSt.empty : SeqSt :=
  { ram := [], hooks0 := [], hooks1 := [], scratch := [], zero := false, neg := false, carry := false, cnt := 0,
    stack := [], cmd := [0, 0, 0, 0], msgIn := [0, 0, 0, 0], msgOut := [0, 0, 0, 0], result := 0, bus := 0,
    busDone := true, msgTaken := true, leave := false, queue := [], inbox := [], roundWork := false, serving := 0,
    began := 0, beganRound := 0, skipped := 0, outside := false, haltedAt := 0, before := 0, staged := none }

/-- Sequencer `d`. -/
def State.seqSt (s : State) (d : Nat) : SeqSt := Map.getD s.seq.seqs d SeqSt.empty

/-- Sequencer `d` replaced. -/
def State.setSeq (s : State) (d : Nat) (x : SeqSt) : State :=
  { s with seq := { s.seq with seqs := Map.set s.seq.seqs d x } }

/-- Turns in which every sequencer was halted: R667 does not count them. -/
def State.seqSkip (s : State) (k : Nat) : State :=
  { s with seq := { s.seq with seqs := Map.mapVals s.seq.seqs fun _ x => { x with skipped := x.skipped + k } } }

/-- A reply about leave has reached a sequencer (condition 11 of R657). -/
def State.leaveReply (s : State) (d : Nat) : State :=
  match Map.get? s.seq.seqs d with
  | some x => s.setSeq d { x with leave := true }
  | none => s

/-- Half `h` halts under JTAG (R842); the job holding its partition fails condition 6 (R844). -/
def State.haltHalf (s : State) (h : Nat) : State :=
  let s := s.setFlag R.jtgState h true
  match s.partOfHalf h with
  | some p => s.voidPart p 6
  | none => s

/-- A draw of a free value: the value of the model's counter, which moves on. -/
def State.drawn (s : State) : State := { s with free := s.free + 1 }

end Sys2Proof.Machine
end

