-- ==== Sys2Proof/Machine/Leave.lean ====
section
/-! DEFINITION. Leave: the limit in force, effective budgets, phase grants and half shares, draws, and the
pool (R605 to R626). -/

namespace Sys2Proof.Machine

/-- The conversion capacity (R89): the lower of 2,800 pips and 64 W per working tile. -/
def convCap (tiles : Nat) : Nat := min 2800 (popCount 24 tiles * 128)

/-- L: the lower of PWR_LIMIT.pips and the conversion capacity (R605). -/
def State.limitNow (s : State) : Nat := min (s.fld R.pwrLimit 11 0) (s.fld R.glbConvCap 12 0)

/-- L in force, as PWR_STATE shows it. -/
def State.limit (s : State) : Nat := s.fld R.pwrState 11 0

/-- PWR_STATE.limit and .capped follow PWR_LIMIT and the conversion capacity (R90, R621). -/
def State.applyLimit (s : State) : State :=
  (s.setFld R.pwrState 11 0 s.limitNow).setFlag R.pwrState 12
    (decide (s.fld R.glbConvCap 12 0 < s.fld R.pwrLimit 11 0))

/-- The sum of budget_pips of an image. -/
def Image.budgets (im : Image) : Nat := (im.parts.map (·.budget)).sum

/-- Effective budget of a budget `b` in an image whose budgets add up to `t`, at limit `l` (R608). -/
def effBudget (l t b : Nat) : Nat := if t ≤ l - 400 then b else b * (l - 400) / t

/-- The partitions of an image as a mask. -/
def Image.mask (im : Image) : Nat := maskOf (im.parts.map (·.part))

/-- Partition `p` of the old image is held or idle in the swap (R247, R34): its job stands at a point, or
none holds it. -/
def State.heldOrIdle (s : State) (p : Nat) : Bool := (s.holderOf p).isNone

/-- Live partitions of R610 with their records: those of the committed image outside a swap; in a swap the
old ones neither held nor idle, and the opened new ones. -/
def State.liveParts (s : State) : List (PartRec × Nat) :=
  match s.img.committed with
  | none => []
  | some im =>
    match s.img.swap with
    | none => im.parts.map fun p => (p, im.budgets)
    | some sw =>
      if sw.live then
        ((im.parts.filter fun p =>
            !bit sw.opened p.part && !(bit sw.changed p.part && s.heldOrIdle p.part)).map
          fun p => (p, im.budgets)) ++
        (match s.img.pending with
         | none => []
         | some nw => (nw.parts.filter fun p => bit sw.opened p.part).map fun p => (p, nw.budgets))
      else im.parts.map fun p => (p, im.budgets)

/-- Effective budget of partition `p` (R608, R609). -/
def State.eff (s : State) (p : Nat) : Nat := s.fld (R.pwrPart p) 11 0

/-- Capacity, effective budgets and pool size recomputed for L in force (R607, R608, R610). -/
def State.recompute (s : State) : State :=
  let l := s.limit
  let live := s.liveParts
  let s := (List.range 16).foldl (fun s p =>
    s.setFld (R.pwrPart p) 11 0
      (match live.find? fun q => q.1.part == p with
       | some q => effBudget l q.2 q.1.budget
       | none => 0)) s
  let sum := (live.map fun q => effBudget l q.2 q.1.budget).sum
  let s := (s.setFld R.pwrCap 11 0 (l - 400)).setFld R.pwrCap 23 12 (min sum 4095)
  s.setFld R.pwrPool 11 0 (l - 400 - sum)

/-- The opened partitions that R611 holds: in number order, those whose effective budget added to those of
the live partitions before them passes the capacity. -/
def State.leaveHolds (s : State) : State :=
  match s.img.swap with
  | none => (List.range 16).foldl (fun s p => s.setFlag (R.pwrPart p) 25 false) s
  | some sw =>
    let others := (s.liveParts.filter fun q => !bit sw.opened q.1.part).map fun q => s.eff q.1.part
    let r := (List.range 16).foldl (fun (acc : State × Nat) p =>
      if bit sw.opened p then
        if acc.2 + s.eff p ≤ s.limit - 400 then (acc.1.setFlag (R.pwrPart p) 25 false, acc.2 + s.eff p)
        else (acc.1.setFlag (R.pwrPart p) 25 true, acc.2)
      else (acc.1.setFlag (R.pwrPart p) 25 false, acc.2)) (s, others.sum)
    r.1

/-! ### Shares and draws -/

/-- The draws of half `h` in request order. -/
def State.drawsOf (s : State) (h : Nat) : List Draw := Map.getD s.pwr.draws h []

/-- What the granted draws of a half add up to. -/
def drawnTotal (l : List Draw) : Nat :=
  ((l.filter fun d => d.st == .granted).map (·.pips)).sum

/-- The draws of half `h` replaced; GOV_SHARE.drawn and GOV_PAUSE.now follow. -/
def State.setDraws (s : State) (h : Nat) (l : List Draw) : State :=
  let s := { s with pwr := { s.pwr with draws := if l = [] then Map.erase s.pwr.draws h else Map.set s.pwr.draws h l } }
  let s := s.setFld (R.govShare h) 23 12 (drawnTotal l)
  s.setFld (R.govPause h) 7 0 (l.filter fun d => d.st == .paused).length

/-- The share of half `h` (R613). -/
def State.shareOf (s : State) (h : Nat) : Nat := s.fld (R.govShare h) 11 0

/-- Share of logical half `i` of `n` in a phase grant `g` (R613). -/
def shareSplit (g n i : Nat) : Nat := g / n + (if i < g % n then 1 else 0)

/-- The phase grant `g` of partition `p` set, and split over its halves (R612, R613). -/
def State.grantPhase (s : State) (p g : Nat) : State :=
  let s := s.setFld (R.pwrGrant p) 11 0 g
  match s.partRec p with
  | none => s
  | some r =>
    (r.halves.zipIdx).foldl (fun s hi => s.setFld (R.govShare hi.1) 11 0 (shareSplit g r.halves.length hi.2)) s

/-- A draw asked of the governor of half `h` (R615): granted in the step when it fits the share and nothing
waits, otherwise waiting; a draw that waits fails condition 3 (R617) and is event 0x0A03 once a round. -/
def State.requestDraw (s : State) (h unit pips : Nat) : State :=
  let l := s.drawsOf h
  let waits := l.any fun d => d.st == .waiting || d.st == .paused
  if !waits && drawnTotal l + pips ≤ s.shareOf h && !s.pwr.halted then
    s.setDraws h (l ++ [{ unit := unit, pips := pips, st := .granted, since := s.absTurn }])
  else
    let s1 := s.setDraws h (l ++ [{ unit := unit, pips := pips, st := .waiting, since := s.absTurn }])
    let s1 := match s1.partOfHalf h with
      | some p => s1.voidPart p 3
      | none => s1
    if s1.pwr.waitNoted.contains h then s1
    else { s1.halfEvent h 0x0A03 [(1, h), (4, drawnTotal l + pips - s.shareOf h)] with
             pwr := { s1.pwr with waitNoted := h :: s1.pwr.waitNoted } }

/-- The first waiting or paused draw of half `h` is granted when the share covers it (R615, R623). -/
def State.grantNext (s : State) (h : Nat) : State :=
  let l := s.drawsOf h
  match takeFirst (fun d => d.st == .paused) l, takeFirst (fun d => d.st == .waiting) l with
  | some (d, _), _ =>
    if drawnTotal l + d.pips ≤ s.shareOf h && !s.pwr.halted then
      s.setDraws h (l.map fun x => if x = d then { x with st := .granted } else x)
    else s
  | none, some (d, _) =>
    if drawnTotal l + d.pips ≤ s.shareOf h && !s.pwr.halted then
      (s.setDraws h (l.map fun x => if x = d then { x with st := .granted } else x)).count
        (R.govWait h) (s.absTurn - d.since)
    else s
  | none, none => s

/-- The draw of a unit on half `h` ends (R614). -/
def State.releaseDraw (s : State) (h unit : Nat) : State :=
  s.setDraws h ((s.drawsOf h).filter fun d => d.unit != unit)

/-- Whether the draw of a unit is granted. -/
def State.drawGranted (s : State) (h unit : Nat) : Bool :=
  (s.drawsOf h).any fun d => d.unit == unit && d.st == .granted

/-- The youngest granted draws of a half are paused until the total fits its share (R623). -/
def pauseTo (share : Nat) : List Draw → List Draw
  | [] => []
  | d :: ds =>
    if d.st == .granted then
      if d.pips ≤ share then d :: pauseTo (share - d.pips) ds
      else { d with st := .paused } :: ds.map fun x => if x.st == .granted then { x with st := .paused } else x
    else d :: pauseTo share ds

/-- Half `h` pauses its youngest draws until its drawn total fits its share; GOV_PAUSE.total counts. -/
def State.pauseHalf (s : State) (h : Nat) : State :=
  let l := s.drawsOf h
  let l' := pauseTo (s.shareOf h) l
  let k := (l'.filter fun d => d.st == .paused).length - (l.filter fun d => d.st == .paused).length
  if l' = l then s else (s.setDraws h l').addFld (R.govPause h) 31 8 k

/-! ### The pool -/

/-- Pool leave granted. -/
def poolGranted (l : List PoolReq) : Nat := ((l.filter (·.granted)).map (·.pips)).sum

/-- The pass that Tarn runs changed. -/
def State.setPass (s : State) (p : TarnPass) : State := { s with trn := { s.trn with pass := some p } }

/-- The running pass ends; the first end stands. -/
def State.tarnEnd (s : State) (status detail : Nat) : State :=
  match s.trn.pass with
  | some p => if p.ended.isSome then s else s.setPass { p with ended := some (status, detail) }
  | none => s

/-- What a change of the pool brings Tarn: its grant, with the turns it halted counted, or the loss of it (R798). A
revoked request that is refused ends the pass with status 9. -/
def State.tarnLeave (s : State) : State :=
  match s.trn.pass with
  | none => s
  | some p =>
    if !p.granted && p.leaveSince.isNone then
      if s.pwr.pool.any fun r => r.user == .tarn && r.granted then s.setPass { p with granted := true } else s
    else
      match s.pwr.pool.find? fun r => r.user == .tarn with
      | none => (s.setPass { p with granted := false, leaveSince := none }).tarnEnd 9 0
      | some r =>
        if r.granted then
          let s := match p.leaveSince with
            | some t => s.count R.trnLeaveWait (s.absTurn - t)
            | none => s
          s.setPass { p with granted := true, leaveSince := none }
        else if p.granted then s.setPass { p with granted := false, leaveSince := if s.pwr.halted then none else some s.absTurn }
        else s

/-- The pool's requests replaced; PWR_POOL.granted and .waiting follow. -/
def State.setPool (s : State) (l : List PoolReq) : State :=
  let s := { s with pwr := { s.pwr with pool := l } }.tarnLeave
  (s.setFld R.pwrPool 23 12 (poolGranted l)).setFld R.pwrPool 31 24
    (min 255 (l.filter fun r => !r.granted).length)

/-- The pool size. -/
def State.poolSize (s : State) : Nat := s.fld R.pwrPool 11 0

/-- Which requester a pool user is: 0 to 7 a host DMA engine, 8 to 15 a ring DMA engine, 16 Tarn. -/
def PoolUser.code : PoolUser → Nat
  | .hostDma k => k
  | .ringDma e => 8 + e
  | .tarn => 16

/-- A refused request is recorded (R620). -/
def State.poolRefused (s : State) (u : PoolUser) (pips : Nat) : State :=
  (s.hubEvent 0x0A04 [(1, evCode 0x0A04 u.code), (4, pips)]).setFlag R.pwrEvent 1 true

/-- A pool request: refused at once when larger than the pool (R620), otherwise it waits its turn. The
answer says whether it stands. -/
def State.poolRequest (s : State) (u : PoolUser) (pips : Nat) : State × Bool :=
  if s.poolSize < pips then
    (s.poolRefused u pips, false)
  else (s.setPool (s.pwr.pool ++ [{ user := u, pips := pips, granted := false }]), true)

/-- The oldest waiting pool request is granted when the pool covers it (R619) and the hot hold (R639) is
off. -/
def State.poolGrantNext (s : State) : State :=
  match takeFirst (fun r => !r.granted) s.pwr.pool with
  | none => s
  | some (r, _) =>
    if poolGranted s.pwr.pool + r.pips ≤ s.poolSize && !s.flag R.pwrState 15 && !s.pwr.halted then
      s.setPool (s.pwr.pool.map fun x => if x = r then { x with granted := true } else x)
    else s

/-- Whether a user holds pool leave. -/
def State.poolHas (s : State) (u : PoolUser) : Bool := s.pwr.pool.any fun r => r.user == u && r.granted

/-- A user's pool leave or request ends. -/
def State.poolRelease (s : State) (u : PoolUser) : State :=
  s.setPool (s.pwr.pool.filter fun r => r.user != u)

/-- Grants revoked youngest first until they fit `size`; a revoked user asks again behind the waiting ones,
or is refused where the request passes the pool (R623). -/
def revokeTo (size : Nat) (l : List PoolReq) : List PoolReq :=
  let g := l.filter (·.granted)
  let keep := g.foldl (fun (acc : List PoolReq × Nat) r =>
    if acc.2 + r.pips ≤ size && acc.2 < 1000000 then (acc.1 ++ [r], acc.2 + r.pips)
    else (acc.1, 1000000)) ([], 0)
  let out := g.filter fun r => !keep.1.contains r
  keep.1 ++ (l.filter fun r => !r.granted) ++
    ((out.filter fun r => r.pips ≤ size).map fun r => { r with granted := false })

/-! ### A change of L (R623 to R626) -/

/-- The booking of the job that holds partition `p` cut to the new effective budget, and its phase grant
with it (R623); 0x0A02 and PWR_EVENT.revoke, and condition 3 fails. -/
def State.cutBooking (s : State) (p : Nat) : State :=
  match s.holderOf p with
  | none => s
  | some j =>
    match Map.get? s.jobs.jobs j with
    | none => s
    | some job =>
      let e := s.eff p
      if e < job.claim then
        let s := s.hubEvent 0x0A02 [(1, p), (2, job.claim), (2, e)]
        let s := (s.modJob j fun x => { x with claim := e, cut := true }).voidJob j 3
        let s := ((s.setFld (R.pwrPart p) 23 12 e).setFlag (R.pwrPart p) 24 true).setFlag R.pwrEvent 0 true
        let g := min (s.fld (R.pwrGrant p) 11 0) e
        let s := s.grantPhase p g
        match s.partRec p with
        | some r => r.halves.foldl State.pauseHalf s
        | none => s
      else s

/-- Everything a change of L brings (R623, R626). -/
def State.limitChanged (s : State) (old : Nat) : State :=
  let s := s.recompute
  let new := s.limit
  let s := s.hubEvent 0x0A01 [(2, old), (2, new), (1, if s.flag R.pwrState 12 then 1 else 0)]
  if new < old then
    let size := s.poolSize
    let refused := (s.pwr.pool.filter fun r => r.granted && decide (size < r.pips))
    let s := s.setPool (revokeTo size s.pwr.pool)
    let s := refused.foldl (fun s r => s.poolRefused r.user r.pips) s
    (List.range 16).foldl State.cutBooking s
  else s

/-- All leave is revoked (R642): every drawn total is 0. The draws stand as paused, the pool's requests as
waiting, so that they may be granted again (R645). -/
def State.revokeAll (s : State) : State :=
  let s := (List.range 16).foldl (fun s h =>
    s.setDraws h ((s.drawsOf h).map fun d => if d.st == .granted then { d with st := .paused } else d)) s
  let s := { s with pwr := { s.pwr with halted := true } }
  s.setPool (s.pwr.pool.map fun r => { r with granted := false })

/-! ### Tarn's grant while it waits for a stream slot (R799) -/

/-- Tarn asks for its leave again; a refusal ends the pass with status 9. -/
def State.tarnAsk (s : State) (p : TarnPass) : State :=
  match (s.setPass p).poolRequest .tarn p.pips with
  | (s, true) => s.setPass { p with leaveSince := some s.absTurn }
  | (s, false) => s.tarnEnd 9 0

/-- A slot of Tarn's stream is free: the turns of the wait are counted, and the grant is asked for. -/
def State.tarnSlot (s : State) : State :=
  match s.trn.pass with
  | none => s
  | some p =>
    match p.slotSince with
    | none => s
    | some t => (s.count R.trnStreamWait (s.absTurn - t)).tarnAsk { p with slotSince := none }

/-- No slot is free: the grant is released, and the wait recorded once (event 0x0F05). -/
def State.tarnStall (s : State) (page : Nat) : State :=
  match s.trn.pass with
  | none => s
  | some p =>
    if p.slotSince.isSome then s
    else
      let s := s.setPass { p with granted := false, leaveSince := none, slotSince := some s.absTurn }
      (s.poolRelease .tarn).hubEvent 0x0F05 [(1, p.stream), (4, page)]

end Sys2Proof.Machine
end

