-- ==== Sys2Proof/Machine/Jobs.lean ====
section
/-! DEFINITION. Channels, jobs and completion records: the operations that other families use (R559 to R603).
-/

namespace Sys2Proof.Machine

/-- A channel that is disabled and holds nothing. -/
def Channel.none : Channel :=
  { st := .disabled, entry := Option.none, head := 0, tail := 0, posted := 0, cqHead := 0, nextSeq := 0, wbHead := 0,
    recs := [], irqDue := false, fullNoted := false, flushOp := 0, flushTail := Option.none, flushJobs := 0,
    flushItems := 0, flushTorn := 0, readThisRound := 0 }

/-- Channel `c`. -/
def State.chan (s : State) (c : Nat) : Channel := Map.getD s.jobs.channels c Channel.none

/-- Channel `c` replaced. -/
def State.setChan (s : State) (c : Nat) (x : Channel) : State :=
  { s with jobs := { s.jobs with channels := Map.set s.jobs.channels c x } }

/-- The code of a channel state in CHN_STATE. -/
def ChanSt.code : ChanSt → Nat
  | .disabled => 0 | .active => 1 | .error => 2 | .flushing => 3 | .badEntry => 4

/-- Job `j`, if the table holds it. -/
def State.job? (s : State) (j : Nat) : Option Job := Map.get? s.jobs.jobs j

/-- A job as its item is read (R575, R577, R578). -/
def Job.fresh (ch seq part client func port prio round tag : Nat) (quiet : Bool) (plan arg : Nat)
    (noArena : Bool) : Job :=
  { st := .read, channel := ch, seq := seq, part := part, client := client, func := func, port := port,
    prio := prio, ageRound := round, tag := tag, quiet := quiet, planAddr := plan, argBase := arg,
    noArena := noArena, planId := 0, bound := 0, allowance := 0, leavePeak := 0, phase := 0, phases := 0,
    inPhase := false, claim := 0, cut := false, charged := 0, preempted := 0, extWait := 0, overruns := 0,
    voidCond := 0, breach := false, shift := false, wasDeferred := false, wasStopped := false,
    dispatched := false, counted := false, moved := [], launched := [], begun := 0,
    shared := 0, drained := 0 }

/-- The age of a job (R577): smaller is older. -/
def Job.older (a b : Job) : Bool :=
  a.ageRound < b.ageRound || (a.ageRound == b.ageRound &&
    (a.channel < b.channel || (a.channel == b.channel && a.seq < b.seq)))

/-- Whether job `a` goes before job `b`: higher priority, then older (R583). -/
def Job.before (a b : Job) : Bool := b.prio < a.prio || (a.prio == b.prio && a.older b)

/-- The first of a list of jobs under an order. -/
def firstJob (lt : Job → Job → Bool) : List (Nat × Job) → Option (Nat × Job)
  | [] => none
  | x :: xs =>
    match firstJob lt xs with
    | none => some x
    | some y => if lt y.2 x.2 then some y else some x

/-- The jobs that meet `p`. -/
def State.jobsWhere (s : State) (p : Job → Bool) : List (Nat × Job) := s.jobs.jobs.filter fun q => p q.2

/-- The 64 bytes of a completion record without its phase bit (R590). -/
def recordBytes (kind status seq code flags void tag planId charged preempted ext part prio job endRound : Nat)
    (detail : List Nat) : List Nat :=
  leBytes 1 kind ++ leBytes 1 status ++ leBytes 2 seq ++ leBytes 1 code ++ leBytes 1 flags ++ leBytes 1 void ++
  leBytes 1 0 ++ leBytes 8 tag ++ leBytes 8 planId ++ leBytes 4 charged ++ leBytes 4 preempted ++
  leBytes 4 ext ++ leBytes 1 part ++ leBytes 1 prio ++ leBytes 2 job ++ leBytes 8 endRound ++ padTo 16 detail

/-- The flags byte of a job's record (R590). -/
def Job.flags (x : Job) : Nat :=
  (x.voidCond != 0).toNat + 2 * x.breach.toNat + 4 * x.shift.toNat + 8 * x.wasDeferred.toNat +
    16 * x.wasStopped.toNat

/-- The record of job `j` with a status, check code and detail. -/
def Job.record (x : Job) (j kind status code round : Nat) (detail : List Nat) : Rec :=
  { bytes := recordBytes kind status x.seq code x.flags x.voidCond x.tag x.planId x.charged x.preempted
      x.extWait x.part x.prio j round detail,
    job := if kind = 0 then some j else none, quiet := x.quiet, notice := kind == 1 }

/-- A record appended to its channel's written records (R592). -/
def State.addRec (s : State) (c : Nat) (r : Rec) : State :=
  let ch := s.chan c
  s.setChan c { ch with recs := ch.recs ++ [r] }

/-- Partition `p` is free: no job holds it, its booking, grant and shares are gone (R64). -/
def State.freePart (s : State) (p : Nat) : State :=
  let s := { s with jobs := { s.jobs with holder := Map.erase s.jobs.holder p } }
  let s := ((s.setFld (R.pwrPart p) 23 12 0).setFlag (R.pwrPart p) 24 false).setFld (R.pwrGrant p) 11 0 0
  match s.partRec p with
  | some r => r.halves.foldl (fun s h => (s.setDraws h []).setFld (R.govShare h) 11 0 0) s
  | none => s

/-- The detail bytes of a record ended by reset (status 2). -/
def resetDetail (kind cause : Nat) : List Nat := [kind, cause]

/-- The detail bytes of a record of a unit fault (status 5, R912). -/
def faultDetail (n : Notice) : List Nat :=
  [n.kind, n.die, n.unit, 0] ++ leBytes 2 n.code ++ [0, 0] ++ leBytes 8 n.round

/-- Job `j` ends with a record (R592): the record is written in this round, the partition it held is free
and its booking released. -/
def State.recordEnd (s : State) (j status code : Nat) (detail : List Nat) : State :=
  match s.job? j with
  | none => s
  | some x =>
    let s := s.addRec x.channel (x.record j 0 status code s.rnd.round detail)
    let s := s.modJob j fun y => { y with st := .ended, inPhase := false, claim := 0 }
    if s.holderOf x.part = some j then s.freePart x.part else s

/-- Partition `p` is fenced for a fault (R890): it counts as absent, and its jobs that hold no partition end, one never
dispatched with code 0x01, another with status 5. -/
def State.fence (s : State) (p : Nat) (n : Notice) : State :=
  if s.flag R.fltFenced p || p ≥ 16 then s
  else
    let s := { s with img := { s.img with absent := putBit s.img.absent p true } }.setFlag R.fltFenced p true
    let s := s.hubEvent 0x1203 [(1, p), (1, n.kind)]
    (s.jobsWhere fun x => x.part == p && x.st != .running && x.st != .ended).foldl (fun s q =>
      if q.2.dispatched then s.recordEnd q.1 5 0 (faultDetail n) else s.recordEnd q.1 1 1 []) s

/-- The fence that waited for the end of a partition's running job (R901). -/
def State.fenceDue (s : State) (p : Nat) : State :=
  match Map.get? s.flt.fenceAtEnd p with
  | some n => { s with flt := { s.flt with fenceAtEnd := Map.erase s.flt.fenceAtEnd p } }.fence p n
  | none => s

/-- A job ends with a record; a fence that waited for it follows. -/
def State.endJob (s : State) (j status code : Nat) (detail : List Nat) : State :=
  match s.job? j with
  | none => s
  | some x =>
    let t := s.recordEnd j status code detail
    if s.holderOf x.part = some j then t.fenceDue x.part else t

/-- Job `j` leaves the table without a record (R601): the counts move as if its record had been posted. -/
def State.dropJob (s : State) (j : Nat) : State :=
  match s.job? j with
  | none => s
  | some x =>
    let s := if s.holderOf x.part = some j then (s.freePart x.part).fenceDue x.part else s
    let s := s.count (R.jobClDone x.client) 1
    let s := if x.counted then s.setFld (R.jobClRun x.client) 12 0 (s.fld (R.jobClRun x.client) 12 0 - 1) else s
    { s with jobs := { s.jobs with jobs := Map.erase s.jobs.jobs j } }

/-- Which job's record a partition reset writes: the job holding the partition. -/
def State.endHolder (s : State) (p status : Nat) (detail : List Nat) : State :=
  match s.holderOf p with
  | some j => s.endJob j status 0 detail
  | none => s.freePart p

/-- A bad-channel, item or doorbell error: CHN_ERR and CHN_ERR_COUNT (R573, R560, R571). -/
def State.chanErr (s : State) (code c func port : Nat) : State :=
  let v := putBits (putBits (putBits (putBits 0 7 0 code) 19 8 c) 25 20 func) 26 26 port
  (s.setReg R.chnErr v).count R.chnErrCount 1

end Sys2Proof.Machine
end

