-- ==== Sys2Proof/Machine/Operands.lean ====
section
/-! DEFINITION. The operand forms of core instructions: registers, predicates, immediates, legality and
traps, and the front end that every core instruction shares (R280 to R287, R293 to R299, R314 to R323). -/

namespace Sys2Proof.Machine

/-! ### Groups -/

/-- Key of a logical core. -/
def coreKey (half core : Nat) : Nat := half * 128 + core

/-- A core with nothing resident. -/
def Core.empty : Core := { groups := [], blocks := [], constLines := [], descLines := [] }

/-- The core of a half and logical number. -/
def State.core (s : State) (half core : Nat) : Core := Map.getD s.cor.cores (coreKey half core) Core.empty

/-- The core replaced. -/
def State.setCore (s : State) (half core : Nat) (c : Core) : State :=
  { s with cor := { s.cor with cores := Map.set s.cor.cores (coreKey half core) c } }

/-- The group at a reference. -/
def State.group? (s : State) (g : GroupRef) : Option Group := Map.get? (s.core g.half g.core).groups g.slot

/-- The group at a reference replaced. -/
def State.setGroup (s : State) (g : GroupRef) (x : Group) : State :=
  let c := s.core g.half g.core
  s.setCore g.half g.core { c with groups := Map.set c.groups g.slot x }

/-- The block whose first slot is `b`. -/
def State.blk? (s : State) (g : GroupRef) (b : Nat) : Option Blk := Map.get? (s.core g.half g.core).blocks b

/-- The block replaced. -/
def State.setBlk (s : State) (g : GroupRef) (b : Nat) (x : Blk) : State :=
  let c := s.core g.half g.core
  s.setCore g.half g.core { c with blocks := Map.set c.blocks b x }

/-- rpc none (R283). -/
def noRpc : Nat := 0xFFFFFFFF

/-- A 32-bit register of a lane; 255 is XZ, which reads as zero (R298). -/
def Group.reg (g : Group) (lane r : Nat) : Nat := if r = 255 then 0 else Map.getD g.regs (lane * 256 + r) 0 % 2 ^ 32

/-- A 32-bit register of a lane written; writes to XZ are discarded. -/
def Group.setReg (g : Group) (lane r v : Nat) : Group :=
  if r = 255 then g
  else
    let v := v % 2 ^ 32
    { g with regs := if v = 0 then Map.erase g.regs (lane * 256 + r) else Map.set g.regs (lane * 256 + r) v }

/-- `k` consecutive registers as one number, the lowest register least significant. -/
def Group.regs' (g : Group) (lane r : Nat) : Nat → Nat
  | 0 => 0
  | k + 1 => g.reg lane r + 2 ^ 32 * (if r = 255 then 0 else Group.regs' g lane (r + 1) k)

/-- `k` consecutive registers written from one number. -/
def Group.setRegs (g : Group) (lane r v : Nat) : Nat → Group
  | 0 => g
  | k + 1 => if r = 255 then g else (g.setReg lane r v).setRegs lane (r + 1) (v / 2 ^ 32) k

/-- Predicate `p` of a lane; p7 is always true (R297). -/
def Group.pred (g : Group) (lane p : Nat) : Bool := p == 7 || bit (Map.getD g.preds p 0) lane

/-- Predicate `p` of a lane written; p7 discards (R299). -/
def Group.setPred (g : Group) (lane p : Nat) (b : Bool) : Group :=
  if p = 7 then g else { g with preds := Map.set g.preds p (putBit (Map.getD g.preds p 0) lane b) }

/-- The lanes whose guard is true, within the active mask (R297). -/
def Group.acting (g : Group) (f : CoreFields) : List Nat :=
  (setBitsOf 32 g.mask).filter fun l => g.pred l f.pred != f.neg

/-- While pc equals rpc, the stack's top entry is popped (R284). -/
def Group.pop : Nat → Group → Group
  | 0, g => g
  | n + 1, g =>
    match g.stack with
    | [] => g
    | (m, pc, rpc) :: st =>
      if g.pc = g.rpc || g.mask = 0 then Group.pop n { g with mask := m, pc := pc, rpc := rpc, stack := st } else g

/-- A group has exited when its mask and its stack are empty (R286). -/
def Group.done (x : Group) : Bool := x.mask == 0 && x.stack.isEmpty

/-! ### Operand specifications -/

/-- What a register field names: nothing (it must be zero), `k` consecutive 32-bit registers, or a
predicate. -/
inductive Field
  | unused
  | regs (k : Nat)
  | pred
  deriving DecidableEq, Repr

/-- The formats of R294. -/
inductive Fmt
  | r | m | b | bri
  deriving DecidableEq, Repr

/-- What one instruction's words may hold (R294 to R299). -/
structure OpSpec where
  fmt : Fmt
  d : Field
  a : Field
  b : Field
  c : Field
  /-- Whether mod holds an assigned value with every unused bit zero. -/
  modOk : Bool
  /-- imm11 has a meaning. -/
  imm : Bool
  /-- A 64-bit immediate in RI form (MOV with w64). -/
  imm64 : Bool
  /-- The guard must be always true (R310, R312). -/
  noGuard : Bool
  /-- A commit point (R317). -/
  commit : Bool
  /-- A load of R318. -/
  load : Bool
  deriving DecidableEq, Repr

/-- An R-format instruction. -/
def OpSpec.alu (d a b c : Field) (modOk : Bool) : OpSpec :=
  { fmt := .r, d := d, a := a, b := b, c := c, modOk := modOk, imm := false, imm64 := false, noGuard := false,
    commit := false, load := false }

/-- A register field is well formed: alignment of R298, or a predicate number (R299). -/
def Field.ok : Field → Nat → Bool
  | .unused, n => n == 0
  | .regs k, n => n == 255 || k ≤ 1 || n % k == 0
  | .pred, n => n < 8

/-- No register of the field lies at or above regs_per_thread (R298). -/
def Field.inRange (per : Nat) : Field → Nat → Bool
  | .regs k, n => n == 255 || k == 0 || n + k ≤ per
  | _, _ => true

/-- Whether the RI form is open to the instruction (R294). -/
def OpSpec.riOk (p : OpSpec) : Bool := p.fmt == .r && (p.b == .regs 1 || p.b == .regs 2)

/-- The words are legal (R295, R296, R298, R299). -/
def OpSpec.legal (p : OpSpec) (f : CoreFields) : Bool :=
  p.modOk && p.d.ok f.d && p.a.ok f.a && p.c.ok f.c &&
  (!p.noGuard || (f.pred == 7 && !f.neg)) &&
  (match p.fmt with
   | .r =>
     if f.long then p.riOk && f.b == 0 && (p.imm || f.imm == 0) && (p.imm64 || f.w1 < 2 ^ 32)
     else p.b.ok f.b && (p.imm || f.imm == 0) && f.w1 == 0
   | .m => p.b.ok f.b && (if f.long then f.imm == 0 && f.w1 < 2 ^ 32 else f.w1 == 0)
   | .b => p.b.ok f.b && f.long && f.imm == 0
   | .bri => p.b.ok f.b && f.long && f.imm == 0 && f.w1 % 2 ^ 32 == 0)

/-- No register of the words is out of range. -/
def OpSpec.inRange (p : OpSpec) (f : CoreFields) (per : Nat) : Bool :=
  p.d.inRange per f.d && p.a.inRange per f.a && (f.long && p.fmt == .r || p.b.inRange per f.b) &&
  p.c.inRange per f.c

/-- Source b of a lane: registers, or the immediate of the RI form, sign-extended for a 64-bit operand. -/
def Group.srcB (g : Group) (p : OpSpec) (f : CoreFields) (lane : Nat) : Nat :=
  match p.b with
  | .regs k =>
    if f.long && p.fmt == .r then
      if p.imm64 then f.w1 else if k = 2 then unsigned 64 (signed 32 f.w1) else f.w1
    else g.regs' lane f.b k
  | _ => 0

/-- Offset of an M-format instruction (R294). -/
def CoreFields.offset (f : CoreFields) : Int := if f.long then signed 32 f.w1 else signed 11 f.imm

/-- Bytes of the instruction. -/
def CoreFields.len (f : CoreFields) : Nat := if f.long then 16 else 8

/-- Registers a field names. -/
def Field.regList : Field → Nat → List Nat
  | .regs k, n => if n = 255 then [] else (List.range k).map (n + ·)
  | _, _ => []

/-! ### Pending marks (R314 to R319) -/

/-- The instruction reads a pending register or predicate, or its guard is pending, or the group is
path-pending (R315). -/
def Group.readsPending (g : Group) (p : OpSpec) (f : CoreFields) : Bool :=
  let rs := p.a.regList f.a ++ (if f.long && p.fmt == .r then [] else p.b.regList f.b) ++ p.c.regList f.c
  let ps := (if p.a == .pred then [f.a] else []) ++ (if p.c == .pred then [f.c] else []) ++ [f.pred]
  g.pathPending || rs.any (g.pendRegs.contains ·) || ps.any (g.pendPreds.contains ·)

/-- A member added to a list of marks. -/
def addMark (l : List Nat) (n : Nat) : List Nat := if l.contains n then l else l ++ [n]

/-- The destination marked pending. -/
def Group.markDest (g : Group) (p : OpSpec) (f : CoreFields) : Group :=
  { g with
    pendRegs := (p.d.regList f.d).foldl addMark g.pendRegs,
    pendPreds := if p.d == .pred && f.d < 7 then addMark g.pendPreds f.d else g.pendPreds }

/-- An address register or the guard is pending (R318). -/
def Group.addrPending (g : Group) (f : CoreFields) (addr : List Nat) : Bool :=
  g.pathPending || g.pendPreds.contains f.pred || addr.any (g.pendRegs.contains ·)

/-! ### Traps -/

/-- The group stops at its instruction with a trap. While it has an unconfirmed load the instruction only
waits (R323). -/
def State.raise (s : State) (g : GroupRef) (x : Group) (code user lanes : Nat) : State :=
  if x.unconf.isEmpty then
    s.setGroup g { x with wait := .trap, trap := some { code := code, user := user, lanes := lanes, turn := s.absTurn } }
  else s

/-- Whether a half's cores may issue: the units run and no JTAG halt stands, or a step grants this slot. -/
def State.mayIssue (s : State) (g : GroupRef) : Bool :=
  s.unitsRun && (!s.flag R.jtgState g.half || Map.get? s.cor.stepOk (coreKey g.half g.core) == some g.slot)

/-- A step's grant is spent. -/
def State.spendStep (s : State) (g : GroupRef) : State :=
  { s with cor := { s.cor with stepOk := Map.erase s.cor.stepOk (coreKey g.half g.core) } }

/-- The front end: the group is ready, reconverges (R284), the pc lies in the kernel, the words are legal;
then `k` gives the instruction's own effect. A group that may not issue is left as it is. -/
def State.issue (s : State) (g : GroupRef) (f : CoreFields) (p : OpSpec) (addr : List Nat)
    (k : State → Blk → Group → State) : State :=
  if !s.mayIssue g then s
  else
    match s.group? g with
    | none => s
    | some x0 =>
      if x0.wait != .ready then s
      else
        let x := Group.pop 33 x0
        match s.blk? g x.block with
        | none => s
        | some b =>
          if x.mask == 0 then s
          else if p.commit && !x.unconf.isEmpty then s
          else if p.load && x.addrPending f addr then s
          else
            let s := s.spendStep g
            let lanes := maskOf (x.acting f)
            let rows := (p.d.regList f.d).filter fun r => !x.savedRows.contains r
            let used := (((s.core g.half g.core).groups.map fun q => q.2.savedRows.length)).sum
            if !x.unconf.isEmpty && decide (512 < used + rows.length) then
              s.oncePerRound 0x0702 (coreKey g.half g.core)
                (·.halfEvent g.half 0x0702 [(1, g.half), (1, g.core), (8, s.rnd.round)])
            else
            let x := if x.unconf.isEmpty then x else { x with savedRows := x.savedRows ++ rows }
            if x.pc % 8 != 0 || b.kernelLen ≤ x.pc then s.raise g x 0x04 0 x.mask
            else if !p.legal f then s.raise g x 0x01 0 lanes
            else if !p.inRange f x.regsPer then s.raise g x 0x02 0 lanes
            else k s b x

/-- The group goes on behind its instruction, its destination marked pending under R315. -/
def Group.step (x : Group) (p : OpSpec) (f : CoreFields) (wasPending : Bool) : Group :=
  let x := { x with pc := x.pc + f.len }
  if wasPending then x.markDest p f else x

/-- An instruction that writes `k` registers of each acting lane from a function of the lane. -/
def State.perLane (s : State) (g : GroupRef) (f : CoreFields) (p : OpSpec) (k : Nat)
    (fn : Group → Nat → Nat) : State :=
  s.issue g f p [] fun s _ x =>
    let y := (x.acting f).foldl (fun y l => y.setRegs l f.d (fn x l) k) x
    s.setGroup g (y.step p f (x.readsPending p f))

/-- An instruction that writes a predicate of each acting lane from a function of the lane. -/
def State.perLanePred (s : State) (g : GroupRef) (f : CoreFields) (p : OpSpec) (fn : Group → Nat → Bool) :
    State :=
  s.issue g f p [] fun s _ x =>
    let y := (x.acting f).foldl (fun y l => y.setPred l f.d (fn x l)) x
    s.setGroup g (y.step p f (x.readsPending p f))

end Sys2Proof.Machine
end

