-- ==== Sys2Proof/Machine/CoreInt.lean ====
section
/-! DEFINITION. The integer, move and lane instructions of R300 to R302. -/

namespace Sys2Proof.Machine

/-- Registers of an operand under mod.w64. -/
def wide (f : CoreFields) : Nat := if bit f.mod 0 then 2 else 1

/-- Bits of an operand under mod.w64. -/
def width (f : CoreFields) : Nat := 32 * wide f

/-- The operands of a plain integer instruction: `ops` of a, b, c used. -/
def intSpec (f : CoreFields) (useB useC : Bool) (modOk : Bool) : OpSpec :=
  .alu (.regs (wide f)) (.regs (wide f)) (if useB then .regs (wide f) else .unused)
    (if useC then .regs (wide f) else .unused) modOk

/-- A two-source integer instruction. -/
def State.int2 (s : State) (g : GroupRef) (f : CoreFields) (modOk : Bool) (fn : Nat → Nat → Nat) : State :=
  let p := intSpec f true false modOk
  s.perLane g f p (wide f) fun x l => fn (x.regs' l f.a (wide f)) (x.srcB p f l) % 2 ^ width f

/-- A one-source integer instruction. -/
def State.int1 (s : State) (g : GroupRef) (f : CoreFields) (fn : Nat → Nat) : State :=
  let p := intSpec f false false (decide (f.mod < 2))
  s.perLane g f p (wide f) fun x l => fn (x.regs' l f.a (wide f)) % 2 ^ width f

/-- The smaller of two operands, signed unless `u`. -/
def minBy (w : Nat) (u : Bool) (a b : Nat) : Nat :=
  if u then min a b else if signed w a ≤ signed w b then a else b

/-- The larger of two operands, signed unless `u`. -/
def maxBy (w : Nat) (u : Bool) (a b : Nat) : Nat :=
  if u then max a b else if signed w b ≤ signed w a then a else b

/-- Compare codes 0 lt, 1 le, 2 eq, 3 ne, 4 ge, 5 gt. -/
def compareBy (code w : Nat) (u : Bool) (a b : Nat) : Bool :=
  let x : Int := if u then a else signed w a
  let y : Int := if u then b else signed w b
  match code with
  | 0 => decide (x < y)
  | 1 => decide (x ≤ y)
  | 2 => decide (x = y)
  | 3 => decide (x ≠ y)
  | 4 => decide (y ≤ x)
  | _ => decide (y < x)

/-- NOP: no effect (R300). -/
def execNop (g : GroupRef) (f : CoreFields) (s : State) : Host.Outcome State Fault Refusal :=
  let p := OpSpec.alu .unused .unused .unused .unused (f.mod == 0)
  .next (s.issue g f p [] fun s _ x => s.setGroup g (x.step p f false))

/-- IADD: d = a + b. -/
def execIadd (g : GroupRef) (f : CoreFields) (s : State) : Host.Outcome State Fault Refusal :=
  .next (s.int2 g f (decide (f.mod < 2)) (· + ·))

/-- ISUB: d = a - b. -/
def execIsub (g : GroupRef) (f : CoreFields) (s : State) : Host.Outcome State Fault Refusal :=
  .next (s.int2 g f (decide (f.mod < 2)) fun a b => a + 2 ^ width f - b % 2 ^ width f)

/-- IMUL: d = low half of a × b. -/
def execImul (g : GroupRef) (f : CoreFields) (s : State) : Host.Outcome State Fault Refusal :=
  .next (s.int2 g f (decide (f.mod < 2)) (· * ·))

/-- IMULHI: d = high half of a × b, signed unless u. -/
def execImulhi (g : GroupRef) (f : CoreFields) (s : State) : Host.Outcome State Fault Refusal :=
  .next (s.int2 g f (decide (f.mod < 4)) fun a b =>
    if bit f.mod 1 then a * b / 2 ^ width f
    else unsigned (width f) (signed (width f) a * signed (width f) b / 2 ^ width f))

/-- IMAC: d = low half of a × b + c. -/
def execImac (g : GroupRef) (f : CoreFields) (s : State) : Host.Outcome State Fault Refusal :=
  let p := intSpec f true true (decide (f.mod < 2))
  .next (s.perLane g f p (wide f) fun x l =>
    (x.regs' l f.a (wide f) * x.srcB p f l + x.regs' l f.c (wide f)) % 2 ^ width f)

/-- IMIN: d = min(a, b), signed unless u. -/
def execImin (g : GroupRef) (f : CoreFields) (s : State) : Host.Outcome State Fault Refusal :=
  .next (s.int2 g f (decide (f.mod < 4)) (minBy (width f) (bit f.mod 1)))

/-- IMAX: d = max(a, b), signed unless u. -/
def execImax (g : GroupRef) (f : CoreFields) (s : State) : Host.Outcome State Fault Refusal :=
  .next (s.int2 g f (decide (f.mod < 4)) (maxBy (width f) (bit f.mod 1)))

/-- AND: d = a & b. -/
def execAnd (g : GroupRef) (f : CoreFields) (s : State) : Host.Outcome State Fault Refusal :=
  .next (s.int2 g f (decide (f.mod < 2)) (· &&& ·))

/-- OR: d = a | b. -/
def execOr (g : GroupRef) (f : CoreFields) (s : State) : Host.Outcome State Fault Refusal :=
  .next (s.int2 g f (decide (f.mod < 2)) (· ||| ·))

/-- XOR: d = a ^ b. -/
def execXor (g : GroupRef) (f : CoreFields) (s : State) : Host.Outcome State Fault Refusal :=
  .next (s.int2 g f (decide (f.mod < 2)) (· ^^^ ·))

/-- SHL: d = a shifted left by b[7:0]; 0 at or above the width. -/
def execShl (g : GroupRef) (f : CoreFields) (s : State) : Host.Outcome State Fault Refusal :=
  .next (s.int2 g f (decide (f.mod < 2)) fun a b => if width f ≤ b % 256 then 0 else a * 2 ^ (b % 256))

/-- SHR: logical with u, arithmetic without; at or above the width 0, or the sign fill. -/
def execShr (g : GroupRef) (f : CoreFields) (s : State) : Host.Outcome State Fault Refusal :=
  .next (s.int2 g f (decide (f.mod < 4)) fun a b =>
    let n := min (b % 256) (width f)
    if bit f.mod 1 then a / 2 ^ n else unsigned (width f) (signed (width f) a / 2 ^ n))

/-- BCNT: d = number of ones in a. -/
def execBcnt (g : GroupRef) (f : CoreFields) (s : State) : Host.Outcome State Fault Refusal :=
  .next (s.int1 g f fun a => popCount (width f) a)

/-- LZCNT: d = leading zeros of a; the width when a is 0. -/
def execLzcnt (g : GroupRef) (f : CoreFields) (s : State) : Host.Outcome State Fault Refusal :=
  .next (s.int1 g f fun a => width f - (if a = 0 then 0 else a.log2 + 1))

/-- BSEL: byte i of d is byte c[4i+2:4i] of the 8-byte value b:a. -/
def execBsel (g : GroupRef) (f : CoreFields) (s : State) : Host.Outcome State Fault Refusal :=
  let p := OpSpec.alu (.regs 1) (.regs 1) (.regs 1) (.regs 1) (f.mod == 0)
  .next (s.perLane g f p 1 fun x l =>
    let v := x.reg l f.a + 2 ^ 32 * x.srcB p f l
    let c := x.reg l f.c
    leVal ((List.range 4).map fun i => bits v (8 * bits c (4 * i + 2) (4 * i) + 7) (8 * bits c (4 * i + 2) (4 * i))))

/-- ICMP: predicate d = (a compare b). -/
def execIcmp (g : GroupRef) (f : CoreFields) (s : State) : Host.Outcome State Fault Refusal :=
  let p := OpSpec.alu .pred (.regs (wide f)) (.regs (wide f)) .unused
    (decide (f.mod < 32) && decide (bits f.mod 4 2 < 6))
  .next (s.perLanePred g f p fun x l =>
    compareBy (bits f.mod 4 2) (width f) (bit f.mod 1) (x.regs' l f.a (wide f)) (x.srcB p f l))

/-- SEL: d = predicate c ? a : b. -/
def execSel (g : GroupRef) (f : CoreFields) (s : State) : Host.Outcome State Fault Refusal :=
  let p := OpSpec.alu (.regs (wide f)) (.regs (wide f)) (.regs (wide f)) .pred (decide (f.mod < 2))
  .next (s.perLane g f p (wide f) fun x l =>
    if x.pred l f.c then x.regs' l f.a (wide f) else x.srcB p f l)

/-- MOV: d = b. -/
def execMov (g : GroupRef) (f : CoreFields) (s : State) : Host.Outcome State Fault Refusal :=
  let p := { OpSpec.alu (.regs (wide f)) .unused (.regs (wide f)) .unused (decide (f.mod < 2)) with
             imm64 := bit f.mod 0 }
  .next (s.perLane g f p (wide f) fun x l => x.srcB p f l)

/-- The value of a special register (R302). -/
def State.special (s : State) (g : GroupRef) (b : Blk) (x : Group) (lane code : Nat) : Nat :=
  match code with
  | 0x00 => lane
  | 0x01 => x.gidx
  | 0x02 => b.gcnt
  | 0x03 => b.tidx
  | 0x04 => g.core
  | 0x05 => b.lhalf
  | 0x06 => b.param
  | 0x07 => b.argBase
  | 0x08 => Map.getD x.gprog lane 0
  | 0x09 => x.mask
  | 0x0A => s.rnd.round % 2 ^ 32
  | 0x0B => s.rnd.turn
  | 0x0C => b.phase
  | 0x0D => b.part
  | _ => if x.unconf.isEmpty then 0 else 1

/-- RDSR: d = the special register whose code is in mod; any other code is ILLEGAL. -/
def execRdsr (g : GroupRef) (f : CoreFields) (s : State) : Host.Outcome State Fault Refusal :=
  let w := if f.mod = 0x06 || f.mod = 0x07 then 2 else 1
  let p := OpSpec.alu (.regs w) .unused .unused .unused (decide (f.mod ≤ 0x0E))
  .next (s.issue g f p [] fun s b x =>
    let y := (x.acting f).foldl (fun y l => y.setRegs l f.d (s.special g b x l f.mod) w) x
    s.setGroup g (y.step p f (x.readsPending p f)))

/-- XLANE: d = a of the source lane; a source lane outside 0 to 31, or not acting, gives the thread's own. -/
def execXlane (g : GroupRef) (f : CoreFields) (s : State) : Host.Outcome State Fault Refusal :=
  let p := OpSpec.alu (.regs 1) (.regs 1) (.regs 1) .unused (decide (f.mod < 4))
  .next (s.perLane g f p 1 fun x l =>
    let b := x.srcB p f l
    let src : Int := match f.mod with
      | 0 => (b % 32 : Nat)
      | 1 => (l : Int) - b
      | 2 => (l : Int) + b
      | _ => (l ^^^ (b % 32) : Nat)
    if 0 ≤ src && src < 32 && (x.acting f).contains src.toNat then x.reg src.toNat f.a else x.reg l f.a)

/-- LVOTE: any, all or ballot of source predicate a over the acting threads. -/
def execLvote (g : GroupRef) (f : CoreFields) (s : State) : Host.Outcome State Fault Refusal :=
  let p := OpSpec.alu (if f.mod = 2 then .regs 1 else .pred) .pred .unused .unused (decide (f.mod < 3))
  .next (s.issue g f p [] fun s _ x =>
    let act := x.acting f
    let yes := act.filter fun l => x.pred l f.a
    let y := act.foldl (fun y l =>
      match f.mod with
      | 0 => y.setPred l f.d (!yes.isEmpty)
      | 1 => y.setPred l f.d (yes.length == act.length)
      | _ => y.setReg l f.d (maskOf yes)) x
    s.setGroup g (y.step p f (x.readsPending p f)))

end Sys2Proof.Machine
end

