-- ==== Sys2Proof/Machine/Flags.lean ====
section
/-! DEFINITION. Floating point: formats, exact values, rounding, and the exception flags of R322. Every
operation is computed exactly and rounded once. -/

namespace Sys2Proof.Machine

/-- A binary format: exponent bits, fraction bits, and whether its top exponent holds infinities (E4M3 has
none under the OCP specification). -/
structure FFmt where
  eb : Nat
  mb : Nat
  hasInf : Bool
  deriving DecidableEq, Repr

def FFmt.f32 : FFmt := ⟨8, 23, true⟩
def FFmt.f16 : FFmt := ⟨5, 10, true⟩
def FFmt.bf16 : FFmt := ⟨8, 7, true⟩
def FFmt.e5m2 : FFmt := ⟨5, 2, true⟩
def FFmt.e4m3 : FFmt := ⟨4, 3, false⟩

/-- Total width in bits. -/
def FFmt.width (f : FFmt) : Nat := 1 + f.eb + f.mb

/-- Exponent bias. -/
def FFmt.bias (f : FFmt) : Nat := 2 ^ (f.eb - 1) - 1

/-- The least exponent of a normal number. -/
def FFmt.emin (f : FFmt) : Int := 1 - (f.bias : Int)

/-- The NaN a result takes: quiet, sign 0 (R300; 0x7F in E4M3, log entry 24). -/
def FFmt.nan (f : FFmt) : Nat :=
  if f.hasInf then (2 ^ f.eb - 1) * 2 ^ f.mb + 2 ^ (f.mb - 1) else 2 ^ (f.eb + f.mb) - 1

/-- The infinity of a sign; in a format without one, its NaN. -/
def FFmt.inf (f : FFmt) (neg : Bool) : Nat :=
  if f.hasInf then neg.toNat * 2 ^ (f.eb + f.mb) + (2 ^ f.eb - 1) * 2 ^ f.mb else f.nan

/-- The largest finite value of a sign. -/
def FFmt.maxFinite (f : FFmt) (neg : Bool) : Nat :=
  neg.toNat * 2 ^ (f.eb + f.mb) +
    (if f.hasInf then (2 ^ f.eb - 1) * 2 ^ f.mb - 1 else 2 ^ (f.eb + f.mb) - 2)

/-- What a word of a format stands for: a NaN (signalling or not), an infinity, or (-1)^neg × m × 2^e. -/
inductive FVal
  | nan (signalling : Bool)
  | inf (neg : Bool)
  | fin (neg : Bool) (m : Nat) (e : Int)
  deriving DecidableEq, Repr

/-- The exception flags of COR_FPX: invalid, divide-by-zero, overflow, underflow. -/
structure FFlags where
  invalid : Bool
  divzero : Bool
  overflow : Bool
  underflow : Bool
  deriving DecidableEq, Repr

def FFlags.none : FFlags := ⟨false, false, false, false⟩
def FFlags.bad : FFlags := ⟨true, false, false, false⟩

def FFlags.or (a b : FFlags) : FFlags :=
  ⟨a.invalid || b.invalid, a.divzero || b.divzero, a.overflow || b.overflow, a.underflow || b.underflow⟩

/-- The flags as the bits of COR_FPX and COR_ISA_CFG.fp_trap. -/
def FFlags.mask (a : FFlags) : Nat :=
  a.invalid.toNat + 2 * a.divzero.toNat + 4 * a.overflow.toNat + 8 * a.underflow.toNat

/-- The value of a word. -/
def FFmt.unpack (f : FFmt) (w : Nat) : FVal :=
  let neg := bit w (f.eb + f.mb)
  let e := bits w (f.eb + f.mb - 1) f.mb
  let m := w % 2 ^ f.mb
  if e = 2 ^ f.eb - 1 && (f.hasInf || m = 2 ^ f.mb - 1) then
    if f.hasInf && m = 0 then .inf neg
    else .nan (f.hasInf && !bit m (f.mb - 1))
  else if e = 0 then .fin neg m (f.emin - f.mb)
  else .fin neg (2 ^ f.mb + m) ((e : Int) - f.bias - f.mb)

/-- A denormal input flushed to zero, keeping its sign. -/
def FFmt.flush (f : FFmt) (w : Nat) : Nat :=
  if bits w (f.eb + f.mb - 1) f.mb = 0 then (bit w (f.eb + f.mb)).toNat * 2 ^ (f.eb + f.mb) else w

/-- The rounding modes of R300: 0 nearest-even, 1 toward zero, 2 down, 3 up. Whether the magnitude is
rounded up: its kept part is odd, and the rest compares with one half as `c` (and is nonzero or not). -/
def roundsUp (rm : Nat) (neg odd : Bool) (c : Ordering) (inexact : Bool) : Bool :=
  match rm with
  | 0 => c == .gt || (c == .eq && odd)
  | 1 => false
  | 2 => neg && inexact
  | _ => !neg && inexact

/-- Number of bits of `n`. -/
def bitLen (n : Nat) : Nat := if n = 0 then 0 else n.log2 + 1

/-- `m × 2^e` (and a rest below its last bit when `sticky`) cut at `2^q`: kept part and whether it is
rounded up. -/
def cutAt (rm : Nat) (neg : Bool) (m : Nat) (e q : Int) (sticky : Bool) : Nat × Bool × Bool :=
  if q ≤ e then
    let k := m * 2 ^ (e - q).toNat
    (k, roundsUp rm neg (k % 2 == 1) .lt sticky, sticky)
  else
    let sh := (q - e).toNat
    let k := m / 2 ^ sh
    let r := m % 2 ^ sh
    let half := 2 ^ (sh - 1)
    let c := if r < half then .lt else if half < r then .gt else if sticky then .gt else .eq
    let inexact := r != 0 || sticky
    (k, roundsUp rm neg (k % 2 == 1) c inexact, inexact)

/-- `(-1)^neg × m × 2^e` rounded into a format: the word and its flags. `ftz` flushes a denormal result,
`sat` gives the largest finite value where the result passes the range (CVTS). -/
def FFmt.round (f : FFmt) (rm : Nat) (ftz sat : Bool) (neg : Bool) (m : Nat) (e : Int) (sticky : Bool) :
    Nat × FFlags :=
  let sgn := neg.toNat * 2 ^ (f.eb + f.mb)
  if m = 0 then (sgn, .none)
  else
    let top := e + (bitLen m : Int) - 1
    let q := max (top - f.mb) (f.emin - f.mb)
    let (k, up, inexact) := cutAt rm neg m e q sticky
    let k := if up then k + 1 else k
    let (k, q) := if k = 2 ^ (f.mb + 1) then (k / 2, q + 1) else (k, q)
    -- tiny after rounding as if the exponent had no bound
    let (k1, up1, _) := cutAt rm neg m e (top - f.mb) sticky
    let tinyBefore := decide (top < f.emin)
    let tinyAfter := tinyBefore && !(decide (top + 1 = f.emin) && decide ((if up1 then k1 + 1 else k1) = 2 ^ (f.mb + 1)))
    let tiny := if tinyBefore && !tinyAfter then Config.tininessBefore else tinyBefore
    let denormal := decide (k < 2 ^ f.mb)
    if ftz && denormal then (sgn, ⟨false, false, false, true⟩)
    else
      let ex := if denormal then 0 else (q + f.mb + f.bias).toNat
      let word := if denormal then k else ex * 2 ^ f.mb + (k - 2 ^ f.mb)
      if f.maxFinite false < word then
        let toInf := match rm with
          | 0 => true
          | 1 => false
          | 2 => neg
          | _ => !neg
        (if sat || !toInf then f.maxFinite neg else f.inf neg, ⟨false, false, true, false⟩)
      else (sgn + word, ⟨false, false, false, tiny && inexact⟩)

/-- Whether a value is a NaN, and whether an operand is a signalling one. -/
def FVal.isNaN : FVal → Bool
  | .nan _ => true
  | _ => false

def FVal.isSig : FVal → Bool
  | .nan s => s
  | _ => false

/-- The exact sum of two finite values as sign, magnitude and exponent; a zero sum of unlike signs is
positive, except when rounding down. -/
def addExact (rm : Nat) (n1 : Bool) (m1 : Nat) (e1 : Int) (n2 : Bool) (m2 : Nat) (e2 : Int) :
    Bool × Nat × Int :=
  let e := min e1 e2
  let x : Int := (m1 : Int) * 2 ^ (e1 - e).toNat * (if n1 then -1 else 1) +
    (m2 : Int) * 2 ^ (e2 - e).toNat * (if n2 then -1 else 1)
  if x = 0 then (if n1 == n2 then n1 else rm == 2, 0, e) else (decide (x < 0), x.natAbs, e)

/-- a + b. -/
def FFmt.add (f : FFmt) (rm : Nat) (ftz : Bool) (a b : Nat) : Nat × FFlags :=
  let a := if ftz then f.flush a else a
  let b := if ftz then f.flush b else b
  match f.unpack a, f.unpack b with
  | .fin n1 m1 e1, .fin n2 m2 e2 =>
    let (n, m, e) := addExact rm n1 m1 e1 n2 m2 e2
    f.round rm ftz false n m e false
  | .inf n1, .inf n2 => if n1 == n2 then (f.inf n1, .none) else (f.nan, .bad)
  | .inf n, .fin _ _ _ => (f.inf n, .none)
  | .fin _ _ _, .inf n => (f.inf n, .none)
  | x, y => (f.nan, if x.isSig || y.isSig then .bad else .none)

/-- a × b. -/
def FFmt.mul (f : FFmt) (rm : Nat) (ftz : Bool) (a b : Nat) : Nat × FFlags :=
  let a := if ftz then f.flush a else a
  let b := if ftz then f.flush b else b
  match f.unpack a, f.unpack b with
  | .fin n1 m1 e1, .fin n2 m2 e2 => f.round rm ftz false (n1 != n2) (m1 * m2) (e1 + e2) false
  | .inf n1, .inf n2 => (f.inf (n1 != n2), .none)
  | .inf n1, .fin n2 m _ => if m = 0 then (f.nan, .bad) else (f.inf (n1 != n2), .none)
  | .fin n1 m _, .inf n2 => if m = 0 then (f.nan, .bad) else (f.inf (n1 != n2), .none)
  | x, y => (f.nan, if x.isSig || y.isSig then .bad else .none)

/-- a × b + c, rounded once. -/
def FFmt.fma (f : FFmt) (rm : Nat) (ftz : Bool) (a b c : Nat) : Nat × FFlags :=
  let a := if ftz then f.flush a else a
  let b := if ftz then f.flush b else b
  let c := if ftz then f.flush c else c
  let va := f.unpack a
  let vb := f.unpack b
  let vc := f.unpack c
  let prodInf (n : Bool) : Nat × FFlags :=
    match vc with
    | .inf n3 => if n == n3 then (f.inf n, .none) else (f.nan, .bad)
    | .nan s => (f.nan, if s then .bad else .none)
    | .fin _ _ _ => (f.inf n, .none)
  match va, vb with
  | .fin n1 m1 e1, .fin n2 m2 e2 =>
    match vc with
    | .fin n3 m3 e3 =>
      let (n, m, e) := addExact rm (n1 != n2) (m1 * m2) (e1 + e2) n3 m3 e3
      f.round rm ftz false n m e false
    | .inf n3 => (f.inf n3, .none)
    | .nan s => (f.nan, if s then .bad else .none)
  | .inf n1, .inf n2 => prodInf (n1 != n2)
  | .inf n1, .fin n2 m _ => if m = 0 then (f.nan, .bad) else prodInf (n1 != n2)
  | .fin n1 m _, .inf n2 => if m = 0 then (f.nan, .bad) else prodInf (n1 != n2)
  | x, y => (f.nan, if x.isSig || y.isSig || vc.isSig then .bad else .none)

/-- How two values that are no NaN compare; the zeros are equal. -/
def FVal.cmp : FVal → FVal → Ordering
  | .inf n1, .inf n2 => if n1 == n2 then .eq else if n1 then .lt else .gt
  | .inf n, _ => if n then .lt else .gt
  | _, .inf n => if n then .gt else .lt
  | .fin n1 m1 e1, .fin n2 m2 e2 =>
    let e := min e1 e2
    compare ((m1 : Int) * 2 ^ (e1 - e).toNat * (if n1 then -1 else 1))
      ((m2 : Int) * 2 ^ (e2 - e).toNat * (if n2 then -1 else 1))
  | _, _ => .eq

/-- The sign bit of a word. -/
def FFmt.neg (f : FFmt) (w : Nat) : Bool := bit w (f.eb + f.mb)

/-- The smaller (`least`) or larger of two words: -0 below +0, a NaN operand gives the other, two give the
NaN. -/
def FFmt.minMax (f : FFmt) (least ftz : Bool) (a b : Nat) : Nat × FFlags :=
  let a := if ftz then f.flush a else a
  let b := if ftz then f.flush b else b
  let va := f.unpack a
  let vb := f.unpack b
  let fl := if va.isSig || vb.isSig then FFlags.bad else .none
  if va.isNaN then (if vb.isNaN then f.nan else b, fl)
  else if vb.isNaN then (a, fl)
  else
    let aFirst := match va.cmp vb with
      | .lt => true
      | .gt => false
      | .eq => f.neg a
    (if aFirst == least then a else b, fl)

/-- FCMP: codes 0 lt, 1 le, 2 eq, 3 ne, 4 ge, 5 gt, 6 unordered, 7 ordered. -/
def FFmt.compare (f : FFmt) (code : Nat) (ftz : Bool) (a b : Nat) : Bool × FFlags :=
  let va := f.unpack (if ftz then f.flush a else a)
  let vb := f.unpack (if ftz then f.flush b else b)
  if va.isNaN || vb.isNaN then
    (code == 3 || code == 6, if va.isSig || vb.isSig then .bad else .none)
  else
    let c := va.cmp vb
    (match code with
     | 0 => c == .lt
     | 1 => c != .gt
     | 2 => c == .eq
     | 3 => c != .eq
     | 4 => c != .lt
     | 5 => c == .gt
     | 6 => false
     | _ => true, .none)

/-- Integer square root, one bit a step. -/
def isqrtGo : Nat → Nat → Nat → Nat
  | 0, _, r => r
  | k + 1, n, r => let t := r + 2 ^ k; isqrtGo k n (if t * t ≤ n then t else r)

def isqrt (n : Nat) : Nat := isqrtGo (bitLen n / 2 + 1) n 0

/-- 1 / a, correctly rounded. -/
def FFmt.rcp (f : FFmt) (rm : Nat) (ftz : Bool) (a : Nat) : Nat × FFlags :=
  let a := if ftz then f.flush a else a
  match f.unpack a with
  | .nan s => (f.nan, if s then .bad else .none)
  | .inf n => (n.toNat * 2 ^ (f.eb + f.mb), .none)
  | .fin n m e =>
    if m = 0 then (f.inf n, ⟨false, true, false, false⟩)
    else
      let k := 64 + bitLen m
      f.round rm ftz false n (2 ^ k / m) (-(k : Int) - e) (2 ^ k % m != 0)

/-- √a, correctly rounded. -/
def FFmt.sqrt (f : FFmt) (rm : Nat) (ftz : Bool) (a : Nat) : Nat × FFlags :=
  let a := if ftz then f.flush a else a
  match f.unpack a with
  | .nan s => (f.nan, if s then .bad else .none)
  | .inf n => if n then (f.nan, .bad) else (f.inf false, .none)
  | .fin n m e =>
    if m = 0 then (a, .none)
    else if n then (f.nan, .bad)
    else
      let k : Nat := if (e - 64) % 2 = 0 then 64 else 65
      let x := m * 2 ^ k
      let r := isqrt x
      f.round rm ftz false false r ((e - k) / 2) (r * r != x)

end Sys2Proof.Machine
end

