-- ==== Sys2Proof/Machine/Route.lean ====
section
/-! DEFINITION. The fourteen cols in the order of R71 (0 B01, 1 B12, 2 B23, 3 B45, 4 B56, 5 B67, 6 S04, 7 S15,
8 S26, 9 S37, 10 H1, 11 H2, 12 H5, 13 H6) and the routes of R148 to R150. -/

namespace Sys2Proof.Machine

/-- The dies a col joins, the hub being 8. -/
def colEnds (col : Nat) : Nat × Nat :=
  [(0, 1), (1, 2), (2, 3), (4, 5), (5, 6), (6, 7), (0, 4), (1, 5), (2, 6), (3, 7), (1, 8), (2, 8), (5, 8), (6, 8)].getD col (0, 0)

/-- The other die of a col. -/
def colFar (col die : Nat) : Nat := if (colEnds col).1 = die then (colEnds col).2 else (colEnds col).1

/-- The cols of a die, in the order of R71. -/
def colsOf (die : Nat) : List Nat := (List.range 14).filter fun c => (colEnds c).1 == die || (colEnds c).2 == die

/-- The bridge cols crossed in a row from one column to another, in crossing order. -/
def rowCols (row a b : Nat) : List Nat :=
  if a ≤ b then (List.range (b - a)).map fun i => row * 3 + a + i
  else (List.range (a - b)).map fun i => row * 3 + (a - 1 - i)

/-- The cols a message between two peaks crosses, in order (R148). -/
def peakRoute (p q : Nat) : List Nat :=
  rowCols (p / 4) (p % 4) (q % 4) ++ (if p / 4 = q / 4 then [] else [6 + q % 4])

/-- The peak through which a peak reaches the hub, and that peak's hub col (R150). -/
def hubPeak (p : Nat) : Nat := [1, 1, 2, 2, 5, 5, 6, 6].getD p 1
def hubCol (p : Nat) : Nat := if p = 1 then 10 else if p = 2 then 11 else if p = 5 then 12 else 13

/-- The cols from a peak to the hub, in order. -/
def hubRoute (p : Nat) : List Nat := peakRoute p (hubPeak p) ++ [hubCol (hubPeak p)]

/-- The cols between two dies, in crossing order. -/
def route (a b : Nat) : List Nat :=
  if a = b then [] else if b = 8 then hubRoute a else if a = 8 then (hubRoute b).reverse else peakRoute a b

/-- The die at which a walk from a die along cols meets one of them. -/
def enterDie : Nat → List Nat → Nat → Nat
  | p, [], _ => p
  | p, x :: xs, c => if x = c then p else enterDie (colFar x p) xs c

/-- The register block of a col end: peak and k (0 west bridge, 1 east bridge, 2 substrate, 3 hub col); the hub end
has none. -/
def colEndReg (col die : Nat) : Option (Nat × Nat) :=
  if die = 8 then none
  else if col < 6 then some (die, if (colEnds col).1 = die then 1 else 0)
  else if col < 10 then some (die, 2)
  else some (die, 3)

end Sys2Proof.Machine
end

