-- ==== Sys2Proof/Machine/Cache.lean ====
section
/-! DEFINITION. Lines, regions and homes (R412 to R423), slices and guest copies (R424 to R450), directories
(R429 to R435), and the sending of the protocol's messages. -/

namespace Sys2Proof.Machine

/-! ### Line data -/

/-- Sectors of a mask `m` from `new`, the others from `old`. -/
def mergeSectors (m old new : Nat) : Nat :=
  (List.range 4).foldl (fun d k =>
    if bit m k then putBits d (256 * k + 255) (256 * k) (bits new (256 * k + 255) (256 * k)) else d) old

/-- `n` bytes at offset `off` of a line. -/
def lineGet (data off n : Nat) : Nat := bits data (8 * (off + n) - 1) (8 * off)

/-- `n` bytes at offset `off` of a line made `v`. -/
def linePut (data off n v : Nat) : Nat := putBits data (8 * (off + n) - 1) (8 * off) v

/-- Bytes of a line, from a byte mask, made those of `new`. -/
def mergeBytes (m old new : Nat) : Nat :=
  (setBitsOf 128 m).foldl (fun d k => putBits d (8 * k + 7) (8 * k) (bits new (8 * k + 7) (8 * k))) old

/-- The sectors a byte mask touches. -/
def sectorsOf (bm : Nat) : Nat := maskOf ((List.range 4).filter fun k => bits bm (32 * k + 31) (32 * k) != 0)

/-- The sector of an address within its line, as a mask. -/
def sectorBit (addr : Nat) : Nat := 2 ^ (addr / 32 % 4)

/-- Sectors of `m` outside `n`. -/
def sectorsMinus (m n : Nat) : Nat := maskOf ((setBitsOf 4 m).filter fun k => !bit n k)

/-! ### Addresses, regions, homes -/

/-- The peak whose span holds a device address (R414). -/
def spanOf (addr : Nat) : Option Nat :=
  (List.range 8).find? fun n => n * 0x900000000 ≤ addr && addr < n * 0x900000000 + 0x861C00000

/-- The stack of peak `n` is in service (R415): trained and not failed, the peak not in state 9. -/
def State.stackUp (s : State) (n : Nat) : Bool :=
  let st := s.fld (R.ucHbmState n) 1 0
  (st == 1 || st == 2) && !bit s.flt.stacksFailed n &&
    bits (s.reg R.glbPeakState) (4 * n + 3) (4 * n) != 9

/-- A device address is an HBM address (R415). -/
def State.inHbm (s : State) (addr : Nat) : Bool :=
  match spanOf addr with
  | some n => s.stackUp n
  | none => false

/-- The region that covers an address, in the committed image (R232, R233). -/
def State.regionOf (s : State) (addr : Nat) : Option Region :=
  match s.img.committed with
  | none => none
  | some im => im.regions.find? fun r => r.base ≤ addr && addr < r.base + r.size

/-- The attributes of the region of a line: kind F, shadow, cache policy. -/
def State.kindF (s : State) (line : Nat) : Bool :=
  match s.regionOf (line * 128) with
  | some r => bit r.attr 0
  | none => false

def State.shadowLine (s : State) (line : Nat) : Bool :=
  match s.regionOf (line * 128) with
  | some r => bit r.attr 0 && bit r.attr 1
  | none => false

/-- 0 normal, 1 stream, 2 bypass. -/
def State.policy (s : State) (line : Nat) : Nat :=
  match s.regionOf (line * 128) with
  | some r => bits r.attr 5 4
  | none => 0

/-- H16 of a line number (R418). -/
def h16 (line : Nat) : Nat := bits line 15 0 ^^^ bits line 31 16 ^^^ bits line 40 32

/-- The home slice of a line (R419, R420). -/
def State.homeOf (s : State) (line : Nat) : Nat :=
  match s.regionOf (line * 128) with
  | none => h16 line % 16
  | some r =>
    if bits r.attr 3 2 = 1 then
      match s.partRec r.homePart with
      | some p => p.halves.getD (h16 line % p.halves.length) 0
      | none => h16 line % 16
    else h16 line % 16

/-! ### Stacks -/

/-- A line as the stack holds it. -/
def State.stackLine (s : State) (line : Nat) : Nat := Mem.readLE s.hbm (line * 128) 128

/-- An access of a stack: noted for R457; a stack in self-refresh leaves it, with event 0x0607. -/
def State.useStack (s : State) (line : Nat) : State :=
  match spanOf (line * 128) with
  | none => s
  | some n =>
    let s := { s with mem := { s.mem with stackUse := Map.set s.mem.stackUse n s.mod.islandUs } }
    if s.fld (R.ucHbmState n) 1 0 = 2 && s.unitsRun then
      (s.setFld (R.ucHbmState n) 1 0 1).event n 0 0x0607 [(1, n), (1, evCode 0x0607 1)]
    else s

/-- Sectors of a line written to its stack (R416). -/
def State.writeStack (s : State) (line mask data : Nat) : State :=
  if mask = 0 then s
  else
    let s := s.useStack line
    { s with hbm := (setBitsOf 4 mask).foldl (fun m k =>
        Mem.writeLE m (line * 128 + 32 * k) 32 (bits data (256 * k + 255) (256 * k))) s.hbm }

/-! ### Slices -/

/-- The set a line lies in (R422). -/
def setOf (half line : Nat) : Nat := half * 12288 + line % 12288

/-- The ways of a line's set in a slice. -/
def State.ways (s : State) (half line : Nat) : List Way := Map.getD s.mem.sets (setOf half line) []

/-- Guest copies a slice holds now. -/
def State.guestCount (s : State) (half : Nat) : Nat :=
  ((s.mem.sets.filter fun q => q.1 / 12288 == half).map fun q =>
    (q.2.filter (·.guest)).length).sum

/-- The ways of a set replaced. -/
def State.setWays (s : State) (half line : Nat) (l : List Way) : State :=
  let t := if l = [] then Map.erase s.mem.sets (setOf half line) else Map.set s.mem.sets (setOf half line) l
  let s := { s with mem := { s.mem with sets := t } }
  s.setFld (R.ucGuest half) 17 0 (s.guestCount half)

/-- A way put into its set at the most (or, streaming, the least) recently used position; past 16 ways the
least recently used of the others leaves, its dirty sectors written to the stack (R424, R426). -/
def State.putWay (s : State) (half : Nat) (w : Way) (low : Bool) : State :=
  let rest := (s.ways half w.line).filter fun x => !(x.line == w.line && x.guest == w.guest)
  if 16 ≤ rest.length then
    match rest.getLast? with
    | none => s.setWays half w.line [w]
    | some v =>
      let keep := rest.dropLast
      let s := if v.guest then s else s.writeStack v.line v.dirty v.data
      s.setWays half w.line (if low then keep ++ [w] else w :: keep)
  else s.setWays half w.line (if low then rest ++ [w] else w :: rest)

/-- The home way of a line, if the slice holds one. -/
def State.homeWay (s : State) (half line : Nat) : Option Way :=
  (s.ways half line).find? fun w => w.line == line && !w.guest

/-- The guest copy of a line, if the slice holds one. -/
def State.guestWay (s : State) (half line : Nat) : Option Way :=
  (s.ways half line).find? fun w => w.line == line && w.guest

/-- The 64-byte half-lines that cover some sectors (R425). -/
def halfLines (m : Nat) : Nat :=
  (if m % 4 = 0 then 0 else 3) + (if m / 4 % 4 = 0 then 0 else 12)

/-- A home lookup counted; `first` is false for a later member of a merged read (R436). -/
def State.countLookup (s : State) (half : Nat) (first : Bool) : State :=
  if first then s.count64 (R.ucLookupLo half) (R.ucLookupHi half) 1 else s.count (R.ucMerge half) 1

/-- The sectors of a mask as slice or stack holds them, under the region's policy (R425, R427). -/
def State.readHome (s : State) (line mask : Nat) : State × Nat :=
  let h := s.homeOf line
  let pol := s.policy line
  match s.homeWay h line with
  | some w =>
    if sectorsMinus mask w.valid = 0 then (s.putWay h w (pol == 1), w.data)
    else
      let s := (s.count64 (R.ucMissLo h) (R.ucMissHi h) 1).useStack line
      let fetch := sectorsMinus (halfLines (sectorsMinus mask w.valid)) w.valid
      let w := { w with data := mergeSectors fetch w.data (s.stackLine line), valid := w.valid ||| fetch }
      (s.putWay h w (pol == 1), w.data)
  | none =>
    let s := (s.count64 (R.ucMissLo h) (R.ucMissHi h) 1).useStack line
    let d := s.stackLine line
    if pol = 2 then (s, d)
    else
      let m := halfLines mask
      (s.putWay h { line := line, guest := false, valid := m, dirty := 0, data := mergeSectors m 0 d } (pol == 1), d)

/-- Sectors put into the slice, or into the stack under bypass policy (R427, R476). -/
def State.putHome (s : State) (line mask data : Nat) : State :=
  if mask = 0 then s
  else
    let h := s.homeOf line
    let pol := s.policy line
    if pol = 2 then
      let s := s.writeStack line mask data
      match s.homeWay h line with
      | some w => s.putWay h { w with data := mergeSectors mask w.data data, valid := w.valid ||| mask, dirty := sectorsMinus w.dirty mask } false
      | none => s
    else
      match s.homeWay h line with
      | some w => s.putWay h { w with data := mergeSectors mask w.data data, valid := w.valid ||| mask, dirty := w.dirty ||| mask } (pol == 1)
      | none => s.putWay h { line := line, guest := false, valid := mask, dirty := mask, data := mergeSectors mask 0 data } (pol == 1)

/-! ### Poison (R898 to R900) -/

/-- Lines poisoned and not cleared, in FLT_POISON. -/
def State.setPoison (s : State) (l : List Nat) : State :=
  let s := { s with flt := { s.flt with poison := l } }
  s.setReg R.fltPoison l.length

/-- A line is poisoned at its home, with event 0x1206. -/
def State.poisonLine (s : State) (line : Nat) : State :=
  if s.flt.poison.contains line then s
  else
    let h := s.homeOf line
    (s.setPoison (line :: s.flt.poison)).halfEvent h 0x1206 [(1, h), (8, line * 128)]

/-- A write of all 128 bytes clears the poison, with event 0x1207. -/
def State.unpoison (s : State) (line : Nat) : State :=
  if s.flt.poison.contains line then
    (s.setPoison (s.flt.poison.filter (· != line))).halfEvent (s.homeOf line) 0x1207 [(8, line * 128)]
  else s

/-- Whole sectors written at the home; all four clear the line's poison (R900). -/
def State.writeHome (s : State) (line mask data : Nat) : State :=
  let s := s.putHome line mask data
  if mask = 15 then s.unpoison line else s

/-- Bytes written at the home in sectors that need not be whole: read, merged, written. -/
def State.writeHomeBytes (s : State) (line bm data : Nat) : State :=
  let m := sectorsOf bm
  let r := s.readHome line m
  let s := r.1.putHome line m (mergeBytes bm r.2 data)
  if popCount 128 bm = 128 then s.unpoison line else s

/-! ### Guest copies -/

/-- A copy of sectors installed as a guest copy in the slice of a half, within guest_ways ways of its set; it
replaces an older guest copy of the line (R439, R442, R446). -/
def State.putGuest (s : State) (half line mask data : Nat) : State :=
  let n := s.fld (R.ucCfg half) 3 0
  if n = 0 || s.homeOf line == half then s
  else
    let l := (s.ways half line).filter fun w => !(w.guest && w.line == line)
    let guests := l.filter (·.guest)
    let l := if guests.length < n then l
      else match guests.getLast? with
        | some v => l.filter fun w => w != v
        | none => l
    (s.setWays half line l).putWay half
      { line := line, guest := true, valid := mask, dirty := 0, data := mergeSectors mask 0 data } false

/-- The guest copies of a set cut to `n` ways, the least recently used going first (R444). -/
def cutGuests (n : Nat) (l : List Way) : List Way :=
  let keep := (l.filter (·.guest)).take n
  l.filter fun w => !w.guest || keep.contains w

/-- A half's guest copies beyond guest_ways are discarded. -/
def State.trimGuests (s : State) (half : Nat) : State :=
  let n := s.fld (R.ucCfg half) 3 0
  let t := s.mem.sets.filterMap fun q =>
    if q.1 / 12288 == half then
      let l := cutGuests n q.2
      if l = [] then none else some (q.1, l)
    else some q
  let s := { s with mem := { s.mem with sets := t } }
  s.setFld (R.ucGuest half) 17 0 (s.guestCount half)

/-! ### Directory -/

/-- The directory set of a line. -/
def dirSetOf (half line : Nat) : Nat := half * 16384 + line % 16384

/-- The directory entry of a line. -/
def State.dirEntry (s : State) (line : Nat) : Option DirEntry :=
  (Map.getD s.mem.dir (dirSetOf (s.homeOf line) line) []).find? fun e => e.line == line

/-- The entries of a line's directory set. -/
def State.dirSet (s : State) (line : Nat) : List DirEntry :=
  Map.getD s.mem.dir (dirSetOf (s.homeOf line) line) []

/-- The entries of a directory set replaced. -/
def State.setDirSet (s : State) (line : Nat) (l : List DirEntry) : State :=
  let k := dirSetOf (s.homeOf line) line
  { s with mem := { s.mem with dir := if l = [] then Map.erase s.mem.dir k else Map.set s.mem.dir k l } }

/-- An entry written, most recently used. -/
def State.putDir (s : State) (e : DirEntry) : State :=
  s.setDirSet e.line (e :: (s.dirSet e.line).filter fun x => x.line != e.line)

/-- The entry of a line freed. -/
def State.freeDir (s : State) (line : Nat) : State :=
  s.setDirSet line ((s.dirSet line).filter fun x => x.line != line)

/-- Row of a core in the coarse vector (R430). -/
def rowOf (key : Nat) : Nat := key / 128 * 8 + key % 128 / 9

/-- The cores a coarse vector covers, reserves included (R431). -/
def coarseCores (v : Nat) : List Nat :=
  (setBitsOf 128 v).flatMap fun r => (List.range 9).map fun c => r / 8 * 128 + 9 * (r % 8) + c

/-- The holders an entry names but its owner or forwarder: exact sharers, or every core of the coarse rows. -/
def DirEntry.sharing (e : DirEntry) : List Nat :=
  if e.coarse = 0 then e.sharers else (coarseCores e.coarse).filter fun k => e.owner != some k

/-- Every holder an entry names. -/
def DirEntry.holders (e : DirEntry) : List Nat :=
  (match e.owner with | some o => [o] | none => []) ++ e.sharing

/-- A sharer added; with a fifth core the entry goes coarse and stays so (R430). -/
def DirEntry.addSharer (e : DirEntry) (k : Nat) : DirEntry :=
  if e.coarse != 0 then { e with coarse := putBit e.coarse (rowOf k) true }
  else if e.sharers.contains k then e
  else
    let n := e.sharers.length + (if e.owner.isSome then 1 else 0)
    if 4 ≤ n then
      { e with sharers := [], coarse := maskOf ((k :: e.holders).map rowOf) }
    else { e with sharers := e.sharers ++ [k] }

/-! ### L1s -/

/-- An L1 with nothing in it, at the split of l1_sel 0. -/
def L1.empty : L1 := { split := 0, lines := [], opens := [], wake := [], wakeWait := [] }

/-- The L1 of a physical core. -/
def State.l1 (s : State) (k : Nat) : L1 := Map.getD s.mem.l1 k L1.empty

/-- Wake slots in use in a half. -/
def State.wakeCount (s : State) (half : Nat) : Nat :=
  ((s.mem.l1.filter fun q => q.1 / 128 == half).map fun q => q.2.wake.length).sum

/-- The L1 of a physical core replaced; COR_COH_WAKE.inuse follows. -/
def State.setL1 (s : State) (k : Nat) (c : L1) : State :=
  let s := { s with mem := { s.mem with l1 := Map.set s.mem.l1 k c } }
  s.setFld (R.corCohWake (k / 128)) 9 0 (s.wakeCount (k / 128))

/-- The copy of a line in an L1. -/
def State.l1Line (s : State) (k line : Nat) : Option L1Line := (s.l1 k).lines.find? fun x => x.line == line

/-- A copy replaced in place. -/
def State.putL1 (s : State) (k : Nat) (x : L1Line) : State :=
  let c := s.l1 k
  s.setL1 k { c with lines := c.lines.map fun y => if y.line = x.line then x else y }

/-- A copy dropped. -/
def State.dropL1 (s : State) (k line : Nat) : State :=
  let c := s.l1 k
  s.setL1 k { c with lines := c.lines.filter fun y => y.line != line }

/-- A copy made the most (or least) recently used of its L1. -/
def State.touchL1 (s : State) (k line : Nat) (low : Bool) : State :=
  let c := s.l1 k
  match takeFirst (fun y => y.line == line) c.lines with
  | some (x, rest) => s.setL1 k { c with lines := if low then rest ++ [x] else x :: rest }
  | none => s

/-- Ways of an L1 for an l1_sel (R336). -/
def l1Ways (sel : Nat) : Nat := [4, 8, 16, 24, 32].getD sel 4

/-- The physical core of a logical core, or none (COR_MAP). -/
def State.physOf (s : State) (half lcore : Nat) : Option Nat :=
  let v := bits (s.reg (R.corMap half (lcore / 4))) (8 * (lcore % 4) + 7) (8 * (lcore % 4))
  if v = 0xFF then none else some v

/-- The logical core of a physical core. -/
def State.logicalOf (s : State) (half phys : Nat) : Option Nat :=
  (List.range 72).find? fun l => s.physOf half l == some phys

/-! ### Messages -/

/-- A message with nothing in it but its kind, ends and line. -/
def CohMsg.mk0 (kind : MsgKind) (src dst : Agent) (line : Nat) : CohMsg :=
  { kind := kind, stage := .sent, src := src, dst := dst, line := line, mask := 0, dirty := 0, data := 0,
    bytes := 0, halves := 0, grant := .i, reqs := [], ops := [], olds := [], tag := 0, asked := line, ticket := none,
    floor := false, confirm := false, bad := false }

/-- The half an agent stands in; the hub's engines stand in none. -/
def Agent.half? : Agent → Option Nat
  | .core k => some (k / 128)
  | .home h => some h
  | .array h => some h
  | .conf h => some h
  | .engine _ => none

/-- Message `n`, if it is under way. -/
def State.msg? (s : State) (n : Nat) : Option CohMsg := Map.get? s.mem.net n

/-- The message of a kind at number `n`. -/
def State.msgOf (s : State) (n : Nat) (k : MsgKind) : Option CohMsg :=
  match s.msg? n with
  | some m => if m.kind = k && m.stage != .gate && m.stage != .lost then some m else none
  | none => none

/-- A message replaced. -/
def State.setMsg (s : State) (n : Nat) (m : CohMsg) : State :=
  { s with mem := { s.mem with net := Map.set s.mem.net n m } }

/-- The die an agent stands on. -/
def Agent.die (a : Agent) : Nat := match a.half? with | some h => h / 2 | none => 8

/-- The failed col that a message between two agents would cross first (R557). -/
def State.brokenRoute (s : State) (a b : Agent) : Option Nat :=
  if s.flt.colsFailed = 0 then none else (route a.die b.die).find? (bit s.flt.colsFailed)

/-- The partition an agent works for; 0xFF for none. -/
def State.agentPart (s : State) (a : Agent) : Nat :=
  match a.half? with
  | some h => (s.partOfHalf h).getD 0xFF
  | none => 0xFF

/-- COL_END_LOST of a col counted at the end on a die (R556). -/
def State.lostAt (s : State) (col die n : Nat) : State :=
  match colEndReg col die with
  | some (p, k) => s.count (R.colEndLost p k) n
  | none =>
    match colEndReg col (colFar col die) with
    | some (p, k) => s.count (R.colEndLost p k) n
    | none => s

/-- A message of partition `part` (0xFF for none) from die `from` is not sent across failed col `col` (R557): a col
fault met by that partition (`line` is 1 in its notice: no unit of the partition has failed). -/
def State.unsent (s : State) (col src part engine : Nat) : State :=
  let s := (s.lostAt col src 1).event src 0 0x0807 [(1, part), (1, col), (1, engine)]
  if part < 16 then
    s.notice { kind := 8, code := 0x0807, die := src, unit := 2 * col, parts := 2 ^ part, round := s.rnd.round,
               half := 0, line := 1 }
  else s

/-- A message sent, unless its route crosses a failed col. -/
def State.launch (s : State) (n : Nat) (m : CohMsg) : State :=
  match s.brokenRoute m.src m.dst with
  | none => s.setMsg n { m with stage := .sent }
  | some c =>
    (s.unsent c (enterDie m.src.die (route m.src.die m.dst.die) c) (s.agentPart m.src) 0).setMsg n { m with stage := .lost }

/-- A message put under way at the next number. -/
def State.post (s : State) (m : CohMsg) : State :=
  let n := s.mem.nextMsg
  let s := { s with mem := { s.mem with nextMsg := n + 1 } }
  if m.stage = .sent then s.launch n m else s.setMsg n m

/-- A message received. -/
def State.unpost (s : State) (n : Nat) : State :=
  { s with mem := { s.mem with net := Map.erase s.mem.net n } }

/-- A request of an agent in a half to a home on another peak, or of a hub engine, crosses a col or the
bridge. -/
def crosses (a : Agent) (home : Nat) : Bool :=
  match a.half? with
  | some h => h / 2 != home / 2
  | none => true

/-- Requests of a half outstanding at homes on other peaks. -/
def State.outOf (s : State) (half : Nat) : Nat := Map.getD s.mem.outReq half 0

/-- The count of R466 changed. -/
def State.setOut (s : State) (half n : Nat) : State :=
  { s with mem := { s.mem with outReq := if n = 0 then Map.erase s.mem.outReq half else Map.set s.mem.outReq half n } }

/-- A request sent to the home of its line. At most 32 of a half are outstanding at homes on other peaks; a
further one waits in the half's request queue (R466). -/
def State.request (s : State) (m : CohMsg) : State :=
  let home := s.homeOf m.line
  let m := { m with dst := .home home }
  match m.src.half? with
  | some h =>
    if crosses m.src home then
      if s.outOf h < 32 then (s.setOut h (s.outOf h + 1)).post m
      else s.post { m with stage := .queued }
    else s.post m
  | none => s.post m

/-- Floor reads of a half that are outstanding, and reads that wait at its gate (R151). -/
def State.floorReads (s : State) (h : Nat) : List (Nat × Nat) := Map.getD s.rnd.floorOut h []
def State.atGate (s : State) (h : Nat) : List Nat := Map.getD s.rnd.gateWait h []

/-- Those lists replaced. -/
def State.setFloor (s : State) (h : Nat) (l : List (Nat × Nat)) : State :=
  { s with rnd := { s.rnd with floorOut := if l = [] then Map.erase s.rnd.floorOut h else Map.set s.rnd.floorOut h l } }
def State.setGate (s : State) (h : Nat) (l : List Nat) : State :=
  { s with rnd := { s.rnd with gateWait := if l = [] then Map.erase s.rnd.gateWait h else Map.set s.rnd.gateWait h l } }

/-- The floor gate has room. -/
def State.gateOpen (s : State) (h : Nat) : Bool := (s.floorReads h).length < s.fld R.rndFloor 3 0

/-- A floor read of a half: admitted while fewer than 3 are outstanding, otherwise it waits at the gate (R151;
log entry 45). -/
def State.askFloor (s : State) (h : Nat) (m : CohMsg) : State :=
  if s.gateOpen h && (s.atGate h).isEmpty then (s.setFloor h (s.floorReads h ++ [(m.tag, m.line)])).request m
  else (s.post { m with stage := .gate, dst := .home (s.homeOf m.line) }).setGate h (s.atGate h ++ [s.mem.nextMsg])

/-- A floor read of a half is answered. -/
def State.floorDone (s : State) (h tag line : Nat) : State :=
  match takeFirst (fun p => p == (tag, line)) (s.floorReads h) with
  | some (_, l) => s.setFloor h l
  | none => s

/-- The first queued request of a half. -/
def State.queuedOf (s : State) (half : Nat) : Option (Nat × CohMsg) :=
  s.mem.net.find? fun q => q.2.stage == .queued && q.2.src.half? == some half

/-- A response for a line has reached a half: a request outstanding at another peak is answered, and the
first waiting one is sent. -/
def State.answered (s : State) (half line : Nat) : State :=
  if crosses (.home half) (s.homeOf line) then
    let s := s.setOut half (s.outOf half - 1)
    match s.queuedOf half with
    | some (n, m) => (s.setOut half (s.outOf half + 1)).launch n m
    | none => s
  else s

/-! ### Value at the home (R472) -/

/-- The L1 that holds a line's value: the giver of an open transaction, or the owner in E, M or O. -/
def State.valueHolder (s : State) (line : Nat) : Option Nat :=
  let giver := match Map.get? s.mem.txns line with
    | some t => t.giver
    | none => none
  match giver with
  | some g => some g
  | none =>
    match s.dirEntry line with
    | some e => if e.st = .em || e.st = .o then e.owner else none
    | none => none

/-- The sectors an L1 can answer for a line, from its copy or its wake copy: mask and data. -/
def State.l1Value (s : State) (k line : Nat) : Nat × Nat :=
  match s.l1Line k line with
  | some x => if x.valid != 0 then (x.valid, x.data) else
      match (s.l1 k).wake.find? fun w => w.line == line with
      | some w => (w.valid, w.data)
      | none => (0, 0)
  | none =>
    match (s.l1 k).wake.find? fun w => w.line == line with
    | some w => (w.valid, w.data)
    | none => (0, 0)

/-- A read by value taken in one step by an agent outside the cores (BAR2, DMA, the hub, a matrix streamer):
the value holder's sectors, the others from slice or stack. -/
def State.readCoherent (s : State) (line mask : Nat) : State × Nat :=
  let s := s.countLookup (s.homeOf line) true
  let r := s.readHome line mask
  match s.valueHolder line with
  | some k =>
    let v := s.l1Value k line
    (r.1, mergeSectors v.1 r.2 v.2)
  | none => r

/-- A byte of HBM as a coherent read gives it. -/
def State.deviceByte (s : State) (addr : Nat) : Nat :=
  let line := addr / 128
  let held := match s.valueHolder line with
    | some k =>
      let x := s.l1Value k line
      if bit x.1 (addr / 32 % 4) then some (lineGet x.2 (addr % 128) 1) else none
    | none => none
  match held with
  | some b => b
  | none =>
    match s.homeWay (s.homeOf line) line with
    | some w => if bit w.valid (addr / 32 % 4) then lineGet w.data (addr % 128) 1 else (Mem.read s.hbm addr).toNat
    | none => (Mem.read s.hbm addr).toNat

/-- `n` bytes of HBM from an address, as a coherent read gives them. -/
def State.deviceBytes (s : State) (addr n : Nat) : List Nat :=
  (List.range n).map fun i => s.deviceByte (addr + i)

/-- A line of a range is poisoned. -/
def State.poisoned (s : State) (addr n : Nat) : Bool :=
  s.flt.poison.any fun l => addr < l * 128 + 128 && l * 128 < addr + n

/-- WrNCs of an engine not yet acknowledged, by the engine's tag. -/
def State.writesOut (s : State) (tag : Nat) : Nat := Map.getD s.mem.wrOut tag 0

/-- That number changed. -/
def State.setWrites (s : State) (tag n : Nat) : State :=
  { s with mem := { s.mem with wrOut := if n = 0 then Map.erase s.mem.wrOut tag else Map.set s.mem.wrOut tag n } }

/-- Tags of the engines' writes: BAR2 writes of a function, host and ring DMA engines, inbound ring requests,
the hub, a pass, a census, a cairn readout, a half's matrix tile. -/
def tagBar2 (f : Nat) : Nat := 0x100000 + f
def tagHostDma (k : Nat) : Nat := 0x200000 + k
def tagRingDma (e : Nat) : Nat := 0x300000 + e
def tagHub : Nat := 0x400000
def tagTarn : Nat := 0x500000
def tagCensus : Nat := 0x600000
def tagCairn : Nat := 0x700000
def tagRingIn (i : Nat) : Nat := 0x800000 + i * 2
def tagTile (half t : Nat) : Nat := 0x800001 + (t * 16 + half) * 2

/-- A write of an engine sent as WrNCs, one for each line of a byte string. -/
def State.writeDevice (s : State) (src : Agent) (tag halves addr : Nat) (bytes : List Nat) : State :=
  let first := addr / 128
  let last := (addr + bytes.length - 1) / 128
  if bytes = [] then s
  else (List.range (last + 1 - first)).foldl (fun s i =>
    let l := first + i
    let lo := max addr (l * 128)
    let hi := min (addr + bytes.length) (l * 128 + 128)
    let seg := (bytes.drop (lo - addr)).take (hi - lo)
    (s.setWrites tag (s.writesOut tag + 1)).request { CohMsg.mk0 .wrNC src (.home 0) l with
      bytes := ones (hi - l * 128 - 1) (lo - l * 128), data := leVal seg * 2 ^ (8 * (lo - l * 128)),
      mask := sectorsOf (ones (hi - l * 128 - 1) (lo - l * 128)), halves := halves, tag := tag }) s

/-- The next BAR2 write of a function, once its earlier ones are performed (R701). -/
def State.nextBar2 (s : State) (tag : Nat) : State :=
  if tag < 0x100000 || 0x200000 ≤ tag || s.writesOut tag != 0 then s
  else
    match Map.getD s.hst.bar2Out (tag - 0x100000) [] with
    | [] => s
    | (a, b) :: rest =>
      let q := if rest = [] then Map.erase s.hst.bar2Out (tag - 0x100000) else Map.set s.hst.bar2Out (tag - 0x100000) rest
      { s with hst := { s.hst with bar2Out := q } }.writeDevice (.engine 0) tag 0 a b

end Sys2Proof.Machine
end

