-- ==== Sys2Proof/Machine/Outside.lean ====
section
/-! DEFINITION. Requests that leave the package: the system window and its map entries (R703 to R708), writes
to host memory, MSI-X messages (R702), and this member's requests to the ring (R752, R756, R757, R759). -/

namespace Sys2Proof.Machine

/-! ### Hosts -/

/-- Key of a function. -/
def funcKey (port func : Nat) : Nat := port * 64 + func

/-- A function nobody has enumerated. -/
def HostFunc.none : HostFunc := { enabled := false, msix := false, table := [], pend := [] }

/-- The function of a port. -/
def State.hostFunc (s : State) (port func : Nat) : HostFunc := Map.getD s.hst.funcs (funcKey port func) HostFunc.none

/-- The function replaced. -/
def State.setFunc (s : State) (port func : Nat) (f : HostFunc) : State :=
  { s with hst := { s.hst with funcs := Map.set s.hst.funcs (funcKey port func) f } }

/-- A function exists and is enabled. -/
def State.funcOk (s : State) (port func : Nat) : Bool := (s.hostFunc port func).enabled

/-- A port runs in split mode (R681): the setting of its last boot. -/
def State.splitPort (s : State) (port : Nat) : Bool := Map.getD s.hst.split port false

/-- The endpoint of a function: 1 for endpoint b (R694). -/
def State.endpointOf (s : State) (port func : Nat) : Nat := if s.splitPort port && 32 ≤ func then 1 else 0

/-- The link of a port's endpoint is up (HPT_LINKn). -/
def State.linkUp (s : State) (port ep : Nat) : Bool := s.flag (R.hptLink port) (8 * ep)

/-- Key of a host address in the model's image of host memory. -/
def hostKey (port addr : Nat) : Nat := port * 2 ^ 64 + addr % 2 ^ 64

/-- A posted write to host memory. -/
def State.hostWrite (s : State) (port addr : Nat) (bytes : List Nat) : State :=
  { s with host := Mem.writeBytes s.host (hostKey port addr) bytes }

/-- Bytes of host memory as the model's image has them. -/
def State.hostBytes (s : State) (port addr n : Nat) : List Nat := Mem.readBytes s.host (hostKey port addr) n

/-- Word `w` of entry `v` of a function's MSI-X table. -/
def HostFunc.word (f : HostFunc) (v w : Nat) : Nat := (Map.getD f.table (v * 4 + w) (if w = 3 then 1 else 0)).toNat

/-- The message of a vector leaves: its data written to its address. -/
def State.msixMessage (s : State) (port func v : Nat) : State :=
  let f := s.hostFunc port func
  s.hostWrite port (f.word v 0 + 2 ^ 32 * f.word v 1) (leBytes 4 (f.word v 2))

/-- A vector of a function is sent (R702): kept pending while masked, discarded and counted while MSI-X Enable
is 0. -/
def State.sendVector (s : State) (port func v : Nat) : State :=
  let f := s.hostFunc port func
  if !f.enabled || !f.msix then s.count R.hptMsiDrop 1
  else if bit (f.word v 3) 0 then
    s.setFunc port func { f with pend := if f.pend.contains v then f.pend else f.pend ++ [v] }
  else s.msixMessage port func v

/-- The control function (R696): port and PF function number. -/
def State.ctlPort (s : State) : Nat := s.fld R.hptCtlFunc 0 0
def State.ctlFunc (s : State) : Nat := if s.flag R.hptCtlFunc 1 then 32 else 0

/-- A vector of the control function is sent. -/
def State.sendCtl (s : State) (v : Nat) : State := s.sendVector s.ctlPort s.ctlFunc v

/-! ### The system window -/

/-- Base and end of the system window (R330, R703). -/
def swmLo : Nat := 0x800000000000
def swmHi : Nat := 0x804000000000

/-- What a request to the window meets. -/
inductive SwmHit
  | miss
  | hostError (port func : Nat)
  | ok (port func : Nat) (pasid : Option Nat) (addr : Nat)
  deriving DecidableEq, Repr

/-- The 16 bytes of map entry `p`: cached, or read from HBM and cached while the cache holds fewer than 1,024
(R706); none where they do not lie wholly in HBM. -/
def State.mapEntry (s : State) (p : Nat) : State × Option Nat :=
  match Map.get? s.hst.swmCache p with
  | some e => (s, some e)
  | none =>
    let a := s.pair R.hptSwmBaseLo R.hptSwmBaseHi + 16 * p
    if s.inHbm a && s.inHbm (a + 15) then
      let e := leVal (s.deviceBytes a 16)
      (if s.hst.swmCache.length < 1024 then { s with hst := { s.hst with swmCache := Map.set s.hst.swmCache p e } } else s,
        some e)
    else (s, none)

/-- A request at a window address looked up (R704, R705, R707). -/
def State.swmLookup (s : State) (addr : Nat) (write : Bool) : State × SwmHit :=
  let p := (addr - swmLo) / 65536
  if s.fld R.hptSwmPages 22 0 ≤ p then (s, .miss)
  else
    match s.mapEntry p with
    | (s, none) => (s, .miss)
    | (s, some e) =>
      let flags := bits e 71 64
      let port := bits e 66 66
      let func := bits e 79 72
      if !bit flags 0 || bits flags 7 4 != 0 || bits e 95 80 != 0 || bits e 127 116 != 0 ||
          !(func < 64 && s.funcOk port func) || (write && !bit flags 1) then (s, .miss)
      else if !s.linkUp port (s.endpointOf port func) then (s, .hostError port func)
      else (s, .ok port func (if bit flags 3 then some (bits e 115 96) else none)
              ((bits e 63 0 + addr % 65536) % 2 ^ 64))

/-- A read request sent to a host. -/
def State.hostAsk (s : State) (r : HostRead) : State :=
  { s with hst := { s.hst with reads := Map.set s.hst.reads s.hst.nextRead r, nextRead := s.hst.nextRead + 1 } }

/-- A window miss or host error of a requester that is no core: counted, and recorded once a round for each
requester (R708). Requesters: 0 to 7 a host DMA engine, 32 hub accesses, 33 Tarn; `status` is the completion's, 4 where
none came in time and 5 where the link is down. The codes recorded for both are free (log entry 31). -/
def State.windowFail (s : State) (unit : Nat) (hit : SwmHit) (page : Nat) (status : Nat := 5) : State :=
  match hit with
  | .miss => (s.addFld R.hptErr 31 16 1).oncePerRound 0x0D06 unit (·.hubEvent 0x0D06 [(1, evCode 0x0D06 unit), (4, page)])
  | .hostError port func => (s.addFld R.hptErr 15 0 1).oncePerRound 0x0D05 unit
      (·.hubEvent 0x0D05 [(1, evCode 0x0D05 unit), (1, port), (1, func), (1, evCode 0x0D05 (0x100 + status))])
  | .ok .. => s

/-- Whether an address lies in the window. -/
def inSwm (addr : Nat) : Bool := swmLo ≤ addr && addr < swmHi

/-- A read by the hub of `n` bytes at a device address that lies in HBM or the system window: the bytes, or
none on a miss, an error, poison or an address of neither kind. -/
def State.hubRead (s : State) (addr n : Nat) : State × Option (List Nat) :=
  if s.inHbm addr && spanOf addr == spanOf (addr + n - 1) then
    if s.poisoned addr n then (s, none) else (s, some (s.deviceBytes addr n))
  else if inSwm addr && inSwm (addr + n - 1) then
    let first := addr / 65536
    let last := (addr + n - 1) / 65536
    (List.range (last + 1 - first)).foldl (fun acc i =>
      match acc with
      | (s, none) => (s, none)
      | (s, some bs) =>
        let lo := max addr ((first + i) * 65536)
        let hi := min (addr + n) ((first + i + 1) * 65536)
        match s.swmLookup lo false with
        | (s, .ok port _ _ a) => (s, some (bs ++ s.hostBytes port a (hi - lo)))
        | (s, hit) => (s.windowFail 32 hit ((lo - swmLo) / 65536), none)) (s, some [])
  else (s, none)

/-- A write by the hub at a device address (HBM as WrNC, the system window as posted writes). -/
def State.hubWrite (s : State) (addr : Nat) (bytes : List Nat) : State :=
  if s.inHbm addr then s.writeDevice (.engine 0) tagHub 0 addr bytes
  else if inSwm addr then
    match s.swmLookup addr true with
    | (s, .ok port _ _ a) => s.hostWrite port a bytes
    | (s, hit) => s.windowFail 32 hit ((addr - swmLo) / 65536)
  else s

/-! ### The ring: requests of this member -/

/-- Ring windows (R330). -/
def ringLo : Nat := 0x100000000000
def ringStep : Nat := 0x004000000000

/-- The ring window an address lies in, with the offset. -/
def ringOf (addr : Nat) : Option (Nat × Nat) :=
  if ringLo ≤ addr && addr < ringLo + 32 * ringStep then some ((addr - ringLo) / ringStep, (addr - ringLo) % ringStep)
  else none

/-- The ring map's entry of a member (RNG_MAP_m): present, path east, path west, stopped, incarnation. -/
def State.inMap (s : State) (m : Nat) : Bool := s.flag (R.rngMap m) 0
def State.pathE (s : State) (m : Nat) : Bool := s.flag (R.rngMap m) 1
def State.pathW (s : State) (m : Nat) : Bool := s.flag (R.rngMap m) 2
def State.mapInc (s : State) (m : Nat) : Nat := s.fld (R.rngMap m) 31 16

/-- This member's id and incarnation. -/
def State.myId (s : State) : Nat := s.fld R.rngId 4 0
def State.myInc (s : State) : Nat := s.fld R.rngId 31 16

/-- Outstanding requests of this member to a target. -/
def State.pairTxns (s : State) (m : Nat) : List (Nat × RTxn) := s.rng.txns.filter fun q => q.2.sent && q.2.pkt.dst == m

/-- The shorter path to a member, east when equal, or the only one (R752). -/
def State.shortDir (s : State) (m : Nat) : Nat :=
  if s.pathE m && (!s.pathW m || s.fld (R.rngMap m) 8 4 ≤ s.fld (R.rngMap m) 13 9) then 0 else if s.pathW m then 1 else 0

/-- The direction of a request to a member (R752): that of the pair while one is outstanding, else the shorter path. -/
def State.ringDir (s : State) (m : Nat) : Nat :=
  match s.pairTxns m with
  | (_, t) :: _ => t.dir
  | [] => s.shortDir m

/-- A packet of this member to a target. -/
def RPkt.mk0 (kind : PktKind) (src dst srcInc dstInc offset : Nat) : RPkt :=
  { kind := kind, src := src, dst := dst, retry := false, mc := false, mask := 0, srcInc := srcInc,
    dstInc := dstInc, seq := 0, tag := 0, halfMask := 0, offset := offset, status := 0, hops := 0, bytes := 0,
    data := 0 }

/-- A request queued for the ring; sequence and tag are given when it is sent. -/
def State.ringAsk (s : State) (who : Asker) (p : RPkt) : State :=
  let k := s.rng.nextTag
  let t : RTxn := { pkt := p, who := who, dir := s.ringDir p.dst, tries := 0, sent := false }
  { s with rng := { s.rng with txns := Map.set s.rng.txns k t, queue := s.rng.queue ++ [k], nextTag := k + 1 } }

/-- A LINK_LOST completion counted (R757); event 0x0E07, once a round and target with the round's count, is recorded at
the round's end. Causes: 1 STALE or REFUSED, 2 another incarnation, 3 absent or departed, 4 own departure, 5 tries. -/
def State.lostCount (s : State) (m cause : Nat) : State :=
  let s := s.count R.rngLost 1
  let n := Map.getD s.rng.lostNoted m 0 / 256
  { s with rng := { s.rng with lostNoted := Map.set s.rng.lostNoted m (cause + 256 * (n + 1)) } }

end Sys2Proof.Machine
end

