-- ==== Sys2Proof/Machine/CoreMem.lean ====
section
/-! DEFINITION. The memory instructions of a core (R300, R304 to R310, R330 to R353), the L1's side of an
access (R336 to R338, R481), and shadow reads (R512 to R516). A group stays at its memory instruction until
every lane's access is answered (log entry 32). -/

namespace Sys2Proof.Machine

/-! ### Operand forms -/

/-- Bytes of a size code (R300): u8, s8, u16, s16, b32, b64, b128. -/
def sizeBytes (c : Nat) : Nat := [1, 1, 2, 2, 4, 8, 16].getD c 4

/-- Registers of a size code. -/
def sizeRegs (c : Nat) : Nat := [1, 1, 1, 1, 1, 2, 4].getD c 1

/-- The modifier of LD and ST: size, cache operation, and a scope only with vol. -/
def memModOk (m : Nat) : Bool :=
  decide (bits m 2 0 < 7) && decide (bits m 4 3 < 3) && (bit m 5 || bits m 7 6 == 0)

/-- An M-format instruction. -/
def memSpec (d b c : Field) (aRegs : Nat) (modOk commit load : Bool) : OpSpec :=
  { OpSpec.alu d (.regs aRegs) b c modOk with fmt := .m, commit := commit, load := load }

/-- Address of a lane: the pair a plus the offset. -/
def Group.addr (x : Group) (f : CoreFields) (lane : Nat) : Nat :=
  unsigned 64 ((x.regs' lane f.a 2 : Int) + f.offset)

/-- Window address of a lane of LDS, STS and ATOMS. -/
def Group.lsAddr (x : Group) (f : CoreFields) (lane : Nat) : Nat :=
  unsigned 32 ((x.reg lane f.a : Int) + f.offset)

/-- A global address the instruction may use (R307, R330). -/
def State.addrOk (s : State) (b : Blk) (a : Nat) : Bool :=
  s.inHbm a || (inSwm a && b.sys) || ((ringOf a).isSome && b.ring)

/-- Distinct sectors that accesses touch (R334). -/
def sectorCount (ps : List Piece) : Nat := ((ps.map fun p => p.addr / 32).eraseDups).length

/-- The steps of R334 counted in COR_GSECT. -/
def State.chargeSectors (s : State) (h : Nat) (ps : List Piece) : State := s.count (R.corGsect h) (sectorCount ps)

/-- Bytes of a value widened to its registers (R301). -/
def widen (width : Nat) (sext : Bool) (v : Nat) : Nat :=
  if sext then unsigned 32 (signed (8 * width) v) else v

/-! ### Finishing -/

/-- The value an access was answered with. -/
def Piece.value (p : Piece) : Nat := match p.st with | .done v => v | _ => 0

/-- The registers of a complete memory instruction written. -/
def Group.results (x : Group) (op : MemOp) : Group :=
  match op.kind with
  | .st => x
  | .gather => op.pieces.foldl (fun (y : Group) (p : Piece) => y.setReg p.lane (op.d + p.elem) p.value) x
  | _ => op.pieces.foldl (fun (y : Group) (p : Piece) =>
      y.setRegs p.lane op.d (widen op.width op.sext p.value) ((op.width + 3) / 4)) x

/-- Registers a memory instruction writes in each lane. -/
def MemOp.span (op : MemOp) : Nat :=
  match op.kind with | .gather => op.n | .st => 0 | _ => (op.width + 3) / 4

/-- A group's memory instruction is complete: results written, shadow-served results marked pending (R314), pc
past it, GPROG 0 after a gather (R305). -/
def Group.finish (x : Group) (op : MemOp) : Group :=
  let y := x.results op
  let y := if op.mark && op.d != 255 && !x.unconf.isEmpty then
      { y with pendRegs := (List.range op.span).foldl (fun l i => addMark l (op.d + i)) y.pendRegs } else y
  { y with pc := y.pc + op.len, memop := none, wait := .ready,
           gprog := if op.kind = MemKind.gather then [] else y.gprog }

/-- An access that is done. -/
def Piece.isDone (p : Piece) : Bool := match p.st with | .done _ => true | _ => false

/-- The resumable fault of an access. -/
def Piece.faultCode (p : Piece) : Nat := match p.st with | .fault c => c | _ => 0

/-- The group stops on a resumable fault (R355): a gather's threads keep what R350 and R351 give. -/
def Group.stopMem (x : Group) (op : MemOp) : Group :=
  let code := ((op.pieces.find? fun p => p.faultCode != 0).map Piece.faultCode).getD 0
  match op.kind with
  | .gather =>
    let lanes := (op.pieces.map (·.lane)).eraseDups
    let y := lanes.foldl (fun (y : Group) (l : Nat) =>
      let mine := op.pieces.filter fun p => p.lane == l
      let k := ((mine.filter fun p => !p.isDone).map (·.elem)).foldl min op.n
      let y := (mine.filter fun p => p.elem < k).foldl (fun (y : Group) (p : Piece) =>
        match p.st with | .done v => y.setReg l (op.d + p.elem) v | _ => y) y
      { y with gprog := Map.set y.gprog l k }) x
    let keep := op.pieces.filter fun p => Map.getD y.gprog p.lane 0 ≤ p.elem
    { y with wait := .fault code, memop := some { op with pieces := keep } }
  | _ => { x with wait := .fault code, memop := some op }

/-- Where the group's memory instruction stands after its accesses have moved. -/
def State.progress (s : State) (g : GroupRef) : State :=
  match s.group? g with
  | none => s
  | some x =>
    match x.memop with
    | none => s
    | some op =>
      if op.pieces.all Piece.isDone then s.setGroup g (x.finish op)
      else if op.pieces.all (fun p => p.isDone || p.faultCode != 0) then s.setGroup g (x.stopMem op)
      else s

/-- The accesses of a group's memory instruction changed by `fn`. -/
def State.mapPieces (s : State) (g : GroupRef) (fn : Piece → Piece) : State :=
  match s.group? g with
  | none => s
  | some x =>
    match x.memop with
    | none => s
    | some op => s.setGroup g { x with memop := some { op with pieces := op.pieces.map fn } }

/-- A line's accesses that are out are answered from the line's data (a store or atomic answer carries none).
-/
def State.answerLine (s : State) (g : GroupRef) (tag line data : Nat) : State :=
  match s.group? g with
  | none => s
  | some x =>
    match x.memop with
    | none => s
    | some op =>
      if op.tag = tag then
        (s.mapPieces g fun p =>
          if p.addr / 128 = line && p.st == .out then
            { p with st := .done (if op.kind = .st then 0 else lineGet data (p.addr % 128) p.len) }
          else p).progress g
      else s

/-- A line's accesses that are out meet a resumable fault. -/
def State.faultLine (s : State) (g : GroupRef) (tag line code : Nat) : State :=
  match s.group? g with
  | none => s
  | some x =>
    match x.memop with
    | none => s
    | some op =>
      if op.tag = tag then
        (s.mapPieces g fun p => if p.addr / 128 = line && p.st == .out then { p with st := .fault code } else p).progress g
      else s

/-! ### The L1's side -/

/-- Key of the L1 of a group's core, while its logical core is mapped. -/
def State.l1Key (s : State) (g : GroupRef) : Nat := coreKey g.half ((s.physOf g.half g.core).getD 127)

/-- Whether a line is open in an L1 (R482). -/
def L1.isOpen (c : L1) (line : Nat) : Bool := c.opens.any fun q => q.1 == line

/-- A copy may be replaced (R465). -/
def L1.replaceable (c : L1) (x : L1Line) : Bool :=
  (x.st == .s || x.st == .e || x.st == .m || x.st == .o || x.st == .f) && !x.hold && !x.filling && !c.isOpen x.line

/-- The L1 replaces a copy: silently from S, by a Put otherwise; the copy then stands in MI_A, outside the
ways of its set, until its PutAck (R481, log entry 33). -/
def State.replace (s : State) (k : Nat) (x : L1Line) : State :=
  let put (kind : MsgKind) : State :=
    (s.putL1 k { x with st := .miA, left := x.st }).request
      { CohMsg.mk0 kind (.core k) (.home 0) x.line with mask := x.dirty, dirty := x.dirty, data := x.data }
  match x.st with
  | .s => s.dropL1 k x.line
  | .e => put .putE
  | .f => put .putF
  | .m => put .putM
  | .o => put .putM
  | _ => s

/-- A way of the line's set made free: none is needed, or the least recently used copy that may leave leaves.
-/
def State.makeRoom (s : State) (k line : Nat) : State × Bool :=
  let c := s.l1 k
  let inSet := c.lines.filter fun x => x.line % 64 == line % 64 && x.st != .miA && x.st != .iiA
  if inSet.length < l1Ways c.split then (s, true)
  else
    match inSet.reverse.find? c.replaceable with
    | some v => (s.replace k v, true)
    | none => (s, false)

/-- A line not held asked for: GetS to IS_D or GetM to IM_D, with the sectors asked (R468). -/
def State.missLine (s : State) (k line mask : Nat) (own low : Bool) : State :=
  match s.makeRoom k line with
  | (s, false) => s
  | (s, true) =>
    let c := s.l1 k
    let x : L1Line := { line := line, st := if own then .imD else .isD, left := .i, valid := 0, dirty := 0,
                        data := 0, filling := false, hold := false, deferred := [] }
    let s := s.setL1 k { c with lines := if low then c.lines ++ [x] else x :: c.lines }
    s.request { CohMsg.mk0 (if own then .getM else .getS) (.core k) (.home 0) line with mask := mask }

/-- A Fill for sectors a held line lacks. -/
def State.fillLine (s : State) (k : Nat) (x : L1Line) (mask : Nat) : State :=
  if x.filling then s
  else (s.putL1 k { x with filling := true }).request
    { CohMsg.mk0 .fill (.core k) (.home 0) x.line with mask := mask }

/-- The sectors some accesses touch on a line. -/
def maskOfPieces (ps : List Piece) : Nat := ps.foldl (fun m p => m ||| sectorBit p.addr) 0

/-- A copy can be read: any stable state, SM_G and OM_G (R481). -/
def L1St.readable : L1St → Bool
  | .s | .e | .m | .o | .f | .smG | .omG => true
  | _ => false

/-- The accesses of a group on one line that are not answered and not out. -/
def MemOp.idleOn (op : MemOp) (line : Nat) : List Piece :=
  op.pieces.filter fun p => p.addr / 128 == line && p.st == .idle

/-- The accesses on a line moved from idle to `out`. -/
def State.sendOut (s : State) (g : GroupRef) (line : Nat) : State :=
  s.mapPieces g fun p => if p.addr / 128 = line && p.st == .idle then { p with st := .out } else p

/-- The idle accesses on a line that lie in the given sectors read from a line's data. -/
def State.readOut (s : State) (g : GroupRef) (line mask data : Nat) : State :=
  s.mapPieces g fun p =>
    if p.addr / 128 = line && p.st == .idle && bit mask (p.addr / 32 % 4) then
      { p with st := .done (lineGet data (p.addr % 128) p.len) } else p

/-- The idle accesses of an ordinary load on one line served by the L1. -/
def State.loadLine (s : State) (g : GroupRef) (op : MemOp) (line : Nat) : State :=
  let k := s.l1Key g
  let ps := op.idleOn line
  let want := maskOfPieces ps
  match s.l1Line k line with
  | none => s.missLine k line want false (op.cop == 2)
  | some x =>
    if x.st.readable then
      let s := (s.readOut g line x.valid x.data).touchL1 k line (op.cop == 2)
      let lack := sectorsMinus want x.valid
      if lack = 0 || x.st == .smG || x.st == .omG then s else s.fillLine k x lack
    else s

/-- The sectors of a line that a store's accesses cover whole. -/
def coveredSectors (ps : List Piece) : Nat :=
  let bm := ps.foldl (fun m p => m ||| ones (p.addr % 128 + p.len - 1) (p.addr % 128)) 0
  maskOf ((List.range 4).filter fun k => bits bm (32 * k + 31) (32 * k) == 2 ^ 32 - 1)

/-- Bytes of a store's accesses laid over a line, later lanes last (R331). -/
def storeBytes (ps : List Piece) (data : Nat) : Nat :=
  ps.foldl (fun d p => linePut d (p.addr % 128) p.len p.val) data

/-- The idle accesses of an ordinary store on one line: written where the line is in M or E and the sector is
held or covered, otherwise asked for (R337, R468, R481). -/
def State.storeLine (s : State) (g : GroupRef) (op : MemOp) (line : Nat) : State :=
  let k := s.l1Key g
  let ps := op.idleOn line
  let want := maskOfPieces ps
  match s.l1Line k line with
  | none => s.missLine k line want true (op.cop == 2)
  | some x =>
    match x.st with
    | .m | .e =>
      let can := x.valid ||| coveredSectors ps
      let now := ps.filter fun p => bit can (p.addr / 32 % 4)
      let m := maskOfPieces now
      let lack := sectorsMinus want can
      let x1 := if now = [] then x else
        { x with st := .m, data := storeBytes now x.data, valid := x.valid ||| m, dirty := x.dirty ||| m }
      let s := (s.putL1 k x1).touchL1 k line (op.cop == 2)
      let s := s.mapPieces g fun p => if now.contains p then { p with st := .done 0 } else p
      let c := s.l1 k
      let s := if now = [] || !c.isOpen line then s
        else
          let s := s.setL1 k { c with opens := c.opens.map fun q => if q.1 = line then (q.1, q.2 ++ [g.slot]) else q }
          match s.group? g with
          | some y => s.setGroup g { y with storesOut := y.storesOut + 1 }
          | none => s
      if lack = 0 then s else s.fillLine k x1 lack
    | .s | .f =>
      if x.filling then s
      else (s.putL1 k { x with st := .smG, left := x.st }).request
        { CohMsg.mk0 .upg (.core k) (.home 0) line with mask := sectorsMinus want x.valid }
    | .o =>
      if x.filling then s
      else (s.putL1 k { x with st := .omG, left := .o }).request
        { CohMsg.mk0 .upg (.core k) (.home 0) line with mask := sectorsMinus want x.valid }
    | _ => s

/-- A load served at the home (L1 bypass, or volatile at device or system scope): RdNC (R338, R468, R508). -/
def State.loadHome (s : State) (g : GroupRef) (op : MemOp) (line : Nat) : State :=
  let want := maskOfPieces (op.idleOn line)
  let floor := op.atHome && popCount 4 want == 1
  let m := { CohMsg.mk0 .rdNC (.core (s.l1Key g)) (.home 0) line with mask := want, tag := op.tag, floor := floor }
  if floor then (s.sendOut g line).askFloor g.half m else (s.sendOut g line).request m

/-- A store sent to the home: WrNC (R468, R509). An L1-bypass store also invalidates the sectors it writes in
the core's own L1; a dirty one leaves by the Recall that the WrNC causes (log entry 34). -/
def State.storeHome (s : State) (g : GroupRef) (op : MemOp) (line : Nat) : State :=
  let ps := op.idleOn line
  let k := s.l1Key g
  let bm := ps.foldl (fun m p => m ||| ones (p.addr % 128 + p.len - 1) (p.addr % 128)) 0
  let s := match s.l1Line k line with
    | some x => if op.cop = 1 && x.st.readable then
        s.putL1 k { x with valid := sectorsMinus x.valid (sectorsMinus (sectorsOf bm) x.dirty) } else s
    | none => s
  (s.sendOut g line).request { CohMsg.mk0 .wrNC (.core k) (.home 0) line with
    mask := sectorsOf bm, bytes := bm, data := storeBytes ps 0, tag := op.tag }

/-- The operations of an ATOM on one line sent to its home, in lane order (R332, R510). -/
def State.atomHome (s : State) (g : GroupRef) (op : MemOp) (line : Nat) : State :=
  let ps := op.idleOn line
  (s.sendOut g line).request { CohMsg.mk0 .atom (.core (s.l1Key g)) (.home 0) line with
    mask := maskOfPieces ps, tag := op.tag,
    ops := ps.map fun p => { lane := p.lane, off := p.addr % 128, op := op.atomOp, len := p.len,
                             uns := op.uns, val := p.val, cmp := p.cmp } }

/-- The accesses on one line of the system window (R364 to R366). -/
def State.windowLine (s : State) (g : GroupRef) (op : MemOp) (line : Nat) : State :=
  let ps := op.idleOn line
  let store := op.kind == .st
  match s.swmLookup (line * 128) store with
  | (s, .miss) => s.mapPieces g fun p => if p.addr / 128 = line && p.st == .idle then { p with st := .fault 1 } else p
  | (s, .hostError ..) => s.mapPieces g fun p => if p.addr / 128 = line && p.st == .idle then { p with st := .fault 2 } else p
  | (s, .ok port func pasid a) =>
    if store then
      let s := ps.foldl (fun s p => s.hostWrite port (a + p.addr % 128) (leBytes p.len p.val)) s
      s.mapPieces g fun p => if p.addr / 128 = line && p.st == .idle then { p with st := .done 0 } else p
    else
      (s.sendOut g line).hostAsk { who := .core g.half g.core g.slot op.tag line, port := port, func := func,
                                   pasid := pasid, addr := a, len := 128 }

/-- The accesses on one line of a ring window (R367, R759, R760). -/
def State.ringLine (s : State) (g : GroupRef) (op : MemOp) (line : Nat) : State :=
  let ps := op.idleOn line
  let store := op.kind == .st
  let lost (s : State) : State :=
    s.mapPieces g fun p => if p.addr / 128 = line && p.st == .idle then { p with st := .fault 3 } else p
  match ringOf (line * 128) with
  | none => s
  | some (m, o) =>
    let bm := ps.foldl (fun b p => b ||| ones (p.addr % 128 + p.len - 1) (p.addr % 128)) 0
    if m = s.myId && s.rng.switchesOpen then
      let dev := s.fld R.rngIn 8 0 * 2 ^ 30 + o
      let ok := o < s.fld R.rngIn 24 16 * 2 ^ 30 && s.inHbm dev && s.flag R.rngIn (if store then 29 else 28)
      if !ok then lost (s.lostCount m 1)
      else if store then
        (s.sendOut g line).request { CohMsg.mk0 .wrNC (.core (s.l1Key g)) (.home 0) (dev / 128) with
          mask := sectorsOf bm, bytes := bm, data := storeBytes ps 0, tag := op.tag, asked := line }
      else
        let r := s.readCoherent (dev / 128) (maskOfPieces ps)
        r.1.readOut g line 15 r.2
    else if !s.inMap m || s.rng.duplicate then lost (s.lostCount m 3)
    else
      let p := RPkt.mk0 (if store then .put else .get) s.myId m s.myInc (s.mapInc m) o
      (s.sendOut g line).ringAsk (.core g.half g.core g.slot op.tag line)
        { p with mask := maskOfPieces ps, bytes := bm, data := if store then storeBytes ps 0 else 0 }

/-- The constant cache of a core holds a line (R343, R344). -/
def Core.const? (c : Core) (line : Nat) : Option Nat := (c.constLines.find? fun q => q.1 == line).map (·.2)

/-- A line put into the constant cache: 512 lines, least recently used replacement. -/
def Core.putConst (c : Core) (line data : Nat) : Core :=
  { c with constLines := ((line, data) :: c.constLines.filter fun q => q.1 != line).take 512 }

/-- An entry put into the descriptor cache: 128 entries of 64 bytes. -/
def Core.putDesc (c : Core) (e data : Nat) : Core :=
  { c with descLines := ((e, data) :: c.descLines.filter fun q => q.1 != e).take 128 }

/-- A kind-5 fault of a half: it read a poisoned line (R899). -/
def State.poisonFault (s : State) (h line : Nat) : State :=
  s.notice { kind := 5, code := 0x1206, die := h / 2, unit := h % 2, parts := s.partsHolding (· == h),
             round := s.rnd.round, half := h, line := line }

/-- An entry that the descriptor cache of a core lacks lies in a poisoned line. -/
def State.descPoison (s : State) (half core e : Nat) : Bool :=
  !((s.core half core).descLines.any fun q => q.1 == e) && s.poisoned (e * 64) 64

/-- 64 bytes through the descriptor cache of a core (R343): held, or read at the home and kept. -/
def State.descRead (s : State) (half core e : Nat) : State × Nat :=
  let c := s.core half core
  match c.descLines.find? fun q => q.1 == e with
  | some q => (s.setCore half core (c.putDesc e q.2), q.2)
  | none =>
    let d := leVal (s.deviceBytes (e * 64) 64)
    (s.setCore half core (c.putDesc e d), d)

/-- The accesses of an LDC on one HBM line: the descriptor cache inside the argument block, the constant cache
elsewhere, filled through the L1 (R344, R468). -/
def State.constLine (s : State) (g : GroupRef) (op : MemOp) (line : Nat) : State :=
  match s.group? g with
  | none => s
  | some x =>
    match s.blk? g x.block with
    | none => s
    | some b =>
      let inArgs (p : Piece) : Bool := b.argBase ≤ p.addr && p.addr + p.len ≤ b.argBase + b.argLen
      let ps := op.idleOn line
      let s := (ps.filter inArgs).foldl (fun s p =>
        if s.descPoison g.half g.core (p.addr / 64) then
          (s.poisonFault g.half line).mapPieces g fun q => if q = p then { q with st := .out } else q
        else
        let r := s.descRead g.half g.core (p.addr / 64)
        r.1.mapPieces g fun q => if q = p then { q with st := .done (bits r.2 (8 * (p.addr % 64 + p.len) - 1) (8 * (p.addr % 64))) } else q) s
      if (ps.filter fun p => !inArgs p) = [] then s
      else
        let c := s.core g.half g.core
        match c.const? line with
        | some d => (s.setCore g.half g.core (c.putConst line d)).readOut g line 15 d
        | none =>
          let k := s.l1Key g
          match s.l1Line k line with
          | some y =>
            if y.st.readable && y.valid = 15 then
              (s.setCore g.half g.core ((s.core g.half g.core).putConst line y.data)).readOut g line 15 y.data
            else if y.st.readable && y.st != .smG && y.st != .omG then s.fillLine k y (sectorsMinus 15 y.valid)
            else s
          | none => s.missLine k line 15 false false

/-- The idle accesses of a group's memory instruction on one line. -/
def State.tryLine (s : State) (g : GroupRef) (line : Nat) : State :=
  match s.group? g with
  | none => s
  | some x =>
    match x.memop with
    | none => s
    | some op =>
      if op.idleOn line = [] then s
      else if inSwm (line * 128) then s.windowLine g op line
      else if (ringOf (line * 128)).isSome then s.ringLine g op line
      else
        match op.kind with
        | .atom => s.atomHome g op line
        | .st => if op.atHome || op.cop = 1 then s.storeHome g op line else s.storeLine g op line
        | .ldc => s.constLine g op line
        | _ => if op.atHome || op.cop = 1 then s.loadHome g op line else s.loadLine g op line

/-- Every access of a group's memory instruction that is not answered tried. -/
def State.tryMem (s : State) (g : GroupRef) : State :=
  match s.group? g with
  | none => s
  | some x =>
    match x.memop with
    | none => s
    | some op =>
      if x.wait != .memory then s
      else
        let lines := ((op.pieces.filter fun p => p.st == .idle).map fun p => p.addr / 128).eraseDups
        (lines.foldl (fun s l => s.tryLine g l) s).progress g

/-- The groups of a physical core that wait on memory try again. -/
def State.retryCore (s : State) (k : Nat) : State :=
  match s.logicalOf (k / 128) (k % 128) with
  | none => s
  | some l =>
    ((s.core (k / 128) l).groups).foldl (fun s q => s.tryMem { half := k / 128, core := l, slot := q.1 }) s

/-! ### Shadow reads (R512 to R516) -/

/-- Confirmation table entries in use in a half. -/
def State.confCount (s : State) (half : Nat) : Nat := (s.mem.conf.filter fun q => q.2.half == half).length

/-- UC_SHD_TABLE.inuse of a half. -/
def State.showConf (s : State) (half : Nat) : State := s.setFld (R.ucShdTable half) 8 0 (s.confCount half)

/-- No cut-off of R522 is in force in a half. -/
def State.notCut (s : State) (half : Nat) : Bool :=
  match Map.get? s.mem.cutTo half with
  | some r => decide (r < s.rnd.round)
  | none => true

/-- Conditions 2 to 6 and 8 of R512 for the lines and sectors of one access. -/
def State.shadowOk (s : State) (g : GroupRef) (b : Blk) (x : Group) (ps : List Piece) : Bool :=
  b.shadow && s.flag (R.ucShdCfg g.half) 0 && s.notCut g.half &&
  decide (x.unconf.length < s.fld (R.ucShdCfg g.half) 3 1) &&
  ps.all fun p =>
    let line := p.addr / 128
    let sec := p.addr / 32 % 4
    s.inHbm p.addr && s.shadowLine line && s.homeOf line != g.half &&
    (match s.l1Line (s.l1Key g) line with | some y => !bit y.valid sec | none => true) &&
    (match s.guestWay g.half line with | some w => bit w.valid sec | none => false)

/-- A confirmation for a line's sectors: an entry created in this turn is joined, otherwise one is made and its
RdNC sent (R515, R516). -/
def State.confirmLine (s : State) (half line mask load : Nat) : State × Nat :=
  match s.mem.conf.find? fun q =>
      q.2.half == half && q.2.line == line && q.2.turn == s.absTurn && sectorsMinus mask q.2.mask == 0 with
  | some (n, e) =>
    ({ s with mem := { s.mem with conf := Map.set s.mem.conf n { e with loads := e.loads ++ [load] } } }, n)
  | none =>
    let n := s.mem.nextMsg
    let s := s.request { CohMsg.mk0 .rdNC (.conf half) (.home 0) line with mask := mask, confirm := true, tag := n }
    let e : ConfEntry := { half := half, line := line, mask := mask, turn := s.absTurn, loads := [load] }
    (({ s with mem := { s.mem with conf := Map.set s.mem.conf n e } }).showConf half, n)

/-- The checkpoint of a group (R519). -/
def Group.checkpoint (x : Group) : Checkpoint :=
  { regs := x.regs, preds := x.preds, pc := x.pc, mask := x.mask, rpc := x.rpc, stack := x.stack, gprog := x.gprog }

/-- One access of LD or one element access of LD.Gn served by a shadow read where R512 allows it; the answer
says whether it was. -/
def State.tryShadow (s : State) (g : GroupRef) (b : Blk) (rows : List Nat) (ps : List Piece) : State × Bool :=
  match s.group? g with
  | none => (s, false)
  | some x =>
    let lines := (ps.map fun p => p.addr / 128).eraseDups
    if ps = [] || !s.shadowOk g b x ps then (s, false)
    else if 256 < s.confCount g.half + lines.length then (s.addFld (R.ucShdTable g.half) 31 16 1, false)
    else
      let id := s.mem.nextLoad
      let s := { s with mem := { s.mem with nextLoad := id + 1 } }
      let byte (p : Piece) : Nat := match s.guestWay g.half (p.addr / 128) with
        | some w => lineGet w.data (p.addr % 128) p.len
        | none => 0
      let reads := ps.map fun p => (p.addr, p.len, byte p)
      let s := s.mapPieces g fun p => if ps.contains p then { p with st := .done (byte p) } else p
      let r := lines.foldl (fun (acc : State × List WindowRead) l =>
        let m := maskOfPieces (ps.filter fun p => p.addr / 128 == l)
        let c := acc.1.confirmLine g.half l m id
        (c.1, acc.2 ++ [{ line := l, mask := m, conf := c.2, data := none, lost := false, taken := false }])) (s, [])
      let s := r.1
      let load : UnconfLoad := { half := g.half, core := g.core, slot := g.slot, reads := reads,
                                 waits := r.2.map (·.conf), bad := false }
      let s := { s with mem := { s.mem with loads := Map.set s.mem.loads id load } }
      let s := s.count (R.ucShdServed g.half) 1
      match s.group? g with
      | none => (s, true)
      | some y =>
        let y := if y.unconf.isEmpty then
            { y with ckpt := some { x.checkpoint with pc := x.pc }, savedRows := rows, window := [] } else y
        (s.setGroup g { y with unconf := y.unconf ++ [id], window := y.window ++ r.2,
                               memop := y.memop.map fun o => { o with mark := true } }, true)

/-- An access of a replay that names the lines and sectors of a read of the window takes its answer, waiting
for it while it is outstanding (R518), or goes to the home where the answer was lost (R523); the answer says
whether the access is one of those, and so takes no shadow read. -/
def State.tryReplay (s : State) (g : GroupRef) (ps : List Piece) : State × Bool :=
  match s.group? g with
  | none => (s, false)
  | some x =>
    let lines := (ps.map fun p => p.addr / 128).eraseDups
    let want := lines.map fun l => (l, maskOfPieces (ps.filter fun p => p.addr / 128 == l))
    let hits := want.filterMap fun w => x.replay.find? fun r => !r.taken && r.line == w.1 && r.mask == w.2
    if ps = [] || hits.length != want.length then (s, false)
    else
      let s := hits.foldl (fun s r =>
        match r.data with
        | some d => s.readOut g r.line r.mask d
        | none =>
          if r.lost then s
          else s.mapPieces g fun p =>
            if p.addr / 128 = r.line && p.st == .idle && bit r.mask (p.addr / 32 % 4) then { p with st := .out } else p) s
      match s.group? g with
      | some y =>
        let left := hits.foldl (fun (l : List WindowRead) r =>
          if r.data.isSome || r.lost then l.erase r
          else l.map fun w => if w = r then { w with taken := true } else w) y.replay
        (s.setGroup g { y with replay := left }, true)
      | none => (s, true)

/-! ### Issue -/

/-- A memory instruction begins: its accesses, the steps charged, shadow reads where they apply, then the L1 or
the home. -/
def State.startMem (s : State) (g : GroupRef) (b : Blk) (x : Group) (op : MemOp) (rows : List Nat) (shadow : Bool) :
    State :=
  let tag := s.mem.nextLoad + 1
  let op := { op with tag := tag }
  let s := { s with mem := { s.mem with nextLoad := tag } }
  let s := s.setGroup g { x with memop := some op, wait := .memory }
  let elems := (op.pieces.map (·.elem)).eraseDups
  let s := elems.foldl (fun s i =>
    let ps := op.pieces.filter fun p => p.elem == i
    let s := s.chargeSectors g.half ps
    if shadow then
      match s.tryReplay g ps with
      | (s, true) => s
      | (s, false) => (s.tryShadow g b rows ps).1
    else s) s
  s.tryMem g

/-- LD, ST and LDC: size and cache operation in mod. -/
def State.globalOp (s : State) (g : GroupRef) (f : CoreFields) (kind : MemKind) : State :=
  let sz := bits f.mod 2 0
  let k := sizeRegs sz
  let store := kind == .st
  let modOk := if kind == .ldc then f.mod == 4 || f.mod == 5 || f.mod == 6 else memModOk f.mod
  let p := memSpec (if store then .unused else .regs k) (if store then .regs k else .unused) .unused 2 modOk
    store (!store)
  s.issue g f p [f.a, f.a + 1] fun s b x =>
    let lanes := x.acting f
    let bad := lanes.filter fun l => x.addr f l % sizeBytes sz != 0
    let out := lanes.filter fun l => !s.addrOk b (x.addr f l)
    if bad != [] then s.raise g x 0x05 0 (maskOf bad)
    else if out != [] then s.raise g x 0x06 0 (maskOf out)
    else if lanes = [] then s.setGroup g { x with pc := x.pc + f.len }
    else
      let vol := kind != .ldc && bit f.mod 5
      let op : MemOp := {
        kind := kind, d := f.d, len := f.len, width := sizeBytes sz, sext := sz == 1 || sz == 3,
        cop := if kind == .ldc then 0 else bits f.mod 4 3, atHome := vol && decide (2 ≤ bits f.mod 7 6),
        atomOp := 0, uns := false, n := 1, mark := false, tag := 0,
        pieces := lanes.map fun l =>
          { lane := l, elem := 0, addr := x.addr f l, len := sizeBytes sz,
            val := if store then x.regs' l f.b k else 0, cmp := 0, st := .idle } }
      s.startMem g b x op (p.d.regList f.d) (kind == .ld && !vol)

/-- LD: d = memory at a + offset. -/
def execLd (g : GroupRef) (f : CoreFields) (s : State) : Host.Outcome State Fault Refusal :=
  .next (s.globalOp g f .ld)

/-- ST: memory at a + offset = b. -/
def execSt (g : GroupRef) (f : CoreFields) (s : State) : Host.Outcome State Fault Refusal :=
  .next (s.globalOp g f .st)

/-- LDC: as LD, through the constant or descriptor cache. -/
def execLdc (g : GroupRef) (f : CoreFields) (s : State) : Host.Outcome State Fault Refusal :=
  .next (s.globalOp g f .ldc)

/-- Two register ranges have no register in common. -/
def rangesApart (a n b m : Nat) : Bool := a + n ≤ b || b + m ≤ a

/-- LD.Gn: per-thread gather of n elements from element GPROG (R304, R305, R347). -/
def execLdGn (g : GroupRef) (f : CoreFields) (s : State) : Host.Outcome State Fault Refusal :=
  let n := [4, 8, 16].getD (bits f.mod 1 0) 4
  let sh := bits f.mod 4 2
  let modOk := decide (bits f.mod 1 0 < 3) && decide (sh < 5) && decide (bits f.mod 7 6 < 3) &&
    f.d != 255 && f.b != 255 && f.a != 255 && f.d % 4 == 0 && f.b % 4 == 0 &&
    rangesApart f.d n f.b n && rangesApart f.d n f.a 2 && rangesApart f.b n f.a 2
  let p := { memSpec (.regs n) (.regs n) .unused 2 modOk false true with
             d := if f.d % 4 = 0 then .regs 1 else .unused, b := if f.b % 4 = 0 then .regs 1 else .unused }
  let range := (List.range n).map fun i => f.b + i
  .next (s.issue g f p (f.a :: (f.a + 1) :: range) fun s b x =>
    if x.regsPer < f.d + n || x.regsPer < f.b + n then s.raise g x 0x02 0 (maskOf (x.acting f))
    else
      let lanes := x.acting f
      let addr (l i : Nat) : Nat :=
        let ix : Int := if bit f.mod 5 then signed 32 (x.reg l (f.b + i)) else (x.reg l (f.b + i) : Nat)
        unsigned 64 ((x.regs' l f.a 2 : Int) + f.offset + ix * 2 ^ sh)
      let ps : List Piece := (List.range n).flatMap fun i =>
        (lanes.filter fun l => Map.getD x.gprog l 0 ≤ i).map fun l =>
          { lane := l, elem := i, addr := addr l i, len := 4, val := 0, cmp := 0, st := .idle }
      let bad := (ps.filter fun q => q.addr % 4 != 0).map (·.lane)
      let out := (ps.filter fun q => !s.addrOk b q.addr).map (·.lane)
      if bad != [] then s.raise g x 0x05 0 (maskOf bad)
      else if out != [] then s.raise g x 0x06 0 (maskOf out)
      else if ps = [] then s.setGroup g { x with pc := x.pc + f.len, gprog := [], memop := none }
      else
        let op : MemOp := {
          kind := .gather, d := f.d, len := f.len, width := 4, sext := false, cop := bits f.mod 7 6,
          atHome := false, atomOp := 0, uns := false, n := n, mark := false, tag := 0, pieces := ps }
        s.startMem g b x op ((List.range n).map (f.d + ·)) true)

/-! ### Atomics, local store, fences -/

/-- The result of an atomic operation on a value of `len` bytes (R308). -/
def atomResult (op len : Nat) (uns : Bool) (old v cmp : Nat) : Nat :=
  let w := 8 * len
  match op with
  | 0 => (old + v) % 2 ^ w
  | 1 => minBy w uns old v
  | 2 => maxBy w uns old v
  | 3 => old &&& v
  | 4 => old ||| v
  | 5 => old ^^^ v
  | 6 => v
  | 7 => if old = cmp then v else old
  | _ => (FFmt.f32.add 0 false old v).1

/-- The operand form of ATOM and ATOMS. -/
def atomSpec (f : CoreFields) (k aRegs : Nat) (modOk : Bool) : OpSpec :=
  memSpec (.regs k) (.regs k) (if bits f.mod 3 0 = 7 then .regs k else .unused) aRegs modOk true false

/-- mod of an atomic: a known operation, u only with min and max. -/
def atomModOk (m : Nat) : Bool :=
  decide (bits m 3 0 < 9) && (!bit m 5 || bits m 3 0 == 1 || bits m 3 0 == 2) && !bit m 7 &&
    !(bits m 3 0 == 8 && bit m 4)

/-- ATOM: atomic read-modify-write at the line's home (R308, R510). -/
def execAtom (g : GroupRef) (f : CoreFields) (s : State) : Host.Outcome State Fault Refusal :=
  let k := if bit f.mod 4 then 2 else 1
  let p := atomSpec f k 2 (atomModOk f.mod)
  .next (s.issue g f p [] fun s b x =>
    let lanes := x.acting f
    let bad := lanes.filter fun l => x.addr f l % (4 * k) != 0
    let out := lanes.filter fun l => !s.inHbm (x.addr f l)
    if bad != [] then s.raise g x 0x05 0 (maskOf bad)
    else if out != [] then s.raise g x 0x08 0 (maskOf out)
    else if lanes = [] then s.setGroup g { x with pc := x.pc + f.len }
    else
      let op : MemOp := {
        kind := .atom, d := f.d, len := f.len, width := 4 * k, sext := false, cop := 0, atHome := true,
        atomOp := bits f.mod 3 0, uns := bit f.mod 5, n := 1, mark := false, tag := 0,
        pieces := lanes.map fun l =>
          { lane := l, elem := 0, addr := x.addr f l, len := 4 * k, val := x.regs' l f.b k,
            cmp := x.regs' l f.c k, st := .idle } }
      s.startMem g b x op [] false)

/-- Words of local store an access touches (R339). -/
def lsWords (addr len : Nat) : List Nat := (List.range ((len + 3) / 4)).map fun i => addr / 4 + i

/-- The largest number of words of a list in one bank. -/
def bankMax (ws : List Nat) : Nat :=
  (List.range 32).foldl (fun m k => max m (ws.filter fun w => w % 32 == k).length) 0

/-- Replays of an LDS or STS (R340, R342), and of an ATOMS (R341). -/
def lsReplays (accs : List (Nat × Nat)) : Nat := bankMax ((accs.flatMap fun a => lsWords a.1 a.2).eraseDups) - 1
def atomsReplays (addrs : List Nat) : Nat := bankMax (addrs.map (· / 4)) - 1

/-- A local-store instruction: alignment and range checked, replays counted, then the effect. -/
def State.lsOp (s : State) (g : GroupRef) (f : CoreFields) (p : OpSpec) (len : Nat) (atomic : Bool)
    (k : State → Blk → Group → List Nat → State) : State :=
  s.issue g f p [] fun s b x =>
    let lanes := x.acting f
    let bad := lanes.filter fun l => x.lsAddr f l % len != 0
    let out := lanes.filter fun l => b.window < x.lsAddr f l + len
    if bad != [] then s.raise g x 0x05 0 (maskOf bad)
    else if out != [] then s.raise g x 0x07 0 (maskOf out)
    else
      let n := if atomic then atomsReplays (lanes.map (x.lsAddr f)) else lsReplays (lanes.map fun l => (x.lsAddr f l, len))
      k (s.count (R.corLsReplay g.half) n) b x lanes

/-- LDS: d = local store at a + offset. -/
def execLds (g : GroupRef) (f : CoreFields) (s : State) : Host.Outcome State Fault Refusal :=
  let sz := bits f.mod 2 0
  let k := sizeRegs sz
  let p := memSpec (.regs k) .unused .unused 1 (decide (f.mod < 7)) false false
  .next (s.lsOp g f p (sizeBytes sz) false fun s b x lanes =>
    let y := lanes.foldl (fun y l =>
      y.setRegs l f.d (widen (sizeBytes sz) (sz == 1 || sz == 3) (Mem.readLE b.ls (x.lsAddr f l) (sizeBytes sz))) k) x
    s.setGroup g (y.step p f (x.readsPending p f)))

/-- STS: local store at a + offset = b; the highest lane wins a byte (R331). -/
def execSts (g : GroupRef) (f : CoreFields) (s : State) : Host.Outcome State Fault Refusal :=
  let sz := bits f.mod 2 0
  let k := sizeRegs sz
  let p := memSpec .unused (.regs k) .unused 1 (decide (f.mod < 7)) true false
  .next (s.lsOp g f p (sizeBytes sz) false fun s b x lanes =>
    let ls := lanes.foldl (fun m l => Mem.writeLE m (x.lsAddr f l) (sizeBytes sz) (x.regs' l f.b k)) b.ls
    (s.setBlk g x.block { b with ls := ls }).setGroup g (x.step p f false))

/-- ATOMS: atomic on 32-bit words of the local store window, in lane order (R309, R332). -/
def execAtoms (g : GroupRef) (f : CoreFields) (s : State) : Host.Outcome State Fault Refusal :=
  let o := bits f.mod 3 0
  let p := atomSpec f 1 1 (atomModOk f.mod && decide (o < 8) && !bit f.mod 4 && !bit f.mod 6)
  .next (s.lsOp g f p 4 true fun s b x lanes =>
    let r := lanes.foldl (fun (acc : Mem × Group) l =>
      let old := Mem.readLE acc.1 (x.lsAddr f l) 4
      (Mem.writeLE acc.1 (x.lsAddr f l) 4 (atomResult o 4 (bit f.mod 5) old (x.reg l f.b) (x.reg l f.c)),
        acc.2.setReg l f.d old)) (b.ls, x)
    (s.setBlk g x.block { b with ls := r.1 }).setGroup g (r.2.step p f false))

/-- FENCE: completes when the group's earlier memory instructions are performed at scope mod[1:0] (R310, R485,
R506). -/
def execFence (g : GroupRef) (f : CoreFields) (s : State) : Host.Outcome State Fault Refusal :=
  let p := { OpSpec.alu .unused .unused .unused .unused (decide (f.mod < 4)) with commit := true, noGuard := true }
  .next (s.issue g f p [] fun s _ x =>
    if 2 ≤ f.mod && 0 < x.storesOut then s.setGroup g { x with wait := .fence f.mod }
    else s.setGroup g { x with pc := x.pc + f.len })

/-- A store of the group counted on an open line is performed; a fence that waits for the last one completes.
-/
def State.storePerformed (s : State) (g : GroupRef) : State :=
  match s.group? g with
  | none => s
  | some x =>
    let y := { x with storesOut := x.storesOut - 1 }
    match y.wait with
    | .fence _ => s.setGroup g (if y.storesOut = 0 then { y with wait := .ready, pc := y.pc + 8 } else y)
    | _ => s.setGroup g y

end Sys2Proof.Machine
end

