-- ==== Sys2Proof/Machine/L1.lean ====
section
/-! DEFINITION. What an L1 does with each message it receives (the table of R481, R482 to R487). A command
names a message under way by its number; one that is not under way, or of another kind, changes nothing. -/

namespace Sys2Proof.Machine

/-! ### Protocol faults -/

/-- Code of an L1 state and of a message in event 0x0608. -/
def L1St.code : L1St → Nat
  | .i => 0 | .s => 1 | .e => 2 | .m => 3 | .o => 4 | .f => 5 | .isD => 6 | .imD => 7 | .smG => 8 | .omG => 9
  | .miA => 10 | .iiA => 11

def MsgKind.code : MsgKind → Nat
  | .getS => 0 | .getM => 1 | .upg => 2 | .fill => 3 | .putM => 4 | .putE => 5 | .putF => 6 | .rdNC => 7
  | .wrNC => 8 | .atom => 9 | .invS => 10 | .fwdS => 11 | .fwdM => 12 | .fwdR => 13 | .recall => 14
  | .data => 15 | .grant => 16 | .invAck => 17 | .fwdAck => 18 | .done => 19 | .doneAck => 20 | .release => 21
  | .putAck => 22 | .wrAck => 23 | .atomRsp => 24 | .copy => 25

/-- A protocol fault of a half (R487): event 0x0608, the counter, and a unit fault of kind 4, or of kind 3
when it is the half's second within FLT_CFG.repeat rounds (R892). -/
def State.protFault (s : State) (half line state msg : Nat) (atHome : Bool) : State :=
  let s := if atHome then s.addFld (R.ucCohProt half) 15 0 1 else s.addFld (R.corCohProt half) 15 0 1
  let s := s.halfEvent half 0x0608 [(1, half), (8, line * 128), (1, evCode 0x0608 state), (1, evCode 0x0608 (0x100 + msg))]
  let again := match Map.get? s.flt.protRound half with
    | some r => decide (s.rnd.round ≤ r + s.fld R.fltCfg 15 4)
    | none => false
  let s := { s with flt := { s.flt with protRound := Map.set s.flt.protRound half s.rnd.round } }
  s.notice { kind := if again then 3 else 4, code := 0x0608, die := half / 2, unit := half % 2,
             parts := s.partsHolding (· == half), round := s.rnd.round, half := half, line := line }

/-- A message that meets an L1 in a state in which it cannot occur. -/
def State.l1Fault (s : State) (k line : Nat) (m : CohMsg) : State :=
  s.protFault (k / 128) line (match s.l1Line k line with | some x => x.st.code | none => 0) m.kind.code false

/-! ### Sending -/

/-- The core key of an agent. -/
def Agent.key : Agent → Nat
  | .core k => k
  | _ => 0

/-- InvAck to the home. -/
def State.invAck (s : State) (k : Nat) (line dirty data : Nat) : State :=
  s.post { CohMsg.mk0 .invAck (.core k) (.home (s.homeOf line)) line with mask := dirty, dirty := dirty, data := data }

/-- FwdAck to the home, with the state the giver had; `value` marks the answer to a FwdR. -/
def State.fwdAck (s : State) (k line : Nat) (st : L1St) (dirty data : Nat) (value : Bool) : State :=
  s.post { CohMsg.mk0 .fwdAck (.core k) (.home (s.homeOf line)) line with
    mask := dirty, dirty := dirty, data := data, grant := st, confirm := value }

/-- Data of an L1 to a requester. -/
def State.sendData (s : State) (k line : Nat) (dest : Agent) (grant : L1St) (mask dirty data tag asked : Nat) : State :=
  s.post { CohMsg.mk0 .data (.core k) dest line with
    mask := mask, dirty := dirty, data := data, grant := grant, tag := tag, asked := asked }

/-- Data S (or, to the first of the list, another grant) to every member of a FwdS, each with its sectors. -/
def State.sendAll (s : State) (k line : Nat) (first : L1St) (valid data : Nat) (l : List (Agent × Nat)) : State :=
  (l.zipIdx).foldl (fun s r =>
    s.sendData k line r.1.1 (if r.2 = 0 then first else .s) (valid &&& r.1.2) 0 data 0 line) s

/-! ### Wake copies (R484) -/

/-- Whether a wake slot is free. -/
def State.wakeFree (s : State) (k : Nat) : Bool := decide ((s.l1 k).wake.length < 8)

/-- A copy given up, kept as a wake copy. -/
def State.toWake (s : State) (k line valid data : Nat) : State :=
  let c := s.l1 k
  s.setL1 k { c with wake := c.wake ++ [{ line := line, valid := valid, data := data }] }

/-- A forward that finds no wake slot free waits, with event 0x060A. -/
def State.waitWake (s : State) (k line n : Nat) : State :=
  let c := s.l1 k
  if c.wakeWait.contains n then s
  else
    ((s.setL1 k { c with wakeWait := c.wakeWait ++ [n] }).addFld (R.corCohWake (k / 128)) 31 10 1).halfEvent (k / 128)
      0x060A [(1, k / 128), (1, (s.logicalOf (k / 128) (k % 128)).getD 0xFF), (8, line * 128)]

/-! ### Forwards -/

/-- The forward waits for the end of the L1's hold (R483). -/
def State.deferFwd (s : State) (k : Nat) (x : L1Line) (n : Nat) : State :=
  s.putL1 k { x with deferred := if x.deferred.contains n then x.deferred else x.deferred ++ [n] }

/-- InvS at an L1. -/
def State.onInvS (s : State) (k n : Nat) (m : CohMsg) : State :=
  match s.l1Line k m.line with
  | none => (s.unpost n).invAck k m.line 0 0
  | some x =>
    if x.hold then s.deferFwd k x n
    else
      let s := s.unpost n
      match x.st with
      | .s | .f => ((s.dropL1 k m.line).invAck k m.line 0 0).retryCore k
      | .isD | .imD => s.invAck k m.line 0 0
      | .smG => (s.putL1 k { x with st := .imD, valid := 0, dirty := 0 }).invAck k m.line 0 0
      | .miA =>
        if x.left = .f || x.left = .s then (s.putL1 k { x with st := .iiA, valid := 0, dirty := 0 }).invAck k m.line 0 0
        else s.l1Fault k m.line m
      | _ => s.l1Fault k m.line m

/-- FwdS at an L1. -/
def State.onFwdS (s : State) (k n : Nat) (m : CohMsg) : State :=
  match s.l1Line k m.line with
  | none => (s.unpost n).l1Fault k m.line m
  | some x =>
    if x.hold then s.deferFwd k x n
    else
      let s := s.unpost n
      let f := s.kindF m.line
      let give (st : L1St) (put : State → State) : State :=
        match st with
        | .e => ((put s).sendAll k m.line m.grant x.valid x.data m.reqs).fwdAck k m.line .e 0 0 false
        | .m => ((put s).sendAll k m.line m.grant x.valid x.data m.reqs).fwdAck k m.line .m (if f then x.dirty else 0) x.data false
        | st => ((put s).sendAll k m.line m.grant x.valid x.data m.reqs).fwdAck k m.line st 0 0 false
      match x.st with
      | .e => give .e fun s => s.putL1 k { x with st := .s }
      | .m => give .m fun s => s.putL1 k (if f then { x with st := .s, dirty := 0 } else { x with st := .o })
      | .o => give .o id
      | .f => give .f id
      | .smG => if x.left = .f then give .f id else s.l1Fault k m.line m
      | .omG => give .o id
      | .miA =>
        match x.left with
        | .e => give .e fun s => s.putL1 k { x with left := .s }
        | .m => give .m fun s => s.putL1 k (if f then { x with left := .s, dirty := 0 } else { x with left := .o })
        | .o => give .o id
        | .f => give .f id
        | _ => s.l1Fault k m.line m
      | _ => s.l1Fault k m.line m

/-- FwdM at an L1: Data M with every valid sector, the copy kept as a wake copy. -/
def State.onFwdM (s : State) (k n : Nat) (m : CohMsg) : State :=
  match s.l1Line k m.line with
  | none => (s.unpost n).l1Fault k m.line m
  | some x =>
    if x.hold then s.deferFwd k x n
    else
      let dest := match m.reqs with | (a, _) :: _ => a | [] => .home 0
      let give (put : State → State) : State :=
        if s.wakeFree k then
          (((put (s.unpost n)).toWake k m.line x.valid x.data).sendData k m.line dest .m x.valid x.dirty x.data 0 m.line).fwdAck
            k m.line x.st 0 0 false |>.retryCore k
        else s.waitWake k m.line n
      match x.st with
      | .e | .m => give fun s => s.dropL1 k m.line
      | .miA => give fun s => s.putL1 k { x with st := .iiA, valid := 0, dirty := 0 }
      | _ => (s.unpost n).l1Fault k m.line m

/-- FwdR at an L1: the requested sectors, those it lacks as the forward brought them (log entry 35); no state
change. -/
def State.onFwdR (s : State) (k n : Nat) (m : CohMsg) : State :=
  let dest := match m.reqs with | (a, _) :: _ => a | [] => .home 0
  let send (valid data : Nat) : State :=
    ((s.unpost n).sendData k m.line dest .i m.mask 0 (mergeSectors valid m.data data) m.tag m.asked).fwdAck k m.line .i 0 0 true
  let fromWake : State :=
    match (s.l1 k).wake.find? fun w => w.line == m.line with
    | some w => send w.valid w.data
    | none => (s.unpost n).l1Fault k m.line m
  match s.l1Line k m.line with
  | none => fromWake
  | some x =>
    match x.st with
    | .e | .m | .o | .omG | .miA => send x.valid x.data
    | _ => fromWake

/-- Recall at an L1: the copy dropped, its dirty sectors returned in InvAck. -/
def State.onRecall (s : State) (k n : Nat) (m : CohMsg) : State :=
  match s.l1Line k m.line with
  | none => (s.unpost n).l1Fault k m.line m
  | some x =>
    if x.hold then s.deferFwd k x n
    else
      let give (put : State → State) : State :=
        if s.wakeFree k then
          (((put (s.unpost n)).toWake k m.line x.valid x.data).invAck k m.line x.dirty x.data).retryCore k
        else s.waitWake k m.line n
      match x.st with
      | .e | .m | .o => give fun s => s.dropL1 k m.line
      | .omG => give fun s => s.putL1 k { x with st := .imD, valid := 0, dirty := 0 }
      | .miA => give fun s => s.putL1 k { x with st := .iiA, valid := 0, dirty := 0 }
      | _ => (s.unpost n).l1Fault k m.line m

/-- A FwdR sent earlier to the same L1 for the same line is still under way. Messages of one class on a link
direction are never reordered (R164), so it is received first. -/
def State.behindFwdR (s : State) (n : Nat) (m : CohMsg) : Bool :=
  s.mem.net.any fun q => decide (q.1 < n) && q.2.kind == .fwdR && q.2.dst == m.dst && q.2.line == m.line

/-- A forward at the L1 it names. -/
def State.onForward (s : State) (n : Nat) (m : CohMsg) : State :=
  let k := m.dst.key
  if m.kind = .fwdR then s.onFwdR k n m
  else if s.behindFwdR n m then s
  else
    match m.kind with
    | .invS => s.onInvS k n m
    | .fwdS => s.onFwdS k n m
    | .fwdM => s.onFwdM k n m
    | .recall => s.onRecall k n m
    | _ => s

/-! ### Responses -/

/-- The group of a core whose memory instruction has a number. -/
def State.groupOfTag (s : State) (k tag : Nat) : Option GroupRef :=
  match s.logicalOf (k / 128) (k % 128) with
  | none => none
  | some l =>
    ((s.core (k / 128) l).groups.find? fun q =>
      match q.2.memop with | some op => op.tag == tag | none => false).map
      fun q => { half := k / 128, core := l, slot := q.1 }

/-- A guest fill (R442): a read of a shadow-bit line answered by a home on another peak. -/
def State.guestFill (s : State) (half : Nat) (m : CohMsg) : State :=
  match m.src with
  | .home h => if h / 2 != half / 2 && s.shadowLine m.line && !m.bad then s.putGuest half m.line m.mask m.data else s
  | _ => s

/-- The line installed or owned: open from Done, held for a turn (R482, R483); the waiting accesses are
performed. -/
def State.install (s : State) (k : Nat) (x : L1Line) : State :=
  let s := s.putL1 k { x with hold := true }
  let c := s.l1 k
  let s := s.setL1 k { c with opens := c.opens ++ [(x.line, [])] }
  (s.post (CohMsg.mk0 .done (.core k) (.home (s.homeOf x.line)) x.line)).retryCore k

/-- Data at an L1. -/
def State.onData (s : State) (k n : Nat) (m : CohMsg) : State :=
  let s := (((s.unpost n).guestFill (k / 128) m).answered (k / 128) m.line).floorDone (k / 128) m.tag m.line
  if m.tag != 0 then
    match s.groupOfTag k m.tag with
    | some g => s.answerLine g m.tag m.asked m.data
    | none => s
  else if m.grant = .i then
    match s.l1Line k m.line with
    | some x =>
      if x.filling then
        let new := sectorsMinus m.mask x.valid
        (s.putL1 k { x with data := mergeSectors new x.data m.data, valid := x.valid ||| new, filling := false }).retryCore k
      else s.retryCore k
    | none => s.retryCore k
  else
    match s.l1Line k m.line with
    | none => s.l1Fault k m.line m
    | some x =>
      match x.st with
      | .isD => s.install k { x with st := m.grant, valid := m.mask, dirty := m.dirty, data := mergeSectors m.mask 0 m.data }
      | .imD | .smG | .omG =>
        let new := sectorsMinus m.mask x.valid
        s.install k { x with st := .m, valid := x.valid ||| m.mask, dirty := x.dirty ||| m.dirty,
                             data := mergeSectors new x.data m.data }
      | _ => s.l1Fault k m.line m

/-- Grant at an L1: ownership for its Upg. -/
def State.onGrant (s : State) (k n : Nat) (m : CohMsg) : State :=
  let s := (s.unpost n).answered (k / 128) m.line
  match s.l1Line k m.line with
  | none => s.l1Fault k m.line m
  | some x =>
    match x.st with
    | .smG | .omG | .imD =>
      let new := sectorsMinus m.mask x.valid
      s.install k { x with st := .m, valid := x.valid ||| new, data := mergeSectors new x.data m.data }
    | _ => s.l1Fault k m.line m

/-- DoneAck at an L1: the line is no longer open, and its stores are performed at device scope (R485). -/
def State.onDoneAck (s : State) (k n : Nat) (m : CohMsg) : State :=
  let s := s.unpost n
  let c := s.l1 k
  match takeFirst (fun q => q.1 == m.line) c.opens with
  | none => s.l1Fault k m.line m
  | some ((_, slots), rest) =>
    let s := s.setL1 k { c with opens := rest }
    let l := (s.logicalOf (k / 128) (k % 128)).getD 0
    (slots.foldl (fun s i => s.storePerformed { half := k / 128, core := l, slot := i }) s).retryCore k

/-- Release at an L1: the wake copy is freed and the first forward that waited for a slot is served (R484). -/
def State.onRelease (s : State) (k n : Nat) (m : CohMsg) : State :=
  let s := s.unpost n
  let c := s.l1 k
  match takeFirst (fun w : WakeCopy => w.line == m.line) c.wake with
  | none => s.l1Fault k m.line m
  | some (_, rest) =>
    match c.wakeWait with
    | [] => s.setL1 k { c with wake := rest }
    | w :: ws =>
      let s := s.setL1 k { c with wake := rest, wakeWait := ws }
      match s.msg? w with
      | some f => s.onForward w f
      | none => s

/-- PutAck at an L1: the copy is gone; accesses that waited go on from I. -/
def State.onPutAck (s : State) (k n : Nat) (m : CohMsg) : State :=
  let s := (s.unpost n).answered (k / 128) m.line
  match s.l1Line k m.line with
  | some x =>
    if x.st = .miA || x.st = .iiA then (s.dropL1 k m.line).retryCore k else s.l1Fault k m.line m
  | none => s.l1Fault k m.line m

/-- WrAck at a core. -/
def State.onCoreWrAck (s : State) (k n : Nat) (m : CohMsg) : State :=
  let s := (s.unpost n).answered (k / 128) m.line
  match s.groupOfTag k m.tag with
  | some g => s.answerLine g m.tag m.asked 0
  | none => s

/-- AtomRsp at a core: each lane of the line takes its old value (R308). -/
def State.onAtomRsp (s : State) (k n : Nat) (m : CohMsg) : State :=
  let s := (s.unpost n).answered (k / 128) m.line
  match s.groupOfTag k m.tag with
  | some g =>
    (s.mapPieces g fun p =>
      if p.addr / 128 = m.line && p.st == .out then
        match m.olds.find? fun o => o.1 == p.lane with
        | some o => { p with st := .done o.2 }
        | none => p
      else p).progress g
  | none => s

/-- The hold of a line ends: the forwards it deferred are served in order (R483). -/
def State.endHold (s : State) (k line : Nat) : State :=
  match s.l1Line k line with
  | none => s
  | some x =>
    if !x.hold then s
    else
      let s := s.putL1 k { x with hold := false, deferred := [] }
      x.deferred.foldl (fun s n => match s.msg? n with | some m => s.onForward n m | none => s) s

/-! ### Commands -/

/-- A message of a kind under way to an L1 is received by it. -/
def State.atCore (s : State) (n : Nat) (kind : MsgKind) (fn : State → Nat → Nat → CohMsg → State) : State :=
  match s.msgOf n kind with
  | some m => match m.dst with
    | .core k => s.whenRun fun s => fn s k n m
    | _ => s
  | none => s

/-- INVS: an L1 drops its shared copy and answers InvAck. -/
def execInvs (msg : Nat) (s : State) : Host.Outcome State Fault Refusal := 
  .next (s.atCore msg .invS fun s _ n m => s.onForward n m)

/-- FWDS: an L1 sends Data to the requesters, downgrades and answers FwdAck. -/
def execFwds (msg : Nat) (s : State) : Host.Outcome State Fault Refusal := 
  .next (s.atCore msg .fwdS fun s _ n m => s.onForward n m)

/-- FWDM: an L1 sends Data M, drops the line to a wake copy and answers FwdAck. -/
def execFwdm (msg : Nat) (s : State) : Host.Outcome State Fault Refusal := 
  .next (s.atCore msg .fwdM fun s _ n m => s.onForward n m)

/-- FWDR: an L1 sends the requested sectors with no state change. -/
def execFwdr (msg : Nat) (s : State) : Host.Outcome State Fault Refusal := 
  .next (s.atCore msg .fwdR fun s _ n m => s.onForward n m)

/-- RECALL: an L1 drops the line and returns its dirty sectors in InvAck. -/
def execRecall (msg : Nat) (s : State) : Host.Outcome State Fault Refusal := 
  .next (s.atCore msg .recall fun s _ n m => s.onForward n m)

/-- DATA: an L1 installs a line in the granted state, performs its access and sends Done. -/
def execData (msg : Nat) (s : State) : Host.Outcome State Fault Refusal := .next (s.atCore msg .data State.onData)

/-- GRANT: an L1 takes ownership for its Upg and sends Done. -/
def execGrant (msg : Nat) (s : State) : Host.Outcome State Fault Refusal := .next (s.atCore msg .grant State.onGrant)

/-- DONEACK: an L1 ends the open state of a line and counts its stores performed. -/
def execDoneack (msg : Nat) (s : State) : Host.Outcome State Fault Refusal := .next (s.atCore msg .doneAck State.onDoneAck)

/-- RELEASE: an L1 frees the wake slot and serves any forward that waited for one. -/
def execRelease (msg : Nat) (s : State) : Host.Outcome State Fault Refusal := .next (s.atCore msg .release State.onRelease)

/-- PUTACK: an L1 in MI_A or II_A moves to I, and waiting accesses proceed. -/
def execPutack (msg : Nat) (s : State) : Host.Outcome State Fault Refusal := .next (s.atCore msg .putAck State.onPutAck)

/-- ATOMRSP: an atomic returns its old value to d. -/
def execAtomrsp (msg : Nat) (s : State) : Host.Outcome State Fault Refusal := .next (s.atCore msg .atomRsp State.onAtomRsp)

/-- L1_HOLD_END: one turn after an install, and once its access has completed, the L1 serves the forwards it
deferred (R483). -/
def execL1HoldEnd (half phys line : Nat) (s : State) : Host.Outcome State Fault Refusal :=
  .next (s.whenRun fun s => s.endHold (coreKey half phys) line)

end Sys2Proof.Machine
end

