-- ==== Sys2Proof/Machine/Home.lean ====
section
/-! DEFINITION. What a home does with each message it receives (the tables of R472 and R473, R474 to R480, R488
to R496), directory evictions (R432 to R435), merged reads (R436, R437), and the bringing to rest of the
protocol that resets, splits and cleanses need. -/

namespace Sys2Proof.Machine

/-! ### The arbiter (R488 to R496) -/

/-- Requests waiting in a home's arbiter. -/
def State.arbOf (s : State) (h : Nat) : List Nat := Map.getD s.mem.arb h []

/-- The arbiter's waiting requests replaced. -/
def State.setArb (s : State) (h : Nat) (l : List Nat) : State :=
  { s with mem := { s.mem with arb := if l = [] then Map.erase s.mem.arb h else Map.set s.mem.arb h l } }

/-- The class of entry a request takes: 0 floor, 1 own peak, 2 over a col, 3 home-initiated. -/
def entryClass (h : Nat) (m : Option CohMsg) : Nat :=
  match m with
  | none => 3
  | some m => if m.floor then 0 else if crosses m.src h then 2 else 1

/-- Entries of a class in use at a home: waiting requests and open transactions. -/
def State.entries (s : State) (h c : Nat) : Nat :=
  ((s.arbOf h).filter fun n => entryClass h (s.msg? n) == c).length +
  (s.mem.txns.filter fun q => q.2.home == h && entryClass h q.2.req == c).length

/-- Live tickets of a home. -/
def State.ticketsOf (s : State) (h : Nat) : List Ticket := Map.getD s.mem.tickets h []

/-- The tickets replaced; UC_COH_TICKET.live follows. -/
def State.setTickets (s : State) (h : Nat) (l : List Ticket) : State :=
  ({ s with mem := { s.mem with tickets := if l = [] then Map.erase s.mem.tickets h else Map.set s.mem.tickets h l } }).setFld
    (R.ucCohTicket h) 9 0 l.length

/-- The half of a requester; 16 for the hub. -/
def reqHalf (a : Agent) : Nat := (a.half?).getD 16

/-- The col by which a requester's messages reach a home's peak. -/
def enterCol (a : Agent) (h : Nat) : Nat := ((route (reqHalf a / 2) (h / 2)).getLast?).getD 0xFF

/-- A request refused with a new ticket (R492 to R494); the ticket it carried is used. -/
def State.refuse (s : State) (h n : Nat) (m : CohMsg) : State :=
  let no := Map.getD s.mem.nextTicket h 0
  let l := (s.ticketsOf h).filter fun t => m.ticket != some t.no
  let t : Ticket := { no := no, half := reqHalf m.src, expire := s.rnd.round + s.fld (R.ucCohCfg h) 3 0 }
  let s := s.setTickets h (l ++ [t])
  let s := { s with mem := { s.mem with nextTicket := Map.set s.mem.nextTicket h ((no + 1) % 512) } }
  let s := (s.setMsg n { m with stage := .nacked, ticket := some no }).count (R.ucCohNack h) 1
  let s := s.setArb h ((s.arbOf h).filter (· != n))
  let c := enterCol m.src h
  let s := s.oncePerRound 0x0305 c (·.halfEvent h 0x0305 [(1, c), (1, h), (8, s.rnd.round)])
  if s.flag (R.ucCohCfg h) 5 then s.halfEvent h 0x060B [(1, h), (1, c), (1, reqHalf m.src), (2, no)] else s

/-- A request arrives at its home: it takes an arbiter entry, waits for one, or is refused. The answer says
whether it stands in the arbiter. -/
def State.letIn (s : State) (h n : Nat) (m : CohMsg) : State × Bool :=
  match m.stage with
  | .waiting => (s, true)
  | .sent =>
    let arrive (s : State) : State × Bool :=
      ((s.setMsg n { m with stage := .waiting }).setArb h (s.arbOf h ++ [n]), true)
    match entryClass h (some m) with
    | 0 => arrive s
    | 1 => if s.entries h 1 < 48 then arrive s else (s, false)
    | _ =>
      match s.ticketsOf h with
      | [] => if s.entries h 2 < 24 then arrive s else (s.refuse h n m, false)
      | t :: ts =>
        if s.entries h 2 < 24 && m.ticket == some t.no then arrive (s.setTickets h ts)
        else (s.refuse h n m, false)
  | _ => (s, false)

/-- The request is served or dropped: it leaves the arbiter and is no longer under way. -/
def State.taken (s : State) (h n : Nat) : State := (s.setArb h ((s.arbOf h).filter (· != n))).unpost n

/-- No transaction is open on the request's line and no earlier request for it waits (R490). -/
def State.canServe (s : State) (h n line : Nat) : Bool :=
  (Map.get? s.mem.txns line).isNone &&
  ((s.arbOf h).find? fun k => match s.msg? k with | some m => m.line == line | none => false) == some n

/-! ### Transactions -/

/-- A transaction opened. -/
def State.openTxn (s : State) (line : Nat) (t : Txn) : State :=
  { s with mem := { s.mem with txns := Map.set s.mem.txns line t } }

/-- A transaction with nothing due. -/
def Txn.of (req : Option CohMsg) (h turn : Nat) : Txn :=
  { req := req, home := h, act := .none, invDue := [], fwdDue := none, doneDue := [], doneGot := [],
    giver := none, turn := turn }

/-- A forward to an L1. -/
def State.forward (s : State) (kind : MsgKind) (h k line : Nat) (grant : L1St) (reqs : List (Agent × Nat)) : State :=
  s.post { CohMsg.mk0 kind (.home h) (.core k) line with reqs := reqs, grant := grant }

/-- InvS to each of a list of cores. -/
def State.invalidate (s : State) (h line : Nat) (ks : List Nat) : State :=
  ks.foldl (fun s k => s.forward .invS h k line .i []) s

/-- Data of the home to a requester. -/
def State.homeData (s : State) (h : Nat) (m : CohMsg) (grant : L1St) (data : Nat) : State :=
  s.post { CohMsg.mk0 .data (.home h) m.src m.line with
    mask := m.mask, data := data, grant := grant, tag := m.tag, asked := m.asked }

/-- The answer PutAck, WrAck or AtomRsp. -/
def State.homeAck (s : State) (kind : MsgKind) (h : Nat) (m : CohMsg) (olds : List (Nat × Nat)) : State :=
  s.post { CohMsg.mk0 kind (.home h) m.src m.line with tag := m.tag, asked := m.asked, olds := olds }

/-- A Release to a giver, once every FwdR routed to it has its FwdAck (R479). -/
def State.release (s : State) (h line k : Nat) : State :=
  if s.mem.fwdrOut.contains (line, k) then
    { s with mem := { s.mem with releaseDue := s.mem.releaseDue ++ [(line, k)] } }
  else s.forward .release h k line .i []

/-- Sectors of a line and whether they are all in the slice. -/
def State.sliceHolds (s : State) (line mask : Nat) : Bool :=
  match s.homeWay (s.homeOf line) line with
  | some w => sectorsMinus mask w.valid == 0
  | none => false

/-- The operations of an Atom performed in lane order, with each lane's old value. -/
def atomLanes (data : Nat) (ops : List AtomLane) : Nat × List (Nat × Nat) :=
  ops.foldl (fun (acc : Nat × List (Nat × Nat)) o =>
    let old := lineGet acc.1 o.off o.len
    (linePut acc.1 o.off o.len (atomResult o.op o.len o.uns old o.val o.cmp), acc.2 ++ [(o.lane, old)])) (data, [])

/-- A WrNC performed at its home, with the copies of a multicast write (R446, R450). -/
def State.performWrite (s : State) (h : Nat) (m : CohMsg) : State :=
  let s := s.writeHomeBytes m.line m.bytes m.data
  let s := if m.halves = 0 then s
    else if s.shadowLine m.line then
      ((setBitsOf 16 m.halves).filter (· != h)).foldl (fun s d =>
        s.post { CohMsg.mk0 .copy (.home h) (.home d) m.line with mask := 15, data := m.data }) s
    else (s.count (R.ucMcDrop h) 1).oncePerRound 0x0606 h (·.halfEvent h 0x0606 [(1, h), (8, m.line * 128)])
  s.homeAck .wrAck h m []

/-- An Atom performed at its home. -/
def State.performAtom (s : State) (h : Nat) (m : CohMsg) : State :=
  let r := s.readHome m.line m.mask
  let v := atomLanes r.2 m.ops
  ((r.1.putHome m.line m.mask v.1)).homeAck .atomRsp h m v.2

/-- What a transaction does once its InvAcks and FwdAck are in. -/
def State.txnAct (s : State) (line : Nat) (t : Txn) : State :=
  match t.req with
  | none => s.freeDir line
  | some m =>
    match t.act with
    | .dataM =>
      let r := s.readHome line m.mask
      r.1.homeData t.home m .m r.2
    | .grantM =>
      let r := s.readHome line m.mask
      r.1.post { CohMsg.mk0 .grant (.home t.home) m.src line with mask := m.mask, data := r.2 }
    | .write => (s.freeDir line).performWrite t.home m
    | .atomic => (s.freeDir line).performAtom t.home m
    | _ => s

/-- A transaction acts once nothing it waits for before acting is due, and closes when every InvAck, FwdAck and
Done has arrived: DoneAck for each Done, Release for the giver (R471, R479). -/
def State.advance (s : State) (line : Nat) : State :=
  match Map.get? s.mem.txns line with
  | none => s
  | some t =>
    if t.invDue != [] || t.fwdDue.isSome then s
    else
      let s := s.txnAct line t
      let t := { t with act := .none }
      if t.doneDue.all fun d => t.doneGot.contains d.1 then
        let s := { s with mem := { s.mem with txns := Map.erase s.mem.txns line } }
        let s := t.doneGot.foldl (fun s k => s.forward .doneAck t.home k line .i []) s
        match t.giver with
        | some g => s.release t.home line g
        | none => s
      else s.openTxn line t

/-! ### Directory evictions -/

/-- An entry's line has neither an open transaction nor a request in the arbiter. -/
def State.quiet (s : State) (h line : Nat) : Bool :=
  (Map.get? s.mem.txns line).isNone &&
  !((s.arbOf h).any fun n => match s.msg? n with | some m => m.line == line | none => false)

/-- The holders of an entry asked to drop it: Recall to an owner in E, M or O, InvS to every other holder; the
transaction waits for all of them. -/
def State.dropHolders (s : State) (h : Nat) (e : DirEntry) (t : Txn) (but : Option Nat) : State × Txn :=
  let inv := match e.st with
    | .f => e.holders
    | _ => e.sharing
  let inv := inv.filter fun k => but != some k
  let s := s.invalidate h e.line inv
  let owner := match e.st, e.owner with
    | .em, some o => some o
    | .o, some o => if but = some o then none else some o
    | _, _ => none
  match owner with
  | some o => (s.forward .recall h o e.line .i [], { t with invDue := inv ++ [o], giver := some o })
  | none => (s, { t with invDue := inv })

/-- A directory eviction begins (R432, R435). -/
def State.evictDir (s : State) (h : Nat) (e : DirEntry) : State :=
  let s := s.count (R.ucDirEvict h) 1
  let n := Map.getD s.mem.dirEvicts h 0 + 1
  let s := { s with mem := { s.mem with dirEvicts := Map.set s.mem.dirEvicts h n } }
  let r := s.dropHolders h e { Txn.of none h s.absTurn with act := .evict } none
  (r.1.openTxn e.line r.2).advance e.line

/-- Room for a directory entry of a line: there is an entry or a free way; otherwise the least recently used
quiet entry is evicted, one of at most 8 evictions open at a time (R488), and the request waits, or, with none,
waits or is refused (R434). -/
def State.dirRoom (s : State) (h n : Nat) (m : CohMsg) : State × Bool :=
  if (s.dirEntry m.line).isSome || (s.dirSet m.line).length < 16 then (s, true)
  else
    match (s.dirSet m.line).reverse.find? fun e => s.quiet h e.line with
    | some e => (if s.entries h 3 < 8 then s.evictDir h e else s, false)
    | none => (if entryClass h (some m) = 2 then s.refuse h n m else s, false)

/-! ### Poisoned reads -/

/-- A read of a poisoned line returns no data: a confirmation is answered without data, another requester's half
meets a unit fault of kind 5 (R899). -/
def State.poisonRead (s : State) (h n : Nat) (m : CohMsg) : State :=
  let s := s.taken h n
  if m.confirm then
    s.post { CohMsg.mk0 .data (.home h) m.src m.line with mask := m.mask, tag := m.tag, bad := true }
  else
    let r := reqHalf m.src
    s.notice { kind := 5, code := 0x1206, die := if r < 16 then r / 2 else 8, unit := r % 2,
               parts := s.partsHolding (· == r), round := s.rnd.round, half := r, line := m.line }

/-! ### Merged reads (R436, R437) -/

/-- A read of a line in this turn joins an earlier one at its home. -/
def State.joinsRead (s : State) (h line : Nat) : Bool :=
  s.flag (R.ucCfg h) 4 &&
  (match Map.get? s.mem.readTurn h with
   | some (t, ls) => t == s.absTurn && ls.contains line
   | none => false)

/-- The line is noted as read in this turn. -/
def State.noteRead (s : State) (h line : Nat) : State :=
  let ls := match Map.get? s.mem.readTurn h with
    | some (t, ls) => if t = s.absTurn then (if ls.contains line then ls else line :: ls) else [line]
    | none => [line]
  { s with mem := { s.mem with readTurn := Map.set s.mem.readTurn h (s.absTurn, ls) } }

/-- A conflicting request is ordered on the line. -/
def State.noteWrite (s : State) (h line : Nat) : State :=
  { s with mem := { s.mem with readTurn := Map.modify s.mem.readTurn h fun p => (p.1, p.2.filter (· != line)) } }

/-- A read counted, as a lookup or as a later member of a merged read. -/
def State.countRead (s : State) (h line : Nat) : State :=
  (s.countLookup h (!s.joinsRead h line)).noteRead h line

/-! ### GetS -/

/-- A GetS joins the merged read whose transaction was opened in this turn: it is named in the same FwdS, or is
answered from the slice like the first (a copy granted E goes out as S). -/
def State.joinGetS (s : State) (h n : Nat) (m : CohMsg) (t : Txn) : State :=
  let k := m.src.key
  match s.mem.net.find? fun q => q.2.kind == .fwdS && q.2.line == m.line with
  | some (f, fm) =>
    ((s.taken h n).setMsg f { fm with reqs := fm.reqs ++ [(m.src, m.mask)] }).openTxn m.line
      { t with doneDue := t.doneDue ++ [(k, .s)] } |>.countRead h m.line
  | none =>
    let out := s.mem.net.filter fun q => q.2.kind == .data && q.2.line == m.line && q.2.src == .home h && q.2.tag == 0 && q.2.grant != .i
    if t.fwdDue.isSome || out.length < t.doneDue.length then s
    else
      let s := ((s.taken h n).countRead h m.line)
      let s := out.foldl (fun s q => if q.2.grant = .e then s.setMsg q.1 { q.2 with grant := .s } else s) s
      let s := match s.dirEntry m.line with
        | some e => if e.st = DirSt.em then s.putDir { e with st := DirSt.s } else s
        | none => s
      let r := s.readHome m.line m.mask
      (r.1.homeData h m .s r.2).openTxn m.line
        { t with doneDue := (t.doneDue.map fun (d : Nat × L1St) => if d.2 = L1St.e then (d.1, L1St.s) else d) ++ [(k, L1St.s)] }

/-- A GetS served in its line's directory state (R473). -/
def State.serveGetS (s : State) (h n : Nat) (m : CohMsg) : State :=
  let line := m.line
  match s.dirRoom h n m with
  | (s, false) => s
  | (s, true) =>
    let s := (s.taken h n).countRead h line
    let f := s.kindF line
    let k := m.src.key
    let t := Txn.of (some m) h s.absTurn
    let fromHome (s : State) (grant : L1St) : State :=
      let r := s.readHome line m.mask
      (r.1.homeData h m grant r.2).openTxn line { t with doneDue := [(k, grant)] }
    let fwd (s : State) (o : Nat) (grant : L1St) : State :=
      (s.forward .fwdS h o line grant [(m.src, m.mask)]).openTxn line { t with fwdDue := some o, doneDue := [(k, grant)] }
    match s.dirEntry line with
    | none =>
      fromHome (s.putDir { line := line, st := if f then .f else .em, owner := none, sharers := [], coarse := 0 })
        (if f then .f else .e)
    | some e =>
      let s := s.putDir e
      match e.st, e.owner with
      | .s, _ => fromHome s (if f then .f else .s)
      | .f, some o => if s.sliceHolds line m.mask then fromHome s .s else fwd s o .s
      | .em, some o => fwd s o (if f then .f else .s)
      | .o, some o => fwd s o .s
      | _, none => fromHome s (if f then .f else .s)

/-- A GetS at its home. -/
def State.onGetS (s : State) (h n : Nat) (m : CohMsg) : State :=
  match s.letIn h n m with
  | (s, false) => s
  | (s, true) =>
    match s.msg? n with
    | none => s
    | some m =>
      if s.flt.poison.contains m.line then s.poisonRead h n m
      else if s.canServe h n m.line then s.serveGetS h n m
      else
        match Map.get? s.mem.txns m.line with
        | some t =>
          if (match t.req with | some r => r.kind == .getS | none => false) && t.turn == s.absTurn &&
              s.joinsRead h m.line && t.doneGot == [] then s.joinGetS h n m t
          else s
        | none => s

/-! ### GetM and Upg -/

/-- A GetM served (R473). -/
def State.serveGetM (s : State) (h n : Nat) (m : CohMsg) : State :=
  let line := m.line
  match s.dirRoom h n m with
  | (s, false) => s
  | (s, true) =>
    let s := ((s.taken h n).countLookup h true).noteWrite h line
    let k := m.src.key
    let t := { Txn.of (some m) h s.absTurn with doneDue := [(k, .m)] }
    let fresh : DirEntry := { line := line, st := .em, owner := none, sharers := [], coarse := 0 }
    let data (s : State) (t : Txn) : State :=
      let r := s.readHome line m.mask
      (r.1.homeData h m .m r.2).openTxn line t
    match s.dirEntry line with
    | none => data (s.putDir fresh) t
    | some e =>
      match e.st, e.owner with
      | .em, some o =>
        ((s.putDir e).forward .fwdM h o line .m [(m.src, m.mask)]).openTxn line { t with fwdDue := some o, giver := some o }
      | .o, _ =>
        let r := s.dropHolders h e t none
        (r.1.putDir { e with sharers := [], coarse := 0 }).openTxn line { r.2 with act := .dataM } |>.advance line
      | _, _ =>
        let r := s.dropHolders h e t none
        data (r.1.putDir fresh) r.2

/-- An Upg served: from a listed holder with Grant, otherwise as a GetM (R473, R474). -/
def State.serveUpg (s : State) (h n : Nat) (m : CohMsg) : State :=
  let line := m.line
  let k := m.src.key
  match s.dirEntry line with
  | none => s.serveGetM h n m
  | some e =>
    if !e.holders.contains k || e.st = .em then s.serveGetM h n m
    else
      let s := ((s.taken h n).countLookup h true).noteWrite h line
      let t := { Txn.of (some m) h s.absTurn with doneDue := [(k, .m)] }
      let r := s.dropHolders h e t (some k)
      if r.2.giver.isSome then
        (r.1.putDir { e with sharers := [], coarse := 0 }).openTxn line { r.2 with act := .grantM } |>.advance line
      else
        let v := (r.1.putDir { line := line, st := .em, owner := none, sharers := [], coarse := 0 }).readHome line m.mask
        (v.1.post { CohMsg.mk0 .grant (.home h) m.src line with mask := m.mask, data := v.2 }).openTxn line r.2

/-! ### Put, WrNC and Atom -/

/-- An owner or forwarder leaves a directory entry (R473): the entry with the sharers left, or none. -/
def State.dropOwner (s : State) (e : DirEntry) : State :=
  if e.st = .em || (e.sharers = [] && e.coarse = 0) then s.freeDir e.line
  else s.putDir { e with st := .s, owner := none }

/-- A PutM, PutE or PutF served: from the recorded owner or forwarder it leaves; from another L1 PutAck alone
(R475). It waits while a FwdR routed to that L1 has no FwdAck, so that the L1 still holds the line when the
FwdR reaches it (log entry 36). -/
def State.servePut (s : State) (h n : Nat) (m : CohMsg) : State :=
  let k := m.src.key
  if s.mem.fwdrOut.contains (m.line, k) then s else
  let s := (s.taken h n).noteWrite h m.line
  let s := match s.dirEntry m.line with
    | some e =>
      if e.owner != some k then s
      else
        match m.kind, e.st with
        | .putM, .em => (s.writeHome m.line m.dirty m.data).freeDir m.line
        | .putM, .o => (s.writeHome m.line m.dirty m.data).dropOwner e
        | .putE, .em => s.freeDir m.line
        | .putF, .f => s.dropOwner e
        | _, _ => s
    | none => s
  s.homeAck .putAck h m []

/-- A WrNC or Atom served: performed once every holder has given the line up (R473). -/
def State.serveWrite (s : State) (h n : Nat) (m : CohMsg) (act : TxnAct) : State :=
  let s := ((s.taken h n).countLookup h true).noteWrite h m.line
  let t := { Txn.of (some m) h s.absTurn with act := act }
  match s.dirEntry m.line with
  | none => (s.openTxn m.line t).advance m.line
  | some e =>
    let r := s.dropHolders h e t none
    (r.1.openTxn m.line r.2).advance m.line

/-- A request that begins a transaction at its home. -/
def State.onBegin (s : State) (h n : Nat) (m : CohMsg) (reads : Bool) (serve : State → Nat → Nat → CohMsg → State) : State :=
  match s.letIn h n m with
  | (s, false) => s
  | (s, true) =>
    match s.msg? n with
    | none => s
    | some m =>
      if reads && s.flt.poison.contains m.line then s.poisonRead h n m
      else if s.canServe h n m.line then serve s h n m
      else s

/-- An RdNC or Fill at its home, served by value in the turn the arbiter orders it (R472). -/
def State.onValue (s : State) (h n : Nat) (m : CohMsg) : State :=
  match s.letIn h n m with
  | (s, false) => s
  | (s, true) =>
    match s.msg? n with
    | none => s
    | some m =>
      if s.flt.poison.contains m.line then s.poisonRead h n m
      else
        let s := (s.taken h n).countRead h m.line
        let r := s.readHome m.line m.mask
        let own := m.kind == .fill && (match s.dirEntry m.line with
          | some e => e.owner == some m.src.key && (e.st == .em || e.st == .o)
          | none => false)
        let giver := match Map.get? s.mem.txns m.line with | some t => t.giver | none => none
        match (if own && giver.isNone then none else s.valueHolder m.line) with
        | some k =>
          let s := r.1.post { CohMsg.mk0 .fwdR (.home h) (.core k) m.line with
            mask := m.mask, data := r.2, reqs := [(m.src, m.mask)], tag := m.tag, asked := m.asked }
          { s with mem := { s.mem with fwdrOut := s.mem.fwdrOut ++ [(m.line, k)] } }
        | none => r.1.homeData h m .i r.2

/-! ### Acknowledgements -/

/-- InvAck at the home (R476). -/
def State.onInvAck (s : State) (h n : Nat) (m : CohMsg) : State :=
  let s := s.unpost n
  match Map.get? s.mem.txns m.line with
  | none => s.protFault h m.line 0 m.kind.code true
  | some t =>
    let k := m.src.key
    if t.invDue.contains k then
      ((s.writeHome m.line m.dirty m.data).openTxn m.line { t with invDue := t.invDue.erase k }).advance m.line
    else s.protFault h m.line 1 m.kind.code true

/-- One occurrence of a pair taken out of a list. -/
def dropPair (l : List (Nat × Nat)) (p : Nat × Nat) : List (Nat × Nat) := l.erase p

/-- FwdAck at the home: for a FwdR, the giver's Release may follow; for FwdS and FwdM, the directory takes the
state the giver left (R473, R476). -/
def State.onFwdAck (s : State) (h n : Nat) (m : CohMsg) : State :=
  let s := s.unpost n
  let k := m.src.key
  if m.confirm then
    let s := { s with mem := { s.mem with fwdrOut := dropPair s.mem.fwdrOut (m.line, k) } }
    if s.mem.releaseDue.contains (m.line, k) && !s.mem.fwdrOut.contains (m.line, k) then
      ({ s with mem := { s.mem with releaseDue := dropPair s.mem.releaseDue (m.line, k) } }).forward .release h k m.line .i []
    else s
  else
    match Map.get? s.mem.txns m.line with
    | none => s.protFault h m.line 0 m.kind.code true
    | some t =>
      if t.fwdDue = some k then
        let s := s.writeHome m.line m.dirty m.data
        let isS := match t.req with | some r => r.kind == MsgKind.getS | none => false
        let s := match s.dirEntry m.line with
          | some e =>
            if isS && e.st = DirSt.em then
              if !s.kindF m.line && m.grant = L1St.m then s.putDir { e with st := .o }
              else s.putDir ({ e with st := .s, owner := none }.addSharer k)
            else s
          | none => s
        (s.openTxn m.line { t with fwdDue := none }).advance m.line
      else s.protFault h m.line 1 m.kind.code true

/-- The directory records a copy granted (R480). -/
def DirEntry.grantTo (e : DirEntry) (k : Nat) (g : L1St) : DirEntry :=
  match g with
  | .s => e.addSharer k
  | .f =>
    let e := match e.owner with
      | some o => if e.st = DirSt.f && o != k then { e with owner := none }.addSharer o else e
      | none => e
    { e with st := .f, owner := some k, sharers := e.sharers.filter (· != k) }
  | _ => { e with st := .em, owner := some k, sharers := [], coarse := 0 }

/-- Done at the home (R480). -/
def State.onDone (s : State) (h n : Nat) (m : CohMsg) : State :=
  let s := s.unpost n
  match Map.get? s.mem.txns m.line with
  | none => s.protFault h m.line 0 m.kind.code true
  | some t =>
    let k := m.src.key
    match t.doneDue.find? fun d => d.1 == k && !t.doneGot.contains k with
    | none => s.protFault h m.line 1 m.kind.code true
    | some d =>
      let e := (s.dirEntry m.line).getD { line := m.line, st := .s, owner := none, sharers := [], coarse := 0 }
      ((s.putDir (e.grantTo k d.2)).openTxn m.line { t with doneGot := t.doneGot ++ [k] }).advance m.line

/-! ### Multicast copies, acknowledgements to engines -/

/-- A multicast copy at a slice: installed as a guest copy (R446, R449). -/
def State.onCopy (s : State) (h n : Nat) (m : CohMsg) : State :=
  ((s.unpost n).putGuest h m.line m.mask m.data).count (R.ucMcCopies h) 1

/-- A WrAck reaches whoever wrote: a group of a core (R509), or an engine that counts its writes. -/
def State.onWrAck (s : State) (n : Nat) (m : CohMsg) : State :=
  match m.dst with
  | .core k => s.onCoreWrAck k n m
  | a =>
    let s := s.unpost n
    let s := match a.half? with | some h => s.answered h m.line | none => s
    let s := (s.setWrites m.tag (s.writesOut m.tag - 1)).nextBar2 m.tag
    if tagHostDma 0 ≤ m.tag && m.tag < tagHostDma 8 then
      let k := m.tag - tagHostDma 0
      s.setFld (R.hptDmaStatus k) 20 3 (s.fld (R.hptDmaStatus k) 20 3 + 1)
    else if tagRingDma 0 ≤ m.tag && m.tag < tagRingDma 8 then
      let e := m.tag - tagRingDma 0
      s.setFld (R.rngDmaStatus e) 20 3 (s.fld (R.rngDmaStatus e) 20 3 + 1)
    else s

/-! ### Delivery of any message -/

/-- A message under way moves one step: a request is served by its home, a forward or response is received, a
refused request is sent again. Confirmation answers are left to their own command. -/
def State.deliver (s : State) (n : Nat) : State :=
  match s.msg? n with
  | none => s
  | some m =>
    match m.stage with
    | .gate | .lost | .queued => s
    | .nacked | .held => s.launch n m
    | _ =>
      match m.dst with
      | .home h =>
        match m.kind with
        | .getS => s.onGetS h n m
        | .getM => s.onBegin h n m true State.serveGetM
        | .upg => s.onBegin h n m true State.serveUpg
        | .putM | .putE | .putF => s.onBegin h n m false State.servePut
        | .wrNC => s.onBegin h n m false fun s h n m => s.serveWrite h n m .write
        | .atom => s.onBegin h n m true fun s h n m => s.serveWrite h n m .atomic
        | .rdNC | .fill => s.onValue h n m
        | .invAck => s.onInvAck h n m
        | .fwdAck => s.onFwdAck h n m
        | .done => s.onDone h n m
        | .copy => s.onCopy h n m
        | _ => s
      | .core k =>
        match m.kind with
        | .data => s.onData k n m
        | .grant => s.onGrant k n m
        | .doneAck => s.onDoneAck k n m
        | .release => s.onRelease k n m
        | .putAck => s.onPutAck k n m
        | .wrAck => s.onCoreWrAck k n m
        | .atomRsp => s.onAtomRsp k n m
        | _ => s.onForward n m
      | _ => if m.kind = .wrAck then s.onWrAck n m else s

/-- The holds of every L1 end. -/
def State.endHolds (s : State) : State :=
  s.mem.l1.foldl (fun s q => (q.2.lines.filter (·.hold)).foldl (fun s x => s.endHold q.1 x.line) s) s

/-- The protocol brought to rest: messages are delivered until none is under way. What starts no further access
needs at most a few passes; the count is a bound, not a time. -/
def State.settle : Nat → State → State
  | 0, s => s
  | k + 1, s =>
    if s.mem.net = [] && s.mem.txns = [] then s
    else State.settle k ((s.mem.net.map (·.1)).foldl State.deliver s).endHolds

/-- A core taken out of a directory entry. -/
def State.forget (s : State) (k line : Nat) : State :=
  match s.dirEntry line with
  | none => s
  | some e =>
    if e.owner = some k then s.dropOwner e
    else
      let e := { e with sharers := e.sharers.filter (· != k) }
      if e.owner.isNone && e.sharers = [] && e.coarse = 0 then s.freeDir line
      else s.setDirSet line ((s.dirSet line).map fun x => if x.line = line then e else x)

/-- An L1 writes back every dirty sector and invalidates its lines (R203, R269). -/
def State.flushL1 (s : State) (k : Nat) : State :=
  let c := s.l1 k
  let s := c.lines.foldl (fun s x => (s.writeHome x.line x.dirty x.data).forget k x.line) s
  s.setL1 k { c with lines := [], opens := [], wake := [], wakeWait := [] }

/-! ### Commands -/

/-- A message of a kind under way to a home is served by it. -/
def State.atHomeDo (s : State) (n : Nat) (kind : MsgKind) (fn : State → Nat → Nat → CohMsg → State) : State :=
  match s.msgOf n kind with
  | some m => match m.dst with
    | .home h => s.whenRun fun s => fn s h n m
    | _ => s
  | none => s

/-- GETS: the home serves a GetS in its directory state, merging reads of one turn. -/
def execGets (msg : Nat) (s : State) : Host.Outcome State Fault Refusal := .next (s.atHomeDo msg .getS State.onGetS)

/-- GETM: the home serves a GetM, invalidating or forwarding as the state requires. -/
def execGetm (msg : Nat) (s : State) : Host.Outcome State Fault Refusal :=
  .next (s.atHomeDo msg .getM fun s h n m => s.onBegin h n m true State.serveGetM)

/-- UPG: the home serves an Upg from a listed holder, or as a GetM otherwise. -/
def execUpg (msg : Nat) (s : State) : Host.Outcome State Fault Refusal :=
  .next (s.atHomeDo msg .upg fun s h n m => s.onBegin h n m true State.serveUpg)

/-- FILL: the home serves a Fill by value from the value holder. -/
def execFill (msg : Nat) (s : State) : Host.Outcome State Fault Refusal := .next (s.atHomeDo msg .fill State.onValue)

/-- PUTM: the home writes back the dirty sectors of a PutM and updates the directory. -/
def execPutm (msg : Nat) (s : State) : Host.Outcome State Fault Refusal :=
  .next (s.atHomeDo msg .putM fun s h n m => s.onBegin h n m false State.servePut)

/-- PUTE: the home serves a clean eviction from E. -/
def execPute (msg : Nat) (s : State) : Host.Outcome State Fault Refusal :=
  .next (s.atHomeDo msg .putE fun s h n m => s.onBegin h n m false State.servePut)

/-- PUTF: the home serves a clean eviction from F. -/
def execPutf (msg : Nat) (s : State) : Host.Outcome State Fault Refusal :=
  .next (s.atHomeDo msg .putF fun s h n m => s.onBegin h n m false State.servePut)

/-- RDNC: the home serves a read without a copy by value. -/
def execRdnc (msg : Nat) (s : State) : Host.Outcome State Fault Refusal := .next (s.atHomeDo msg .rdNC State.onValue)

/-- WRNC: the home performs a write without a copy, after invalidating any holders. -/
def execWrnc (msg : Nat) (s : State) : Host.Outcome State Fault Refusal :=
  .next (s.atHomeDo msg .wrNC fun s h n m => s.onBegin h n m false fun s h n m => s.serveWrite h n m .write)

/-- ATOM_REQUEST: the home performs an atomic operation after invalidating any holders. -/
def execAtomRequest (msg : Nat) (s : State) : Host.Outcome State Fault Refusal :=
  .next (s.atHomeDo msg .atom fun s h n m => s.onBegin h n m true fun s h n m => s.serveWrite h n m .atomic)

/-- INVACK: the home writes any returned dirty sectors and closes the transaction when it has every
acknowledgement. -/
def execInvack (msg : Nat) (s : State) : Host.Outcome State Fault Refusal := .next (s.atHomeDo msg .invAck State.onInvAck)

/-- FWDACK: the home records a forward done and may close the transaction or send Release. -/
def execFwdack (msg : Nat) (s : State) : Host.Outcome State Fault Refusal := .next (s.atHomeDo msg .fwdAck State.onFwdAck)

/-- DONE: the home records the new holder and may close the transaction. -/
def execDone (msg : Nat) (s : State) : Host.Outcome State Fault Refusal := .next (s.atHomeDo msg .done State.onDone)

/-- MULTICAST_COPY_INSTALL: a slice receiving a multicast copy installs it as a guest copy. -/
def execMulticastCopyInstall (msg : Nat) (s : State) : Host.Outcome State Fault Refusal :=
  .next (s.atHomeDo msg .copy State.onCopy)

/-- WRACK: a device-scope volatile store completes at the core; an engine's write is acknowledged. -/
def execWrack (msg : Nat) (s : State) : Host.Outcome State Fault Refusal :=
  match s.msgOf msg .wrAck with
  | some m => .next (s.whenRun fun s => s.onWrAck msg m)
  | none => .next s

/-- Kinds of requests whose Nack R481 places in a transient state only. -/
def MsgKind.transient : MsgKind → Bool
  | .getS | .getM | .upg | .putM | .putE | .putF => true
  | _ => false

/-- NACK: a requester refused at a col end keeps the ticket for its retry (R493, R481). -/
def execNack (msg : Nat) (s : State) : Host.Outcome State Fault Refusal :=
  match s.msg? msg with
  | none => .next s
  | some m =>
    if m.stage != .nacked || !s.unitsRun then .next s
    else
      match m.src with
      | .core k =>
        let ok := match s.l1Line k m.line with
          | some x => !(x.st == .s || x.st == .e || x.st == .m || x.st == .o || x.st == .f)
          | none => false
        if m.kind.transient && !ok then .next ((s.unpost msg).l1Fault k m.line m)
        else .next (s.setMsg msg { m with stage := .held })
      | _ => .next (s.setMsg msg { m with stage := .held })

/-- RETRY_SEND: a refused request is sent again with its ticket in the next booked or open coherence turn. -/
def execRetrySend (msg : Nat) (s : State) : Host.Outcome State Fault Refusal :=
  match s.msg? msg with
  | none => .next s
  | some m => if m.stage = .held && s.unitsRun then .next (s.launch msg m) else .next s

/-- TICKET_EXPIRE: a ticket not used within ticket_life rounds expires, with event 0x0609 (R496). -/
def execTicketExpire (half ticket : Nat) (s : State) : Host.Outcome State Fault Refusal :=
  match (s.ticketsOf half).find? fun t => t.no == ticket with
  | none => .next s
  | some t =>
    if t.expire ≤ s.rnd.round && s.unitsRun then
      .next (((s.setTickets half ((s.ticketsOf half).filter (· != t))).addFld (R.ucCohTicket half) 31 10 1).halfEvent half
        0x0609 [(1, half), (2, ticket), (1, t.half)])
    else .next s

end Sys2Proof.Machine
end

