-- ==== Sys2Proof/Machine/Fmf.lean ====
section
/-! DEFINITION. The FMF functions of R300. rcp and sqrt are correctly rounded (Flags.lean); rsqrt, exp2, log2,
sin and cos are within 2 ulp: the exact result is computed in fixed point far past the format's precision, cut
toward zero, and the result is any value within 2 ulp of it, which one being open (Config.fmfStep). -/

namespace Sys2Proof.Machine

/-- Fixed-point precision in bits. -/
def fxp : Nat := 340

/-- Sum of a series: term `t`, ratio numerator `y` over `2^fxp` and the step's denominator `d k`; signs
alternate when `alt`. Used with structural fuel. -/
def seriesGo (y : Nat) (d : Nat → Nat) (alt : Bool) : Nat → Nat → Nat → Int → Int
  | 0, _, _, acc => acc
  | fuel + 1, k, t, acc =>
    let t' := t * y / 2 ^ fxp / d k
    let sgn : Int := if alt && k % 2 == 1 then -1 else 1
    seriesGo y d alt fuel (k + 1) t' (acc + sgn * t')

/-- e^y for fixed-point y in [0, 1). -/
def fxExp (y : Nat) : Nat := (seriesGo y (fun k => k) false 90 1 (2 ^ fxp) (2 ^ fxp)).toNat

/-- cos r for fixed-point r in [0, 2). -/
def fxCos (r : Nat) : Nat :=
  (seriesGo (r * r / 2 ^ fxp) (fun k => (2 * k - 1) * (2 * k)) true 60 1 (2 ^ fxp) (2 ^ fxp)).toNat

/-- sin r for fixed-point r in [0, 2). -/
def fxSin (r : Nat) : Nat :=
  (seriesGo (r * r / 2 ^ fxp) (fun k => (2 * k) * (2 * k + 1)) true 60 1 r r).toNat

/-- Σ z^(2k+1) / (2k+1) with ratio z² and alternating signs or not: atan and atanh. -/
def atanGo (z2 : Nat) (alt : Bool) : Nat → Nat → Nat → Int → Int
  | 0, _, _, acc => acc
  | fuel + 1, k, t, acc =>
    let t' := t * z2 / 2 ^ fxp
    let sgn : Int := if alt && k % 2 == 1 then -1 else 1
    atanGo z2 alt fuel (k + 1) t' (acc + sgn * (t' / (2 * k + 1) : Nat))

/-- atanh of a fixed-point z below 1/2. -/
def fxAtanh (z : Nat) : Nat := (atanGo (z * z / 2 ^ fxp) false 180 1 z z).toNat

/-- atan (1 / n) in fixed point. -/
def fxAtanInv (n : Nat) : Nat :=
  (atanGo (2 ^ fxp / (n * n)) true 90 1 (2 ^ fxp / n) (2 ^ fxp / n : Nat)).toNat

/-- ln 2 and π in fixed point (Machin's formula). -/
def fxLn2 : Nat := 2 * fxAtanh (2 ^ fxp / 3)
def fxPi : Nat := 16 * fxAtanInv 5 - 4 * fxAtanInv 239

/-- The exact result of a function as sign, magnitude, exponent and whether bits lie below it; `none` where
the arguments above decide. -/
def fxExp2 (neg : Bool) (m : Nat) (e : Int) : Nat × Int × Bool :=
  -- x = n + f with 0 ≤ f < 1, held to fxp bits
  let x : Int := (if neg then -1 else 1) *
    (if 0 ≤ e + fxp then (m : Int) * 2 ^ (e + fxp).toNat else (m / 2 ^ (-(e + fxp)).toNat : Nat))
  let n := x / 2 ^ fxp
  let f := (x % 2 ^ fxp).toNat
  (fxExp (f * fxLn2 / 2 ^ fxp), n - fxp, f != 0)

def fxLog2 (m : Nat) (e : Int) : Bool × Nat × Bool :=
  let top := bitLen m - 1
  let one := 2 ^ fxp
  let mant := m * one / 2 ^ top
  let l := 2 * fxAtanh ((mant - one) * one / (mant + one)) * one / fxLn2
  let v : Int := (e + top) * one + l
  (decide (v < 0), v.natAbs, mant != one)

def fxSinCos (cos neg : Bool) (m : Nat) (e : Int) : Bool × Nat :=
  let x := if 0 ≤ e + fxp then m * 2 ^ (e + fxp).toNat else m / 2 ^ (-(e + fxp)).toNat
  let h := fxPi / 2
  let k := x / h
  let r := x % h
  let q := if cos then (k + 1) % 4 else k % 4
  let sgn := (q == 2 || q == 3) != (neg && !cos)
  (sgn, if q % 2 = 0 then fxSin r else fxCos r)

/-- The cut result moved by the open step: any value within 2 ulp of the exact one. -/
def FFmt.within2 (f : FFmt) (fn a : Nat) (w : Nat) (inexact : Bool) : Nat :=
  let sgn := bits w (f.eb + f.mb) (f.eb + f.mb) * 2 ^ (f.eb + f.mb)
  let mag := w % 2 ^ (f.eb + f.mb)
  let st := Config.fmfStep fn a
  let mag' := if inexact then mag + st % 4 - 1 else mag + st % 5 - 2
  sgn + min mag' (f.inf false)

/-- A result of known sign, magnitude and exponent, within 2 ulp; a denormal one flushed under `ftz`. -/
def FFmt.near (f : FFmt) (fn a : Nat) (ftz neg : Bool) (m : Nat) (e : Int) (inexact : Bool) : Nat × FFlags :=
  let (_, fl) := f.round 0 ftz false neg m e inexact
  if fl.overflow then (f.inf neg, fl)
  else
    let (w, fl1) := f.round 1 ftz false neg m e inexact
    let v := f.within2 fn a w inexact
    (if ftz then f.flush v else v, fl1)

/-- FMF: function codes 0 rcp, 1 rsqrt, 2 sqrt, 3 exp2, 4 log2, 5 sin, 6 cos. -/
def FFmt.mathFn (f : FFmt) (fn rm : Nat) (ftz : Bool) (a0 : Nat) : Nat × FFlags :=
  let a := if ftz then f.flush a0 else a0
  if fn = 0 then f.rcp rm ftz a
  else if fn = 2 then f.sqrt rm ftz a
  else
    match f.unpack a with
    | .nan s => (f.nan, if s then .bad else .none)
    | .inf n =>
      match fn with
      | 1 => if n then (f.nan, .bad) else (0, .none)
      | 3 => if n then (0, .none) else (f.inf false, .none)
      | 4 => if n then (f.nan, .bad) else (f.inf false, .none)
      | _ => (f.nan, .bad)
    | .fin n m e =>
      match fn with
      | 1 =>
        if m = 0 then (Config.fmfOpen fn a % 2 ^ f.width, .none)
        else if n then (f.nan, .bad)
        else
          let k : Nat := if e % 2 = 0 then 200 + 2 * bitLen m else 201 + 2 * bitLen m
          let x := 2 ^ k / m
          let r := isqrt x
          f.near fn a ftz false r (-((k : Int) + e) / 2) (2 ^ k % m != 0 || r * r != x)
      | 3 =>
        if 10 < (bitLen m : Int) + e then
          if n then (if ftz then 0 else f.within2 fn a 0 true, ⟨false, false, false, true⟩) else (f.inf false, ⟨false, false, true, false⟩)
        else
          let (v, ex, inex) := fxExp2 n m e
          f.near fn a ftz false v ex inex
      | 4 =>
        if m = 0 then (f.inf true, ⟨false, true, false, false⟩)
        else if n then (f.nan, .bad)
        else
          let (s, v, inex) := fxLog2 m e
          f.near fn a ftz s v (-(fxp : Int)) inex
      | 5 =>
        if m = 0 then (a, .none)
        else
          let (s, v) := fxSinCos false n m e
          f.near fn a ftz s v (-(fxp : Int)) true
      | _ =>
        if m = 0 then f.near fn a ftz false 1 0 false
        else
          let (s, v) := fxSinCos true n m e
          f.near fn a ftz s v (-(fxp : Int)) true

end Sys2Proof.Machine
end

