-- ==== Sys2Proof/Machine/CoreFp.lean ====
section
/-! DEFINITION. The FP32, packed and conversion instructions of R300 and R301, with the sticky flags and the
FP trap of R322. -/

namespace Sys2Proof.Machine

/-- The sticky flags of COR_FPX of a half (R322). -/
def State.stickFp (s : State) (h m : Nat) : State := s.setReg (R.corFpx h) (s.reg (R.corFpx h) ||| m)

/-- The flags of a list of lanes' results, joined. -/
def flagsOf (l : List (Nat × Nat × FFlags)) : Nat := (l.foldl (fun f r => f.or r.2.2) FFlags.none).mask

/-- The lanes whose flags meet the enabled traps. -/
def trapLanes (en : Nat) (l : List (Nat × Nat × FFlags)) : List Nat :=
  (l.filter fun r => r.2.2.mask &&& en != 0).map (·.1)

/-- A floating-point instruction: each acting lane's result and flags from a function of the lane; an enabled
trap stops the group before anything is written. -/
def State.perLaneFp (s : State) (g : GroupRef) (f : CoreFields) (p : OpSpec)
    (wr : Group → Nat → Nat → Group) (fn : Group → Nat → Nat × FFlags) : State :=
  s.issue g f p [] fun s b x =>
    let rs := (x.acting f).map fun l => (l, fn x l)
    let s := s.stickFp g.half (flagsOf rs)
    if trapLanes b.fpTrap rs = [] then
      s.setGroup g ((rs.foldl (fun y r => wr y r.1 r.2.1) x).step p f (x.readsPending p f))
    else s.raise g x 0x0C 0 (maskOf (trapLanes b.fpTrap rs))

/-- mod[1:0], the rounding mode. -/
def rmOf (f : CoreFields) : Nat := bits f.mod 1 0

/-- mod[2], flush to zero. -/
def ftzOf (f : CoreFields) : Bool := bit f.mod 2

/-- A two-source FP32 instruction. -/
def State.fp2 (s : State) (g : GroupRef) (f : CoreFields) (fn : Nat → Nat → Nat × FFlags) : State :=
  let p := OpSpec.alu (.regs 1) (.regs 1) (.regs 1) .unused (decide (f.mod < 8))
  s.perLaneFp g f p (fun y l v => y.setReg l f.d v) fun x l => fn (x.reg l f.a) (x.srcB p f l)

/-- FADD: d = a + b. -/
def execFadd (g : GroupRef) (f : CoreFields) (s : State) : Host.Outcome State Fault Refusal :=
  .next (s.fp2 g f (FFmt.f32.add (rmOf f) (ftzOf f)))

/-- FMUL: d = a × b. -/
def execFmul (g : GroupRef) (f : CoreFields) (s : State) : Host.Outcome State Fault Refusal :=
  .next (s.fp2 g f (FFmt.f32.mul (rmOf f) (ftzOf f)))

/-- FFMA: d = a × b + c, rounded once. -/
def execFfma (g : GroupRef) (f : CoreFields) (s : State) : Host.Outcome State Fault Refusal :=
  let p := OpSpec.alu (.regs 1) (.regs 1) (.regs 1) (.regs 1) (decide (f.mod < 8))
  .next (s.perLaneFp g f p (fun y l v => y.setReg l f.d v) fun x l =>
    FFmt.f32.fma (rmOf f) (ftzOf f) (x.reg l f.a) (x.srcB p f l) (x.reg l f.c))

/-- FMIN: d = the smaller of a and b. -/
def execFmin (g : GroupRef) (f : CoreFields) (s : State) : Host.Outcome State Fault Refusal :=
  .next (s.fp2 g f (FFmt.f32.minMax true (ftzOf f)))

/-- FMAX: d = the larger of a and b. -/
def execFmax (g : GroupRef) (f : CoreFields) (s : State) : Host.Outcome State Fault Refusal :=
  .next (s.fp2 g f (FFmt.f32.minMax false (ftzOf f)))

/-- FCMP: predicate d = (a compare b). -/
def execFcmp (g : GroupRef) (f : CoreFields) (s : State) : Host.Outcome State Fault Refusal :=
  let p := OpSpec.alu .pred (.regs 1) (.regs 1) .unused (decide (f.mod < 64))
  .next (s.perLaneFp g f p (fun y l v => y.setPred l f.d (v == 1)) fun x l =>
    let r := FFmt.f32.compare (bits f.mod 5 3) (ftzOf f) (x.reg l f.a) (x.srcB p f l)
    (r.1.toNat, r.2))

/-- FMF: d = f(a), mod[5:3] the function; the rounding mode is zero but for rcp and sqrt. -/
def execFmf (g : GroupRef) (f : CoreFields) (s : State) : Host.Outcome State Fault Refusal :=
  let fn := bits f.mod 5 3
  let p := OpSpec.alu (.regs 1) (.regs 1) .unused .unused
    (decide (f.mod < 64) && decide (fn < 7) && (fn == 0 || fn == 2 || rmOf f == 0))
  .next (s.perLaneFp g f p (fun y l v => y.setReg l f.d v) fun x l =>
    FFmt.f32.mathFn fn (rmOf f) (ftzOf f) (x.reg l f.a))

/-- The packed format: mod[0] selects FP16 or BF16. -/
def packFmt (f : CoreFields) : FFmt := if bit f.mod 0 then .bf16 else .f16

/-- Both halves of a register computed alike. -/
def packed (fn : Nat → Nat → Nat → Nat × FFlags) (a b c : Nat) : Nat × FFlags :=
  let lo := fn (bits a 15 0) (bits b 15 0) (bits c 15 0)
  let hi := fn (bits a 31 16) (bits b 31 16) (bits c 31 16)
  (lo.1 + 2 ^ 16 * hi.1, lo.2.or hi.2)

/-- A packed instruction. -/
def State.packedOp (s : State) (g : GroupRef) (f : CoreFields) (useC : Bool)
    (fn : Nat → Nat → Nat → Nat × FFlags) : State :=
  let p := OpSpec.alu (.regs 1) (.regs 1) (.regs 1) (if useC then .regs 1 else .unused) (decide (f.mod < 2))
  s.perLaneFp g f p (fun y l v => y.setReg l f.d v) fun x l =>
    packed fn (x.reg l f.a) (x.srcB p f l) (x.reg l f.c)

/-- PADD: per half, d = a + b. -/
def execPadd (g : GroupRef) (f : CoreFields) (s : State) : Host.Outcome State Fault Refusal :=
  .next (s.packedOp g f false fun a b _ => (packFmt f).add 0 false a b)

/-- PMUL: per half, d = a × b. -/
def execPmul (g : GroupRef) (f : CoreFields) (s : State) : Host.Outcome State Fault Refusal :=
  .next (s.packedOp g f false fun a b _ => (packFmt f).mul 0 false a b)

/-- PFMA: per half, d = a × b + c, rounded once. -/
def execPfma (g : GroupRef) (f : CoreFields) (s : State) : Host.Outcome State Fault Refusal :=
  .next (s.packedOp g f true fun a b c => (packFmt f).fma 0 false a b c)

/-- PMIN: per half, as FMIN. -/
def execPmin (g : GroupRef) (f : CoreFields) (s : State) : Host.Outcome State Fault Refusal :=
  .next (s.packedOp g f false fun a b _ => (packFmt f).minMax true false a b)

/-- PMAX: per half, as FMAX. -/
def execPmax (g : GroupRef) (f : CoreFields) (s : State) : Host.Outcome State Fault Refusal :=
  .next (s.packedOp g f false fun a b _ => (packFmt f).minMax false false a b)

/-! ### Conversions (R301) -/

/-- A CVT type: an integer of a width and signedness, or a float. -/
inductive CvtType
  | int (w : Nat) (sgn : Bool)
  | flt (f : FFmt)
  deriving DecidableEq, Repr

/-- The type codes of R301. -/
def cvtType (c : Nat) : CvtType :=
  match c with
  | 0 => .int 8 false
  | 1 => .int 8 true
  | 2 => .int 16 false
  | 3 => .int 16 true
  | 4 => .int 32 false
  | 5 => .int 32 true
  | 6 => .int 64 false
  | 7 => .int 64 true
  | 8 => .flt .f16
  | 9 => .flt .bf16
  | 10 => .flt .f32
  | 11 => .flt .e4m3
  | _ => .flt .e5m2

/-- Registers a type occupies. -/
def cvtRegs (c : Nat) : Nat := if c = 6 || c = 7 then 2 else 1

/-- Least and greatest value of an integer type. -/
def intMin (w : Nat) (sgn : Bool) : Int := if sgn then -(2 ^ (w - 1) : Nat) else 0
def intMax (w : Nat) (sgn : Bool) : Int := if sgn then (2 ^ (w - 1) : Nat) - 1 else (2 ^ w : Nat) - 1

/-- An integer result in its register: narrow signed results carry copies of the sign (R301). -/
def cvtFill (w : Nat) (v : Int) : Nat := unsigned (max w 32) v

/-- An integer clamped to a type, and whether it lay outside. -/
def clampInt (w : Nat) (sgn : Bool) (v : Int) : Int × Bool :=
  if v < intMin w sgn then (intMin w sgn, true) else if intMax w sgn < v then (intMax w sgn, true) else (v, false)

/-- A finite float truncated toward zero. -/
def truncFloat (neg : Bool) (m : Nat) (e : Int) : Int :=
  let k : Nat := if 0 ≤ e then m * 2 ^ (min e 1024).toNat else m / 2 ^ (min (-e) 1024).toNat
  if neg then -(k : Int) else k

/-- One conversion: `sat` is CVTS. -/
def convert (src dst : Nat) (sat : Bool) (a : Nat) : Nat × FFlags :=
  match cvtType src, cvtType dst with
  | .int w sg, .int w' sg' =>
    let v : Int := if sg then signed w a else ((a % 2 ^ w : Nat) : Int)
    let c := clampInt w' sg' v
    if c.2 && !sat then (cvtFill w' (Config.cvtOpen src dst a : Int), .none) else (cvtFill w' c.1, .none)
  | .int w sg, .flt f =>
    let v : Int := if sg then signed w a else ((a % 2 ^ w : Nat) : Int)
    f.round 0 false sat (decide (v < 0)) v.natAbs 0 false
  | .flt f, .int w' sg' =>
    match f.unpack (a % 2 ^ f.width) with
    | .nan _ => (0, .bad)
    | .inf n => (cvtFill w' (if n then intMin w' sg' else intMax w' sg'), .bad)
    | .fin n m e =>
      let c := clampInt w' sg' (truncFloat n m e)
      (cvtFill w' c.1, if c.2 then .bad else .none)
  | .flt f, .flt f' =>
    match f.unpack (a % 2 ^ f.width) with
    | .nan sg => (f'.nan, if sg then .bad else .none)
    | .inf n => (if sat then f'.maxFinite n else f'.inf n, .none)
    | .fin n m e => f'.round 0 false sat n m e false

/-- CVT and CVTS. -/
def State.cvt (s : State) (g : GroupRef) (f : CoreFields) (sat : Bool) : State :=
  let src := bits f.mod 3 0
  let dst := bits f.mod 7 4
  let p := OpSpec.alu (.regs (cvtRegs dst)) (.regs (cvtRegs src)) .unused .unused
    (decide (src < 13) && decide (dst < 13))
  s.perLaneFp g f p (fun y l v => y.setRegs l f.d v (cvtRegs dst)) fun x l =>
    convert src dst sat (x.regs' l f.a (cvtRegs src))

/-- CVT: d = a converted from type mod[3:0] to type mod[7:4]. -/
def execCvt (g : GroupRef) (f : CoreFields) (s : State) : Host.Outcome State Fault Refusal :=
  .next (s.cvt g f false)

/-- CVTS: as CVT, saturating. -/
def execCvts (g : GroupRef) (f : CoreFields) (s : State) : Host.Outcome State Fault Refusal :=
  .next (s.cvt g f true)

end Sys2Proof.Machine
end

