-- ==== Sys2Proof/Machine/ArrayFp.lean ====
section
/-! DEFINITION. The arithmetic of a matrix array (R386 to R395). -/

namespace Sys2Proof.Machine

/-- An FP32 word with a denormal made zero while MXA_CFG.ftz is 1. -/
def ftz32 (ftz : Bool) (w : Nat) : Nat := if ftz then FFmt.f32.flush w else w

/-- An FP32 result, a denormal made zero (and counted as an underflow) while ftz is 1. -/
def out32 (ftz : Bool) (r : Nat × FFlags) : Nat × FFlags :=
  if ftz && FFmt.f32.flush r.1 != r.1 then (FFmt.f32.flush r.1, r.2.or ⟨false, false, false, true⟩) else r

/-- Bytes of an element of a format code of R301. -/
def fmtBytes (c : Nat) : Nat := [1, 1, 2, 2, 4, 4, 8, 8, 2, 2, 4, 1, 1].getD c 1

/-- A float of a format code as an exact FP32 word. -/
def widen32 (c w : Nat) : Nat := if c = 10 then w else (convert c 10 false w).1

/-- Chunk of a byte string into elements of `k` bytes. -/
def elemsOf (k : Nat) : Nat → List Nat → List Nat
  | 0, _ => []
  | n + 1, bs => leVal (bs.take k) :: elemsOf k n (bs.drop k)

/-- One accumulation of R386: RNE(acc + a × b). -/
def macStep (ftz : Bool) (acc a b : Nat) : Nat := (out32 ftz (FFmt.f32.fma 0 false a b (ftz32 ftz acc))).1

/-- Exact sum of products of s8 elements (R387). -/
def dotInt (xs ys : List Nat) (acc : Int) : Int :=
  (xs.zip ys).foldl (fun a p => a + signed 8 p.1 * signed 8 p.2) acc

/-- Accumulation of floats in ascending k' (R386). -/
def dotFp (ftz : Bool) (fa fb : Nat) (xs ys : List Nat) (acc : Nat) : Nat :=
  (xs.zip ys).foldl (fun a p => macStep ftz a (widen32 fa p.1) (widen32 fb p.2)) acc

/-- RNE(float(P) × 2^(ea - 127) × 2^(eb - 127)); a scale byte of 255 is a NaN (R389, R390). -/
def scaleBy (ftz : Bool) (v ea eb : Nat) : Nat :=
  if ea = 255 || eb = 255 then FFmt.f32.nan
  else
    match FFmt.f32.unpack (ftz32 ftz v) with
    | .nan _ => FFmt.f32.nan
    | .inf n => FFmt.f32.inf n
    | .fin n m e => (out32 ftz (FFmt.f32.round 0 false false n m (e + ea + eb - 254) false)).1

/-- An integer rounded to FP32. -/
def intTo32 (v : Int) : Nat := (FFmt.f32.round 0 false false (decide (v < 0)) v.natAbs 0 false).1

/-- Whether the accumulators of a tile are integers: s8 without scaling. -/
def TileDesc.intAcc (d : TileDesc) : Bool := d.fmtA == 1 && bits d.pro 1 0 == 0

/-- Elements of a scale block (R378). -/
def TileDesc.blk (d : TileDesc) : Nat := 32 * 2 ^ bits d.pro 3 2

/-- Elements of k in a chunk (R383). -/
def TileDesc.chunkLen (d : TileDesc) : Nat := if fmtBytes d.fmtA = 1 then 512 else 256

/-- Chunks of a tile. -/
def TileDesc.chunks (d : TileDesc) : Nat := (d.k + d.chunkLen - 1) / d.chunkLen

/-- The blocks of one chunk of scaled operands, in ascending order (R390). -/
def scaledBlocks (ftz : Bool) (d : TileDesc) : Nat → List Nat → List Nat → List Nat → List Nat → Nat → Nat
  | 0, _, _, _, _, acc => acc
  | q + 1, xs, ys, sa, sb, acc =>
    let k := d.blk
    let p := if d.fmtA = 1 then intTo32 (dotInt (xs.take k) (ys.take k) 0)
      else dotFp ftz d.fmtA d.fmtB (xs.take k) (ys.take k) 0
    let v := scaleBy ftz p (if bit d.pro 0 then sa.headD 127 else 127) (if bit d.pro 1 then sb.headD 127 else 127)
    let acc := (out32 ftz (FFmt.f32.add 0 false (ftz32 ftz acc) v)).1
    scaledBlocks ftz d q (xs.drop k) (ys.drop k) (sa.drop 1) (sb.drop 1) acc

/-- One element's accumulation over one chunk. -/
def accElem (ftz : Bool) (d : TileDesc) (xs ys sa sb : List Nat) (acc : Int) : Int :=
  if bits d.pro 1 0 != 0 then scaledBlocks ftz d (xs.length / d.blk) xs ys sa sb acc.toNat
  else if d.fmtA = 1 then dotInt xs ys acc
  else dotFp ftz d.fmtA d.fmtB xs ys acc.toNat

/-- All m × n accumulators over one chunk: rows of A and of Bᵀ as elements, rows of scale bytes. -/
def accChunk (ftz : Bool) (d : TileDesc) (ra rb sa sb : List (List Nat)) (acc : List Int) : List Int :=
  let cells := (ra.zipIdx).flatMap fun x => (rb.zipIdx).map fun y => (x, y)
  (cells.zip acc).map fun c =>
    accElem ftz d c.1.1.1 c.1.2.1 (sa.getD c.1.1.2 []) (sb.getD c.1.2.2 []) c.2

/-! ### The epilogue -/

/-- 1 / (1 + e^-x) as a ratio, for x in fixed point. -/
def sigmoidRatio (x : Int) : Nat × Nat :=
  let a := if x < 0 then x else -x
  let n := a / fxLn2
  let e := fxExp (a % fxLn2).toNat
  let one := 2 ^ (fxp - n).toNat
  if x < 0 then (e, one + e) else (one, one + e)

/-- The argument of the logistic function: v for SiLU, 2 × 0.7978845608 × (v + 0.044715 v³) for GELU. -/
def actArg (gelu : Bool) (v : Int) : Int :=
  if gelu then
    let v3 := v * v * v / 2 ^ (2 * fxp)
    2 * 7978845608 * (1000000 * v + 44715 * v3) / 10000000000000000
  else v

/-- GELU and SiLU of R391, within 2 ulp (R392): both are v times a logistic value. Their value at -∞ is not
stated (log entry 39). -/
def actFn (gelu ftz : Bool) (w : Nat) : Nat × FFlags :=
  let fn := if gelu then 32 else 33
  match FFmt.f32.unpack w with
  | .nan s => (FFmt.f32.nan, if s then .bad else .none)
  | .inf n => if n then (Config.fmfOpen fn w % 2 ^ 32, .none) else (w, .none)
  | .fin n m e =>
    if m = 0 then (w, .none)
    else if 9 < (bitLen m : Int) + e then
      if n then FFmt.f32.near fn w ftz true 1 (-400) true else FFmt.f32.near fn w ftz false m e true
    else
      let v : Int := (if n then -1 else 1) *
        (if 0 ≤ e + fxp then (m : Int) * 2 ^ (e + fxp).toNat else (m / 2 ^ (-(e + fxp)).toNat : Nat))
      let x := actArg gelu v
      if x < -300 * 2 ^ fxp then FFmt.f32.near fn w ftz n 1 (-400) true
      else
        let r := sigmoidRatio x
        let k := 100 + bitLen r.2
        FFmt.f32.near fn w ftz n (m * r.1 * 2 ^ k / r.2) (e - k) true

/-- Step 2 of R391. -/
def activate (act : Nat) (ftz : Bool) (w : Nat) : Nat × FFlags :=
  match act with
  | 0 => (w, .none)
  | 1 => if (FFmt.f32.unpack w).isNaN then (w, .none) else if FFmt.f32.neg w then (0, .none) else (w, .none)
  | 2 => out32 ftz (actFn true ftz w)
  | _ => out32 ftz (actFn false ftz w)

/-- A row's statistics (R393): sum, sumsq, max, count. -/
structure RowStat where
  sum : Nat
  sumsq : Nat
  top : Nat
  count : Nat
  deriving DecidableEq, Repr

/-- The statistics with one more value. -/
def RowStat.take (ftz : Bool) (r : RowStat) (v : Nat) : RowStat × FFlags :=
  let a := out32 ftz (FFmt.f32.add 0 false (ftz32 ftz r.sum) v)
  let q := out32 ftz (FFmt.f32.fma 0 false v v (ftz32 ftz r.sumsq))
  let t := FFmt.f32.minMax false false (ftz32 ftz r.top) v
  ({ sum := a.1, sumsq := q.1, top := t.1, count := (r.count + 1) % 2 ^ 32 }, (a.2.or q.2).or t.2)

/-- What the epilogue of one row has made so far. -/
structure EpiRow where
  stat : RowStat
  out : List Nat
  flags : FFlags
  cvtNan : Bool
  deriving DecidableEq, Repr

/-- Steps 1 to 5 for one element: accumulator, bias and residual words. -/
def epiElem (ftz : Bool) (d : TileDesc) (row : EpiRow) (acc : Int) (bias res : Nat) : EpiRow :=
  let x := if d.intAcc then intTo32 acc else ftz32 ftz acc.toNat
  let alpha := ftz32 ftz d.alpha
  let v1 := out32 ftz (if bit d.epi 0 then FFmt.f32.fma 0 false x alpha (ftz32 ftz bias) else FFmt.f32.mul 0 false x alpha)
  let v2 := activate (bits d.epi 2 1) ftz v1.1
  let r := if d.fmtR = 10 then ftz32 ftz res else widen32 d.fmtR res
  let v3 := if bit d.epi 3 then out32 ftz (FFmt.f32.add 0 false v2.1 r) else (v2.1, .none)
  let st := if bits d.epi 5 4 = 0 then (row.stat, FFlags.none) else row.stat.take ftz v3.1
  let c := if d.fmtC = 10 then (v3.1, FFlags.none) else convert 10 d.fmtC (bit d.epi 6) v3.1
  let nan := ((match cvtType d.fmtC with | .flt f => f.unpack c.1 | .int .. => .fin false 0 0)).isNaN
  { stat := st.1, out := row.out ++ [c.1],
    flags := ((((row.flags.or v1.2).or v2.2).or v3.2).or st.2).or c.2, cvtNan := row.cvtNan || nan }

/-- The epilogue of one row in ascending j; the s32 path writes the accumulators unchanged. -/
def epiRow (ftz : Bool) (d : TileDesc) (st : RowStat) (acc : List Int) (bias res : List Nat) : EpiRow :=
  if d.fmtC = 5 then { stat := st, out := acc.map (unsigned 32), flags := .none, cvtNan := false }
  else (acc.zipIdx).foldl (fun row a => epiElem ftz d row a.1 (bias.getD a.2 0) (res.getD a.2 0))
    { stat := st, out := [], flags := .none, cvtNan := false }

end Sys2Proof.Machine
end

