-- ==== Sys2Proof/Machine/Matrix.lean ====
section
/-! DEFINITION. Matrix arrays: submission, checks, staging, main loops, epilogues (R373 to R410). A tile
leaves the queue when its main loop starts (log entry 40). -/

namespace Sys2Proof.Machine

/-- An array with nothing queued. -/
def ArraySt.empty : ArraySt :=
  { asks := [], queue := [], running := [], partner := none, ftz := false, timeout := 64, nextTile := 0, fpxNoted := false }

/-- The array of a half. -/
def State.array (s : State) (h : Nat) : ArraySt := Map.getD s.arr h ArraySt.empty

/-- The array replaced; MXA_STATUS follows. -/
def State.setArray (s : State) (h : Nat) (a : ArraySt) : State :=
  let s := { s with arr := Map.set s.arr h a }
  let v := min 16 a.queue.length + 32 * (a.running.any fun t => t.st == .main).toNat +
    64 * (a.running.any fun t => t.st == .epi).toNat + 256 * a.partner.getD 0x1F
  s.setReg (R.mxaStatus h) v

/-! ### Descriptors -/

/-- Field of `n` bytes at offset `o` of a descriptor. -/
def descField (v o n : Nat) : Nat := lineGet v o n

/-- A descriptor's 128 bytes as fields. -/
def TileDesc.parse (v : Nat) : TileDesc :=
  { aAddr := descField v 0x00 8, bAddr := descField v 0x08 8, cAddr := descField v 0x10 8, rAddr := descField v 0x18 8,
    biasAddr := descField v 0x20 8, saAddr := descField v 0x28 8, sbAddr := descField v 0x30 8,
    statAddr := descField v 0x38 8, m := descField v 0x40 2, n := descField v 0x42 2, k := descField v 0x44 4,
    lda := descField v 0x48 4, ldb := descField v 0x4C 4, ldc := descField v 0x50 4, ldr := descField v 0x54 4,
    fmtA := descField v 0x58 1, fmtB := descField v 0x59 1, fmtC := descField v 0x5A 1, fmtR := descField v 0x5B 1,
    pro := descField v 0x5C 1, epi := descField v 0x5D 1, pair := descField v 0x5E 1, partner := descField v 0x5F 1,
    alpha := descField v 0x60 4, tag := descField v 0x64 2, rest := descField v 0x66 26 }

def TileDesc.scaleA (d : TileDesc) : Bool := bit d.pro 0
def TileDesc.scaleB (d : TileDesc) : Bool := bit d.pro 1
def TileDesc.scaled (d : TileDesc) : Bool := d.scaleA || d.scaleB
def TileDesc.bias (d : TileDesc) : Bool := bit d.epi 0
def TileDesc.residual (d : TileDesc) : Bool := bit d.epi 3
def TileDesc.stats (d : TileDesc) : Nat := bits d.epi 5 4
def TileDesc.role (d : TileDesc) : Nat := bits d.pair 1 0
def TileDesc.share (d : TileDesc) : Bool := bit d.pair 2

/-- The tile reads A (or Bᵀ) from memory: a follower does not read the shared operand (R401). -/
def TileDesc.readsA (d : TileDesc) : Bool := !(d.role == 2 && !d.share)
def TileDesc.readsB (d : TileDesc) : Bool := !(d.role == 2 && d.share)

/-- Fields in range and reserved or unused fields zero (reason 2, R378, R379). The addresses and strides that a
follower must leave zero are judged under reason 7. -/
def TileDesc.fieldsOk (d : TileDesc) : Bool :=
  let isFmt (l : List Nat) (f : Nat) : Bool := l.contains f
  decide (1 ≤ d.m && d.m ≤ 256 && 1 ≤ d.n && d.n ≤ 256 && 32 ≤ d.k && d.k ≤ 65536) &&
  d.k % 32 == 0 && (!d.scaled || d.k % d.blk == 0) &&
  isFmt [11, 12, 8, 9, 1] d.fmtA && isFmt [11, 12, 8, 9, 1] d.fmtB && isFmt [10, 9, 8, 11, 12, 5] d.fmtC &&
  bits d.pro 3 2 < 3 && bits d.pro 7 4 == 0 && (d.scaled || bits d.pro 3 2 == 0) &&
  d.stats < 3 && !bit d.epi 7 && d.role < 3 && bits d.pair 7 3 == 0 && d.rest == 0 &&
  (d.residual && isFmt [10, 9, 8] d.fmtR || !d.residual && d.fmtR == 0 && d.rAddr == 0 && d.ldr == 0) &&
  (d.bias || d.biasAddr == 0) && (d.scaleA || d.saAddr == 0) && (d.scaleB || d.sbAddr == 0) &&
  (d.stats != 0 || d.statAddr == 0) && (d.fmtC != 5 || d.alpha == 0) &&
  (if d.role = 0 then !d.share && d.tag == 0 && d.partner == 0 else d.partner < 16)

/-- The format combinations of R381. -/
def TileDesc.combOk (d : TileDesc) : Bool :=
  let fp8 (f : Nat) : Bool := f == 11 || f == 12
  let wide := d.fmtC != 5
  if fp8 d.fmtA && fp8 d.fmtB then wide
  else if d.fmtA == 8 && d.fmtB == 8 || d.fmtA == 9 && d.fmtB == 9 then wide
  else if d.fmtA == 1 && d.fmtB == 1 then wide || (d.epi == 0 && d.pro == 0 && d.role == 0)
  else false

/-- A full-rate path (R381). -/
def TileDesc.full (d : TileDesc) : Bool := fmtBytes d.fmtA == 1

/-- `count` rows of `len` bytes, `stride` apart: address and length of each. -/
def rowRanges (base stride count len : Nat) : List (Nat × Nat) := (List.range count).map fun i => (base + i * stride, len)

/-- The byte ranges of A, Bᵀ, the bias and the scale bytes that a tile reads. -/
def TileDesc.operands (d : TileDesc) : List (Nat × Nat) :=
  (if d.readsA then rowRanges d.aAddr d.lda d.m (d.k * fmtBytes d.fmtA) else []) ++
  (if d.readsB then rowRanges d.bAddr d.ldb d.n (d.k * fmtBytes d.fmtB) else []) ++
  (if d.bias then [(d.biasAddr, 4 * d.n)] else []) ++
  (if d.scaleA && d.readsA then [(d.saAddr, d.m * (d.k / d.blk))] else []) ++
  (if d.scaleB && d.readsB then [(d.sbAddr, d.n * (d.k / d.blk))] else [])

/-- Those of C and of the statistics entries, which it writes. -/
def TileDesc.results (d : TileDesc) : List (Nat × Nat) :=
  rowRanges d.cAddr d.ldc d.m (d.n * fmtBytes d.fmtC) ++ (if d.stats = 0 then [] else [(d.statAddr, 16 * d.m)])

/-- Every byte range that a tile reads or writes. -/
def TileDesc.ranges (d : TileDesc) : List (Nat × Nat) :=
  d.operands ++ d.results ++ (if d.residual then rowRanges d.rAddr d.ldr d.m (d.n * fmtBytes d.fmtR) else [])

/-- Two byte ranges have a byte in common. -/
def rangesMeet (p q : Nat × Nat) : Bool := p.1 < q.1 + q.2 && q.1 < p.1 + p.2

/-- R382: what the tile writes overlaps what it reads, or its descriptor at `addr`. -/
def TileDesc.clash (d : TileDesc) (addr : Nat) : Bool :=
  d.results.any fun r => ((addr, 128) :: d.operands).any (rangesMeet r)

/-- A byte range lies in HBM. -/
def State.rangeInHbm (s : State) (a n : Nat) : Bool := s.inHbm a && spanOf a == spanOf (a + n - 1)

/-- Alignment (reason 5). -/
def TileDesc.aligned (d : TileDesc) : Bool :=
  d.aAddr % 128 == 0 && d.bAddr % 128 == 0 && d.lda % 128 == 0 && d.ldb % 128 == 0 &&
  d.cAddr % 32 == 0 && d.rAddr % 32 == 0 && d.ldc % 32 == 0 && d.ldr % 32 == 0 &&
  d.biasAddr % 16 == 0 && d.saAddr % 16 == 0 && d.sbAddr % 16 == 0 && d.statAddr % 16 == 0

/-- The physical half of the partner that a descriptor names, in the partition of a half. -/
def State.mateHalf (s : State) (h : Nat) (d : TileDesc) : Option Nat :=
  match s.partOfHalf h with
  | none => none
  | some p =>
    match s.partRec p with
    | none => none
    | some r => r.halves[d.partner]?

/-- R402: two halves on peaks joined by a bridge col (B01 to B67, cols 0 to 5) with a matrix operand streamer
channel of the partition or shared. -/
def State.bridged (s : State) (p h k : Nat) : Bool :=
  let a := min (h / 2) (k / 2)
  decide (max (h / 2) (k / 2) = a + 1) &&
  (match s.img.committed with
   | some im => im.streams.any fun x => decide (x.col < 6) && colEnds x.col == (a, a + 1) && x.engine == 3 && (x.part == p || x.part == 0xFF)
   | none => false)

/-- R402 and R403 hold for the pair a descriptor asks for. -/
def State.pairOk (s : State) (h : Nat) (d : TileDesc) : Bool :=
  match s.partOfHalf h, s.mateHalf h d with
  | some p, some k =>
    s.bridged p h k && (match (s.array h).partner with | some b => b == k | none => true) &&
    (match (s.array k).partner with | some b => b == h | none => true)
  | _, _ => false

/-- The first of reasons 1 to 6 that refuses an MXS; 0 for none (R380). -/
def State.tileReason (s : State) (h : Nat) (q : MxsAsk) : Nat :=
  match q.desc with
  | none => 1
  | some d =>
    if !d.fieldsOk then 2
    else if !d.combOk then 3
    else if !(d.ranges.all fun r => s.rangeInHbm r.1 r.2) then 4
    else if !d.aligned then 5
    else if d.role != 0 && !s.pairOk h d then 6
    else 0

/-- R404: the descriptors of a pair agree. -/
def TileDesc.agrees (d e : TileDesc) : Bool :=
  let f := if d.role = 2 then d else e
  d.k == e.k && bits d.pro 3 2 == bits e.pro 3 2 && d.share == e.share &&
  (if d.share then d.n == e.n && d.fmtB == e.fmtB && d.scaleB == e.scaleB && f.bAddr == 0 && f.ldb == 0 && f.sbAddr == 0
   else d.m == e.m && d.fmtA == e.fmtA && d.scaleA == e.scaleA && f.aAddr == 0 && f.lda == 0 && f.saAddr == 0)

/-! ### Submission -/

/-- MXS: the descriptor at the 64-bit address a of the lowest acting lane is read through the descriptor cache
and sent to the half's array; the group waits until it is accepted (R373 to R375). -/
def execMxs (g : GroupRef) (f : CoreFields) (s : State) : Host.Outcome State Fault Refusal :=
  let p := { OpSpec.alu .unused (.regs 2) .unused .unused (f.mod == 0) with commit := true }
  .next (s.issue g f p [] fun s _ x =>
    match x.acting f with
    | [] => s.setGroup g { x with pc := x.pc + f.len }
    | lane :: _ =>
      let a := x.regs' lane f.a 2
      let ok := a % 128 == 0 && s.inHbm a
      if ok && (s.descPoison g.half g.core (a / 64) || s.descPoison g.half g.core (a / 64 + 1)) then
        (s.setGroup g { x with wait := .submit }).poisonFault g.half (a / 128)
      else
      let r := if ok then s.descRead g.half g.core (a / 64) else (s, 0)
      let t := if ok then r.1.descRead g.half g.core (a / 64 + 1) else r
      let s := if ok then t.1.count (R.corGsect g.half) 4 else s
      let ar := s.array g.half
      let q : MxsAsk := { group := g, addr := a, pc := x.pc, round := s.rnd.round,
                          desc := if ok then some (TileDesc.parse (r.2 + 2 ^ 512 * t.2)) else none }
      (s.setGroup g { x with wait := .submit }).setArray g.half { ar with asks := ar.asks ++ [q] })

/-- MXW: the group waits until every tile it submitted has completed. -/
def execMxw (g : GroupRef) (f : CoreFields) (s : State) : Host.Outcome State Fault Refusal :=
  let p := OpSpec.alu .unused .unused .unused .unused (f.mod == 0)
  .next (s.issue g f p [] fun s _ x =>
    s.setGroup g { x with pc := x.pc + f.len, wait := if x.tilesOut = 0 || x.acting f = [] then .ready else .tiles })

/-- An MXS refused (R374, R380): MXA_ERR, event 0x0501, and the MX trap at the MXS. -/
def State.refuseTile (s : State) (h : Nat) (q : MxsAsk) (reason : Nat) : State :=
  let s := s.setArray h { s.array h with asks := (s.array h).asks.filter (· != q) }
  let s := (s.setReg (R.mxaErr h) (reason + 16 * q.group.slot + 2 ^ 10 * q.group.core + 2 ^ 31)).setReg (R.mxaErrPc h) q.pc
  let s := s.halfEvent h 0x0501 [(1, h), (1, reason), (1, q.group.core), (1, q.group.slot), (4, q.pc)]
  match s.group? q.group with
  | some x => s.setGroup q.group { x with wait := .trap, trap := some { code := 0x0D, user := 0, lanes := x.mask, turn := s.absTurn } }
  | none => s

/-- An MXS accepted: the tile enters the queue and the group goes on behind the MXS. -/
def State.acceptTile (s : State) (h : Nat) (q : MxsAsk) (d : TileDesc) (mate : Option (Nat × Nat)) : State :=
  let a := s.array h
  let t : Tile := { no := a.nextTile, group := q.group, addr := q.addr, desc := d, st := .queued, chunks := 0,
                    acc := List.replicate (d.m * d.n) 0, mate := mate, inbox := [], asked := none }
  let s := s.setArray h { a with
    asks := a.asks.filter (· != q), queue := a.queue ++ [t], nextTile := a.nextTile + 1,
    partner := match mate with | some k => some k.1 | none => a.partner }
  match s.group? q.group with
  | some x => s.setGroup q.group { x with wait := .ready, pc := x.pc + 8, tilesOut := x.tilesOut + 1 }
  | none => s

/-- The MXS of a partner that waits for this one (R401). -/
def State.mateAsk (s : State) (h k : Nat) (d : TileDesc) : Option MxsAsk :=
  (s.array k).asks.find? fun q =>
    match q.desc with
    | some e => s.tileReason k q == 0 && e.role + d.role == 3 && e.tag == d.tag && s.mateHalf k e == some h
    | none => false

/-- A group's earlier memory instructions are performed at device scope (R397). -/
def State.stored (s : State) (g : GroupRef) : Bool :=
  match s.group? g with
  | some x => x.storesOut == 0 && x.unconf.isEmpty && x.memop.isNone
  | none => false

/-- Whether an array can settle an MXS now: it refuses it, has an entry for it, and for a pair the partner
waits too with an entry in its own queue (R375, R405). -/
def State.canSettle (s : State) (h : Nat) (q : MxsAsk) : Bool :=
  if s.tileReason h q != 0 then true
  else
    match q.desc with
    | none => true
    | some d =>
      s.stored q.group && (s.array h).queue.length < 16 &&
      (if d.role = 0 then true
       else
         match s.mateHalf h d with
         | none => true
         | some k =>
           match s.mateAsk h k d with
           | some e => s.stored e.group && (s.array k).queue.length < 16
           | none => false)

/-- TILE_ACCEPT: the array takes the earliest submitted MXS that waits for neither an entry nor a partner, and
accepts it or refuses it. -/
def execTileAccept (half : Nat) (s : State) : Host.Outcome State Fault Refusal :=
  .next (s.whenRun fun s =>
    match (s.array half).asks.find? (s.canSettle half) with
    | none => s
    | some q =>
      match s.tileReason half q, q.desc with
      | 0, some d =>
        if d.role = 0 then s.acceptTile half q d none
        else
          match s.mateHalf half d with
          | none => s
          | some k =>
            match s.mateAsk half k d with
            | none => s
            | some e =>
              match e.desc with
              | none => s
              | some de =>
                if d.agrees de then
                  let i := (s.array half).nextTile
                  let j := (s.array k).nextTile
                  (s.acceptTile half q d (some (k, j))).acceptTile k e de (some (half, i))
                else (s.refuseTile half q 7).refuseTile k e 7
      | r, _ => s.refuseTile half q r)

/-- PAIR_TIMEOUT: a paired MXS with no partner accepted within pair_timeout rounds is refused with reason 8. -/
def execPairTimeout (half : Nat) (s : State) : Host.Outcome State Fault Refusal :=
  .next (s.whenRun fun s =>
    let a := s.array half
    match a.asks.find? fun q =>
        s.tileReason half q == 0 && (match q.desc with | some d => d.role != 0 | none => false) &&
        a.timeout != 0 && decide (q.round + a.timeout ≤ s.rnd.round) with
    | none => s
    | some q =>
      let d := q.desc.getD (TileDesc.parse 0)
      (s.halfEvent half 0x0502 [(1, half), (1, (s.mateHalf half d).getD 0x1F), (2, d.tag)]).refuseTile half q 8)

/-! ### Staging -/

/-- The tile that the streamer fills banks for: the running main loop's, while it lacks chunks; otherwise the
head of the queue, whose chunks fill the two banks (R383). -/
def ArraySt.staging (a : ArraySt) : Option Tile :=
  match a.running.find? fun t => t.st == .main && t.chunks < t.desc.chunks with
  | some t => some t
  | none =>
    match a.queue with
    | t :: _ => if t.chunks < min 2 t.desc.chunks then some t else none
    | [] => none

/-- A tile of an array replaced. -/
def ArraySt.setTile (a : ArraySt) (t : Tile) : ArraySt :=
  let put (l : List Tile) : List Tile := l.map fun x => if x.no = t.no then t else x
  { a with queue := put a.queue, running := put a.running }

/-- A tile of an array. -/
def ArraySt.tile? (a : ArraySt) (no : Nat) : Option Tile := (a.queue ++ a.running).find? fun t => t.no == no

/-- Rows of bytes from memory. -/
def State.rowsOf (s : State) (base stride count off len : Nat) : List (List Nat) :=
  (List.range count).map fun i => s.deviceBytes (base + i * stride + off) len

/-- A chunk's operand rows and scale rows read from memory. -/
def State.readChunk (s : State) (d : TileDesc) (b : Bool) (lo len : Nat) : SharedChunk :=
  let base := if b then d.bAddr else d.aAddr
  let stride := if b then d.ldb else d.lda
  let count := if b then d.n else d.m
  let w := fmtBytes (if b then d.fmtB else d.fmtA)
  let sc := if b then d.scaleB else d.scaleA
  let sbase := if b then d.sbAddr else d.saAddr
  { rows := s.rowsOf base stride count (lo * w) (len * w),
    scales := if sc then s.rowsOf sbase (d.k / d.blk) count (lo / d.blk) (len / d.blk) else [] }

/-- The byte ranges that a chunk reads of an operand and of its scale bytes. -/
def TileDesc.chunkReads (d : TileDesc) (b : Bool) (lo len : Nat) : List (Nat × Nat) :=
  let w := fmtBytes (if b then d.fmtB else d.fmtA)
  let n := if b then d.n else d.m
  rowRanges ((if b then d.bAddr else d.aAddr) + lo * w) (if b then d.ldb else d.lda) n (len * w) ++
    (if if b then d.scaleB else d.scaleA then
      rowRanges ((if b then d.sbAddr else d.saAddr) + lo / d.blk) (d.k / d.blk) n (len / d.blk) else [])

/-- Those that an epilogue reads: bias, residual, statistics. -/
def TileDesc.epiReads (d : TileDesc) : List (Nat × Nat) :=
  (if d.bias then [(d.biasAddr, 4 * d.n)] else []) ++
  (if d.residual then rowRanges d.rAddr d.ldr d.m (d.n * fmtBytes d.fmtR) else []) ++
  (if d.stats = 2 then [(d.statAddr, 16 * d.m)] else [])

/-- The first poisoned line that byte ranges meet. -/
def State.poisonIn (s : State) (l : List (Nat × Nat)) : Option Nat :=
  l.findSome? fun r => s.flt.poison.find? fun x => decide (r.1 < x * 128 + 128) && decide (x * 128 < r.1 + r.2)

/-- A chunk's reads touch a poisoned line. -/
def State.chunkPoisoned (s : State) (d : TileDesc) (b : Bool) (lo len : Nat) : Bool :=
  (s.poisonIn (d.chunkReads b lo len)).isSome

/-- CHUNK_STAGED: the next chunk of the tile being staged is in its banks; a leader's shared operand goes to
the follower over the col, a follower takes it from there (R383, R384, R401, R406). -/
def execChunkStaged (half : Nat) (s : State) : Host.Outcome State Fault Refusal :=
  .next (s.whenRun fun s =>
    let a := s.array half
    match a.staging with
    | none => s
    | some t =>
      let d := t.desc
      let lo := t.chunks * d.chunkLen
      let len := min d.chunkLen (d.k - lo)
      match s.poisonIn ((if d.readsA then d.chunkReads false lo len else []) ++
          (if d.readsB then d.chunkReads true lo len else [])) with
      | some x => s.poisonFault half x
      | none =>
      if d.role = 2 && t.inbox = [] then s
      else
        let got := t.inbox.headD { rows := [], scales := [] }
        let ca := if d.readsA then s.readChunk d false lo len else got
        let cb := if d.readsB then s.readChunk d true lo len else got
        let ea (w : Nat) (l : List (List Nat)) : List (List Nat) := l.map (elemsOf w len)
        let acc := accChunk a.ftz d (ea (fmtBytes d.fmtA) ca.rows) (ea (fmtBytes d.fmtB) cb.rows) ca.scales cb.scales t.acc
        let s := s.setArray half (a.setTile { t with chunks := t.chunks + 1, acc := acc, inbox := t.inbox.drop 1 })
        match d.role, t.mate with
        | 1, some (k, no) =>
          let b := s.array k
          match b.tile? no with
          | some u => s.setArray k (b.setTile { u with inbox := u.inbox ++ [if d.share then cb else ca] })
          | none => s
        | _, _ => s)

/-! ### Main loop and epilogue -/

/-- Units of an array's draws (R409). -/
def drawMain : Nat := 100
def drawEpi : Nat := 101
def drawLead : Nat := 102

/-- A draw of the array asked for, with event 0x0503 when it must wait (R410). -/
def State.arrayDraw (s : State) (h unit pips : Nat) : State :=
  if (s.drawsOf h).any fun d => d.unit == unit then s
  else
    let s := s.requestDraw h unit pips
    if s.drawGranted h unit then s
    else s.halfEvent h 0x0503 [(1, h), (4, drawnTotal (s.drawsOf h) + pips - s.shareOf h)]

/-- Rows, bias and statistics an epilogue starts from (R391, R393, R399). -/
def State.epiRows (s : State) (ftz : Bool) (t : Tile) : List EpiRow :=
  let d := t.desc
  let bias := if d.bias then elemsOf 4 d.n (s.deviceBytes d.biasAddr (4 * d.n)) else []
  (List.range d.m).map fun i =>
    let res := if d.residual then
        elemsOf (fmtBytes d.fmtR) d.n (s.deviceBytes (d.rAddr + i * d.ldr) (d.n * fmtBytes d.fmtR)) else []
    let e := d.statAddr + 16 * i
    let st : RowStat := if d.stats = 2 then
        { sum := leVal (s.deviceBytes e 4), sumsq := leVal (s.deviceBytes (e + 4) 4),
          top := leVal (s.deviceBytes (e + 8) 4), count := leVal (s.deviceBytes (e + 12) 4) }
      else { sum := 0, sumsq := 0, top := FFmt.f32.inf true, count := 0 }
    epiRow ftz d st ((t.acc.drop (i * d.n)).take d.n) bias res

/-- A row whose every element is undefined (R382): free values from the given number on. -/
def EpiRow.undefinedRow (r : EpiRow) (k : Nat) : EpiRow :=
  { r with
    out := (List.range r.out.length).map fun j => Config.freeValue (k + 4 + j),
    stat := { sum := Config.freeValue k, sumsq := Config.freeValue (k + 1), top := Config.freeValue (k + 2),
              count := Config.freeValue (k + 3) } }

/-- The epilogue of a tile runs: residual and statistics are read, C and the statistics entries are written
as WrNC, and the sticky flags are set (R391 to R395, R407, R408). Where the tile breaks R382 every element it writes is
undefined, and the flags with it (log entry 71). -/
def State.runEpilogue (s : State) (h : Nat) (t : Tile) : State :=
  let a := s.array h
  let d := t.desc
  let open_ := d.clash t.addr
  let rows := s.epiRows a.ftz t
  let fl := rows.foldl (fun f r => f.or r.flags) FFlags.none
  let nan := rows.any (·.cvtNan)
  let v := if open_ then Config.freeValue s.free % 16
    else fl.invalid.toNat + 2 * fl.overflow.toNat + 4 * fl.underflow.toNat + 8 * nan.toNat
  let rows := if open_ then rows.zipIdx.map fun r => r.1.undefinedRow (s.free + 1 + r.2 * (d.n + 4)) else rows
  let s := if open_ then { s with free := s.free + 1 + d.m * (d.n + 4) } else s
  let s := s.setReg (R.mxaFpx h) (s.reg (R.mxaFpx h) ||| v)
  let s := if v != 0 && !a.fpxNoted then s.halfEvent h 0x0505 [(1, h), (1, s.reg (R.mxaFpx h))] else s
  let s := s.setArray h { a.setTile { t with st := .epi } with fpxNoted := a.fpxNoted || v != 0 }
  (rows.zipIdx).foldl (fun s r =>
    let s := s.writeDevice (.array h) (tagTile h t.no) 0 (d.cAddr + r.2 * d.ldc) (r.1.out.flatMap (leBytes (fmtBytes d.fmtC)))
    if d.stats = 0 then s
    else s.writeDevice (.array h) (tagTile h t.no) 0 (d.statAddr + 16 * r.2)
      (leBytes 4 r.1.stat.sum ++ leBytes 4 r.1.stat.sumsq ++ leBytes 4 r.1.stat.top ++ leBytes 4 r.1.stat.count)) s

/-- The epilogue of the first tile whose main loop has ended starts, once the previous epilogue has ended and
its draw is granted; a poisoned line that it reads is a fault (R384, R899). -/
def State.startEpilogue (s : State) (h : Nat) : State :=
  let a := s.array h
  if a.running.any fun t => t.st == .epi then s
  else
    match a.running with
    | t :: _ =>
      if t.st = .ended then
        let s := s.arrayDraw h drawEpi 12
        if s.drawGranted h drawEpi then
          match s.poisonIn t.desc.epiReads with
          | some x => s.poisonFault h x
          | none => s.runEpilogue h t
        else s
      else s
    | [] => s

/-- R406: a leader may start while its follower stands at the head of its own queue; the follower starts after
its leader has started. -/
def State.mateReady (s : State) (t : Tile) : Bool :=
  match t.mate with
  | none => true
  | some (k, no) =>
    let b := s.array k
    if t.desc.role = 2 then !(b.queue.any fun u => u.no == no)
    else match b.queue with | u :: _ => u.no == no | [] => false

/-- MAIN_LOOP_START: the tile at the head of the queue starts its main loop when the previous one has ended, an
accumulator set is free, its partner is ready, and its draws are granted (R396, R406, R409, R410). -/
def execMainLoopStart (half : Nat) (s : State) : Host.Outcome State Fault Refusal :=
  .next (s.whenRun fun s =>
    let a := s.array half
    match a.queue with
    | [] => s
    | t :: rest =>
      let d := t.desc
      let leads := d.role == 1
      if (a.running.any fun u => u.st == .main) || 2 ≤ a.running.length || !s.mateReady t then s
      else
        let s := s.arrayDraw half drawMain (if d.full then 72 else 56)
        let s := if leads then s.arrayDraw half drawLead 4 else s
        if s.drawGranted half drawMain && (!leads || s.drawGranted half drawLead) then
          let s := s.count (R.mxaLeaveWait half) (match t.asked with | some k => s.absTurn - k | none => 0)
          s.setArray half { a with queue := rest, running := a.running ++ [{ t with st := .main, asked := none }] }
        else s.setArray half (a.setTile { t with asked := some (t.asked.getD s.absTurn) }))

/-- MAIN_LOOP_END: the main loop has consumed every chunk; `stall` is the number of its stall steps (R385,
R396). -/
def execMainLoopEnd (half stall : Nat) (s : State) : Host.Outcome State Fault Refusal :=
  .next (s.whenRun fun s =>
    let a := s.array half
    match a.running.find? fun t => t.st == .main with
    | none => s
    | some t =>
      if t.chunks < t.desc.chunks then s
      else
        let s := s.count64 (R.mxaMainLo half) (R.mxaMainHi half) ((if t.desc.full then 1 else 2) * t.desc.k + stall)
        let s := s.count (R.mxaStall half) stall
        let s := (s.releaseDraw half drawMain).releaseDraw half drawLead
        (s.setArray half (a.setTile { t with st := .ended })).startEpilogue half)

/-- TILE_COMPLETE: every write of the epilogue is performed at device scope (R400); the next epilogue may
start. -/
def execTileComplete (half : Nat) (s : State) : Host.Outcome State Fault Refusal :=
  .next (s.whenRun fun s =>
    let a := s.array half
    match a.running.find? fun t => t.st == .epi with
    | none => s.startEpilogue half
    | some t =>
      if s.writesOut (tagTile half t.no) != 0 then s
      else
        let s := (s.releaseDraw half drawEpi).count64 (R.mxaTilesLo half) (R.mxaTilesHi half) 1
        let s := s.setArray half { a with running := a.running.filter fun u => u.no != t.no }
        let s := match s.group? t.group with
          | some x =>
            let w := if x.tilesOut = 1 && x.wait == Wait.tiles then Wait.ready else x.wait
            s.setGroup t.group { x with tilesOut := x.tilesOut - 1, wait := w }
          | none => s
        s.startEpilogue half)

/-- An array reset: its queue, its MXS and its tiles are discarded (R203), its binding ends. -/
def State.clearArray (s : State) (h : Nat) : State :=
  let a := s.array h
  s.setArray h { a with asks := [], queue := [], running := [], partner := none, fpxNoted := false }

/-- What a phase start brings to an array: its settings are taken and its binding ends (R403, R411). -/
def State.phaseArray (s : State) (h : Nat) : State :=
  let a := s.array h
  s.setArray h { a with partner := none, fpxNoted := false, ftz := s.flag (R.mxaCfg h) 0, timeout := s.fld (R.mxaCfg h) 15 8 }

end Sys2Proof.Machine
end

