-- ==== Sys2Proof/Machine/Shadow.lean ====
section
/-! DEFINITION. The answers to shadow confirmations: loads confirmed or denied, replay, and the cut-off (R314,
R319, R517 to R523). -/

namespace Sys2Proof.Machine

/-- The window of a group ends: its marks, checkpoint and saved rows are gone (R319). -/
def Group.endWindow (x : Group) : Group :=
  { x with pendRegs := [], pendPreds := [], pathPending := false, ckpt := none, savedRows := [], window := [] }

/-- A group restored from its checkpoint; the reads of its window, those lost marked so, answer the reissued
loads (R518, R519, R523). -/
def Group.restore (x : Group) (lost : Nat → Bool) : Group :=
  match x.ckpt with
  | none => x
  | some c =>
    { x.endWindow with
      regs := c.regs, preds := c.preds, pc := c.pc, mask := c.mask, rpc := c.rpc, stack := c.stack,
      gprog := c.gprog, wait := .ready, memop := none, trap := none, unconf := [],
      replay := (x.replay ++ x.window).map fun w => { w with lost := w.lost || lost w.conf, taken := false } }

/-- A load leaves the table of unconfirmed loads, and the entries that name it. -/
def State.dropLoad (s : State) (id : Nat) : State :=
  { s with mem := { s.mem with
      loads := Map.erase s.mem.loads id,
      conf := Map.mapVals s.mem.conf fun _ e => { e with loads := e.loads.filter (· != id) } } }

/-- A denial counted; past deny_limit in one round the half's shadow reads are cut off for the rest of the
round and the next (R522). -/
def State.countDenial (s : State) (half : Nat) : State :=
  let s := s.count (R.ucShdDeny half) 1
  let n := Map.getD s.mem.denies half 0 + 1
  let s := { s with mem := { s.mem with denies := Map.set s.mem.denies half n } }
  let lim := s.fld (R.ucShdCfg half) 15 8
  if lim != 0 && lim < n && Map.get? s.mem.cutTo half != some (s.rnd.round + 1) then
    let s := { s with mem := { s.mem with cutTo := Map.set s.mem.cutTo half (s.rnd.round + 1) } }
    (s.count (R.ucShdCut half) 1).halfEvent half 0x0701 [(1, half), (8, s.rnd.round), (4, n)]
  else s

/-- A load is denied: its group returns to its checkpoint (R518). `lost` names a confirmation that brought no
data. -/
def State.denyLoad (s : State) (l : UnconfLoad) (lost : Nat → Bool) : State :=
  let g : GroupRef := { half := l.half, core := l.core, slot := l.slot }
  match s.group? g with
  | none => s
  | some x =>
    let s := x.unconf.foldl State.dropLoad s
    (s.setGroup g (x.restore lost)).countDenial l.half

/-- A load is confirmed (R517): with its group's last one the window ends. -/
def State.confirmLoad (s : State) (id : Nat) (l : UnconfLoad) : State :=
  let g : GroupRef := { half := l.half, core := l.core, slot := l.slot }
  let s := s.dropLoad id
  match s.group? g with
  | none => s
  | some x =>
    let u := x.unconf.filter (· != id)
    s.setGroup g (if u = [] then { x.endWindow with unconf := [] } else { x with unconf := u })

/-- The bytes a load read on a line equal those of the answer. -/
def UnconfLoad.agrees (l : UnconfLoad) (line data : Nat) : Bool :=
  l.reads.all fun r => r.1 / 128 != line || lineGet data (r.1 % 128) r.2.1 == r.2.2

/-- One waiting load meets an answer. -/
def State.meetLoad (s : State) (id : Nat) (m : CohMsg) : State :=
  match Map.get? s.mem.loads id with
  | none => s
  | some l =>
    if m.bad || !l.agrees m.line m.data then s.denyLoad l fun c => m.bad && c == m.tag
    else
      let l := { l with waits := l.waits.filter (· != m.tag) }
      if l.waits = [] then s.confirmLoad id l
      else { s with mem := { s.mem with loads := Map.set s.mem.loads id l } }

/-- The answer is put by for the reads of the window and of a replay that named the confirmation; a replay's
load that waits for it is served, or, with no data, sent to the home (R518, R523). -/
def Group.keepAnswer (x : Group) (m : CohMsg) : Group :=
  let put (w : WindowRead) : WindowRead :=
    if w.conf != m.tag then w else if m.bad then { w with lost := true } else { w with data := some m.data }
  let waiting := x.replay.any fun w => w.conf == m.tag && w.taken
  let serve (p : Piece) : Piece :=
    if waiting && p.addr / 128 = m.line && p.st == .out && bit m.mask (p.addr / 32 % 4) then
      { p with st := if m.bad then .idle else .done (lineGet m.data (p.addr % 128) p.len) } else p
  { x with
    window := x.window.map put,
    replay := (x.replay.filter fun w => !(w.conf == m.tag && w.taken)).map put,
    memop := x.memop.map fun o => { o with pieces := o.pieces.map serve } }

/-- CONFIRMATION_RESPONSE: the response to a confirmation confirms the waiting loads or denies them and replays
from the checkpoint. -/
def execConfirmationResponse (msg : Nat) (s : State) : Host.Outcome State Fault Refusal :=
  match s.msgOf msg .data with
  | none => .next s
  | some m =>
    match m.dst with
    | .conf half =>
      .next (s.whenRun fun s =>
        let s := ((s.unpost msg).answered half m.line).guestFill half m
        let loads := match Map.get? s.mem.conf m.tag with | some e => e.loads | none => []
        let s := ({ s with mem := { s.mem with conf := Map.erase s.mem.conf m.tag } }).showConf half
        let s := if m.bad && loads != [] then
            s.halfEvent half 0x0703 [(1, half), (8, m.line * 128), (1, s.homeOf m.line)] else s
        let cores := (s.cor.cores.filter fun q => q.1 / 128 == half)
        let s := cores.foldl (fun s q => q.2.groups.foldl (fun s p =>
          let g : GroupRef := { half := half, core := q.1 % 128, slot := p.1 }
          if (p.2.window ++ p.2.replay).any fun w => w.conf == m.tag then
            (s.setGroup g (p.2.keepAnswer m)).tryMem g else s) s) s
        loads.foldl (fun s id => s.meetLoad id m) s)
    | _ => .next s

end Sys2Proof.Machine
end

