-- ==== Sys2Proof/Machine/PartReset.lean ====
section
/-! DEFINITION. What a partition reset does to the partition's halves and to its job (R203, R521). -/

namespace Sys2Proof.Machine

/-- The keys of a half's cores in a table keyed half × 128 + core. -/
def ofHalf (h k : Nat) : Bool := k / 128 == h

/-- The groups of a half issue nothing further: their memory instructions are given up. -/
def State.haltGroups (s : State) (h : Nat) : State :=
  let halt (k : Nat) (c : Core) : Core :=
    if ofHalf h k then
      { c with groups := Map.mapVals c.groups fun _ x => { x with memop := none, wait := .barrier 16 } }
    else c
  { s with cor := { s.cor with cores := Map.mapVals s.cor.cores halt } }

/-- The confirmations and unconfirmed loads of a half are discarded (R521), and what waits at its floor gate. -/
def State.dropWindows (s : State) (h : Nat) : State :=
  let cs := s.mem.conf.filter fun q => q.2.half != h
  let ls := s.mem.loads.filter fun q => q.2.half != h
  let net := s.mem.net.filter fun q => !(s.atGate h).contains q.1
  let s := { s with mem := { s.mem with conf := cs, loads := ls, net := net } }
  let s := (s.setFloor h []).setGate h []
  s.showConf h

/-- The cores, L1s, local store and array of a half reset, after every dirty sector of its L1s has been written
back. The protocol is first brought to rest (log entry 42). -/
def State.resetHalves (s : State) (hs : List Nat) : State :=
  let s := hs.foldl (fun s h => (s.haltGroups h).clearArray h) s
  let s := State.settle 64 s
  hs.foldl (fun s h =>
    let s := (List.range 72).foldl (fun s c => s.flushL1 (coreKey h c)) s
    let s := s.dropWindows h
    { s with cor := { s.cor with cores := s.cor.cores.filter fun q => !ofHalf h q.1 } }) s

/-- The effects of R203 on partition `p`: its halves are reset and its job ends with a record of the given
status and detail. -/
def State.resetPart (s : State) (p status : Nat) (detail : List Nat) : State :=
  let hs := match s.partRec p with | some r => r.halves | none => []
  (s.resetHalves hs).endHolder p status detail

/-- The logical number of a half in its partition. -/
def State.logicalHalf (s : State) (h : Nat) : Nat :=
  match s.partOfHalf h with
  | some p => match s.partRec p with | some r => (r.halves.findIdx? (· == h)).getD 0 | none => 0
  | none => 0

/-- Every group of a half with its reference. -/
def State.groupsOf (s : State) (h : Nat) : List (GroupRef × Group) :=
  (s.cor.cores.filter fun q => ofHalf h q.1).flatMap fun q =>
    q.2.groups.map fun g => ({ half := h, core := q.1 % 128, slot := g.1 }, g.2)

end Sys2Proof.Machine
end

