-- ==== Sys2Proof/Machine/Selectors.lean ====
section
/-! DEFINITION. Selectors, their stock settings, and writes that wait for a round boundary (R37 to R41, R918). -/

namespace Sys2Proof.Machine

/-- The selector register of a function; `i` is the peak or the half of a function that has one each. -/
def selectorOf (g : SelGroup) (i : Nat) : Option Nat :=
  match g with
  | .none => none
  | .inlim => some R.glbInlim
  | .boot => some R.glbBootSel
  | .image => some R.imgSel
  | .tt => some R.rndTtSel
  | .job => some R.jobSel
  | .pwr => some R.pwrSel
  | .seq => some (R.seqSel 8)
  | .hpt => some R.hptSel
  | .client => some R.hptClientSel
  | .rng => some R.rngSel
  | .trn => some R.trnSel
  | .uart => some (R.uSel i)
  | .crn => some R.crnSel
  | .fpl => some R.fplSel
  | .flt => some R.fltSel
  | .isa => some (R.corIsaSel i)
  | .mem => some (R.corMemSel i)
  | .mxa => some (R.mxaSel i)
  | .uc => some (R.ucSel i)
  | .coh => some (R.ucCohSel i)
  | .shd => some (R.ucShdSel i)
  | .col => some (R.colSel i)

/-- Entry `k` of a list of settings. -/
def setting {α : Type} (l : List α) (k : Nat) : Option α := l[k]?

/-- Thresholds in units of 0.25 V (GLB_INLIM_THR). -/
def inlimThr (uw ut ow ot : Nat) : Nat := uw + 2 ^ 8 * ut + 2 ^ 16 * ow + 2 ^ 24 * ot

/-- A port configuration: split, max_gen, clk and vfbar. -/
def portCfg (split gen clk vfbar : Nat) : Nat := split + 2 * gen + 8 * clk + 16 * vfbar

/-- The client registers of a setting (chapter "Host Ports"). -/
def State.clientGrants (s : State) (k : Nat) : List (Nat × Nat) :=
  (List.range 512).map fun c =>
    (R.hptClient c,
      if k = 0 then 128 + 64 * s.fld R.hptCtlFunc 0 0 + (if s.flag R.hptCtlFunc 1 then 32 else 0)
      else if k = 1 then 128 + 64 * (c / 256) + c % 256 / 4
      else 0)

/-- The stock values of setting `k` of a function, by register: none where the function has no such setting. The image, the
turn tables and the UARTs load theirs by rules of their own. -/
def State.stock (s : State) (g : SelGroup) (i k : Nat) : Option (List (Nat × Nat)) :=
  let one (a : Nat) (l : List Nat) : Option (List (Nat × Nat)) := (setting l k).map fun v => [(a, v)]
  match g with
  | .inlim => one R.glbInlimThr [inlimThr 168 156 236 244, inlimThr 164 152 236 244, inlimThr 176 160 232 240]
  | .boot => one R.glbBootCtl [0xFFFE0, 0xFFFE5, 0xFFFEA, 0xFFFFF]
  | .job => (setting [(1, 4096), (2, 4), (3, 4096)] k).map fun q =>
      (R.jobCfg, q.1) :: (List.range 512).map fun c => (R.jobClQuota c, q.2)
  | .pwr => (setting [(2800, 8, 95, 105), (2400, 8, 95, 105), (1800, 4, 90, 100)] k).map fun q =>
      [(R.pwrLimit, q.1), (R.pwrCfg, q.2.1 + 16 * 10 + 2 ^ 12 * q.2.2.1 + 2 ^ 20 * q.2.2.2)]
  | .seq => one (R.seqCfg 8) [2048, 2048 + 2 ^ 12, 4095 + 2 * 2 ^ 12]
  | .hpt => (setting [portCfg 0 0 0 3, portCfg 1 0 0 3, portCfg 0 1 1 3] k).map fun v =>
      [(R.hptPortCfg 0, v), (R.hptPortCfg 1, v)]
  | .client => if k < 3 then some (s.clientGrants k) else none
  | .rng => one R.rngCfg [0x07D04000, 0x07D04001, 0x07D0400B]
  | .trn => one R.trnCfg [1000, 0, 100]
  | .crn => (setting [0, 1, 3] k).map fun v => [(R.crnCfg, v), (R.crnClass, 0x7FFFE)]
  | .fpl => one R.fplCfg [1, 0]
  | .flt => one R.fltCfg [1 + 16 * 1024, 16 * 1024 + 2 ^ 16, 16 * 4095]
  | .isa => one (R.corIsaCfg i) [0, 3 + 16, 15]
  | .mem => one (R.corMemCfg i) [100, 2 ^ 16, 0]
  | .mxa => one (R.mxaCfg i) [2 ^ 8 * 64, 1 + 2 ^ 8 * 64, 0]
  | .uc => one (R.ucCfg i) [4 + 16 + 2 ^ 8 * 24, 8 + 16 + 2 ^ 8 * 24, 0]
  | .coh => one (R.ucCohCfg i) [2 + 16, 4 + 16, 15 + 32]
  | .shd => one (R.ucShdCfg i) [1 + 2 * 2 + 2 ^ 8 * 64, 2 * 2 + 2 ^ 8 * 64, 1 + 2 * 4]
  | .col => one (R.colCfg i) [4 + 2 ^ 8, 16 + 2 ^ 8, 0]
  | .none | .image | .tt | .uart => none

/-- The instances that one write governs: every half of the shadow-read registers (R526), every peak of the col registers
(R558), otherwise the one written. -/
def sitesOf (g : SelGroup) (i : Nat) : List Nat :=
  match g with
  | .shd => List.range 16
  | .col => List.range 8
  | _ => [i]

/-- A selection applied: every expert field of the function takes its stock value, and the selector reads the setting. -/
def State.applySelect (s : State) (g : SelGroup) (i k : Nat) : State :=
  (sitesOf g i).foldl (fun s j =>
    match s.stock g j k, selectorOf g j with
    | some l, some a => (l.foldl (fun s q => s.setReg q.1 q.2) s).setReg a k
    | _, _ => s) s

/-- The registers that one expert write governs. -/
def expertSites (g : SelGroup) (a : Nat) : List Nat :=
  match g with
  | .shd => (List.range 16).map fun h => R.ucShdCfg h
  | .col => (List.range 8).map fun n => R.colCfg n
  | .seq => [R.seqCfg 8]
  | _ => [a]

/-- An expert write applied: the selector reads custom (R39). -/
def State.applyExpert (s : State) (g : SelGroup) (i a v : Nat) : State :=
  let s := (expertSites g a).foldl (fun s b => s.setReg b v) s
  (sitesOf g i).foldl (fun s j => match selectorOf g j with | some b => s.setReg b 0xF | none => s) s

/-- The function and instance of a register, and whether it is the function's selector. -/
def groupAt (a : Nat) : SelGroup × Nat × Bool :=
  match regRow a, blockAt a with
  | some q, some (_, i, _) => (q.group, i, !q.expert)
  | _, _ => (.none, 0, false)

/-- A write that has waited is applied: a selection, an expert write, or a plain register. -/
def State.applyWrite (s : State) (a v : Nat) : State :=
  match groupAt a with
  | (.none, _, _) => s.setReg a v
  | (g, i, true) => s.applySelect g i (v % 16)
  | (g, i, false) => s.applyExpert g i a v

/-- A write waits for the next round boundary, or is applied at once while the beacon is stopped (R918). -/
def State.later (s : State) (a v : Nat) : State :=
  if s.rnd.running then { s with delayed := s.delayed ++ [(a, BitVec.ofNat 32 v)] } else s.applyWrite a v

/-- The waiting writes in the order in which they apply: selections first (R41). -/
def inOrder (l : List (Nat × Word)) : List (Nat × Word) :=
  l.filter (fun q => (groupAt q.1).2.2) ++ l.filter (fun q => !(groupAt q.1).2.2)

end Sys2Proof.Machine
end

