-- ==== Sys2Proof/Machine/Power.lean ====
section
/-! DEFINITION. Leave grants, the limit, rails, junction temperatures, dry stops and the stacks' upkeep (R615 to
R650, R456, R457). -/

namespace Sys2Proof.Machine

/-- LEAVE_GRANT: the governor of a half grants the next waiting or paused draw that its share covers; an array
whose epilogue waited for it goes on. -/
def execLeaveGrant (half : Nat) (s : State) : Host.Outcome State Fault Refusal :=
  .next (s.whenRun fun s => ((s.grantNext half).startEpilogue half).leaveReply (half / 2))

/-- The value of PWR_LIMIT that a write sets (R622): none below 800 pips, 2,800 at most. -/
def limitOf (v : Nat) : Option Nat := if v < 800 then none else some (min v 2800)

/-- A write of PWR_LIMIT (R621, R622). PWR_SEL then reads 0xF (R39). -/
def State.writeLimit (s : State) (v : Nat) : State :=
  match limitOf (bits v 11 0), s.inSwap with
  | some l, false => (s.later R.pwrLimit l).setFld R.pwrSel 3 0 0xF
  | _, _ => s.hubEvent 0x0A09 [(4, R.pwrLimit), (4, v)]

/-- LIMIT_WRITE: a write of PWR_LIMIT. -/
def execLimitWrite (v : Word) (s : State) : Host.Outcome State Fault Refusal := .next (s.writeLimit v.toNat)

/-! ### Rails -/

/-- The rail of a half raised or lowered, within 650 to 850 mV. -/
def State.moveRail (s : State) (h : Nat) (up : Bool) (mv : Nat) : State :=
  let v := s.fld (R.govRail h) 9 0
  s.setFld (R.govRail h) 9 0 (if up then min 850 (v + mv) else max 650 (v - mv))

/-- DROOP_KICK: a canary of a row reads below 150 (1.5 G steps/s): the rail rises by 25 mV (R630). -/
def execDroopKick (half row reading : Nat) (s : State) : Host.Outcome State Fault Refusal :=
  .next (if 150 ≤ reading then s
    else
      let s := ((s.moveRail half true 25).count (R.govDroop half) 1).setFlag R.pwrEvent 2 true
      if s.pwr.kickNoted.contains half then s
      else { s.halfEvent half 0x0A05 [(1, half), (1, row), (8, s.rnd.round)] with
               pwr := { s.pwr with kickNoted := half :: s.pwr.kickNoted } })

/-! ### Junctions -/

/-- A junction reading of a half shown in GOV_TEMP. -/
def State.setTemp (s : State) (h t : Nat) : State :=
  let s := { s with pwr := { s.pwr with junction := Map.set s.pwr.junction h t } }
  (s.setFld (R.govTemp h) 7 0 t).setFld (R.govTemp h) 15 8 (max t (s.fld (R.govTemp h) 15 8))

/-- JUNCTION_WARN: a half reaches PWR_CFG.warn, for the first time since it was last below (R638). -/
def execJunctionWarn (half temp : Nat) (s : State) : Host.Outcome State Fault Refusal :=
  let s := s.setTemp half temp
  .next (if temp < s.fld R.pwrCfg 19 12 || s.pwr.warned.contains half then s
    else
      let s := { s with pwr := { s.pwr with warned := half :: s.pwr.warned } }
      (s.setFlag R.pwrEvent 5 true).halfEvent half 0x0B04 [(1, half), (1, temp)])

/-- JUNCTION_HOT: a half reaches PWR_CFG.hot: every pool grant is revoked and the pool is held (R639). -/
def execJunctionHot (half temp : Nat) (s : State) : Host.Outcome State Fault Refusal :=
  let s := s.setTemp half temp
  .next (if temp < s.fld R.pwrCfg 27 20 then s
    else
      let s := s.setPool (s.pwr.pool.map fun r => { r with granted := false })
      ((s.setFlag R.pwrState 15 true).setFlag R.pwrEvent 6 true).halfEvent half 0x0B05 [(1, half), (1, temp)])

/-- JUNCTION_HOT_CLEAR: readings of the 16 halves; once every half is below PWR_CFG.warn the pool is released
(R639). A half below warn may warn again (R638). -/
def execJunctionHotClear (temps : List Nat) (s : State) : Host.Outcome State Fault Refusal :=
  let s := (temps.zipIdx).foldl (fun s t => if t.2 < 16 then s.setTemp t.2 t.1 else s) s
  let w := s.fld R.pwrCfg 19 12
  let below (h : Nat) : Bool := decide (Map.getD s.pwr.junction h 0 < w)
  let s := { s with pwr := { s.pwr with warned := s.pwr.warned.filter fun h => !below h } }
  .next (if (List.range 16).all below then s.setFlag R.pwrState 15 false else s)

/-! ### Dry stops -/

/-- Every stack that is active enters self-refresh, with event 0x0607. -/
def State.restStacks (s : State) : State :=
  (List.range 8).foldl (fun s n =>
    if s.fld (R.ucHbmState n) 1 0 = 1 then (s.setFld (R.ucHbmState n) 1 0 2).event n 0 0x0607 [(1, n), (1, evCode 0x0607 0)] else s) s

/-- Every stack in self-refresh leaves it. -/
def State.wakeStacks (s : State) : State :=
  (List.range 8).foldl (fun s n =>
    if s.fld (R.ucHbmState n) 1 0 = 2 then (s.setFld (R.ucHbmState n) 1 0 1).event n 0 0x0607 [(1, n), (1, evCode 0x0607 1)] else s) s

/-- Units halt, all leave revoked, stacks at rest (the first three rows of R642). -/
def State.haltUnits (s : State) : State := s.revokeAll.restStacks

/-- A dry stop starts (R641, R642, R648): none starts while one runs (R649), while a power-loss stop holds
(R650), in the fatal state, or outside Ready and Run. -/
def State.startDry (s : State) (c : DryCause) : State :=
  if s.pwr.halted || s.flag R.fltStatus 0 || !(s.mod.power == .ready || s.mod.power == .run) then s
  else
    let code := match c with | .flow => 1 | .thermal => 2
    let s := s.hubEvent 0x0B01 [(1, code), (8, s.rnd.round)]
    let s := { s with pwr := { s.pwr with dry := some (c, s.mod.islandUs), dryEnding := false } }
    let s := (s.setFld R.pwrState 14 13 code).setFlag R.pwrEvent 8 true
    let s := (s.addFld R.pwrDryTime 31 16 1).voidAll 3
    let s := { s with crn := { s.crn with thermalStandby := decide (c = DryCause.thermal) } }
    s.haltUnits.freeze 1 0x0B01

/-- A flow dry stop's length is shown (R645, R646). -/
def State.showDry (s : State) (since : Nat) : State :=
  s.setFld R.pwrDryTime 15 0 (min 65535 ((s.mod.islandUs - since) / 1000))

/-- A FLOW_OK rise within 2 s of a flow dry stop's start: the stacks wake, the end waits for the round boundary
(R645). -/
def State.dryRise (s : State) : State :=
  match s.pwr.dry with
  | some (.flow, t) =>
    if s.mod.islandUs < t + 2000000 && !s.pwr.dryEnding then
      { s with pwr := { s.pwr with dryEnding := true } }.wakeStacks
    else s
  | _ => s

/-! ### Stacks -/

/-- HBM_IDLE_SELF_REFRESH: in Ready, a stack without an access for 1 ms enters self-refresh (R457). -/
def execHbmIdleSelfRefresh (peak : Nat) (s : State) : Host.Outcome State Fault Refusal :=
  .next (if s.mod.power == .ready && s.fld (R.ucHbmState peak) 1 0 == 1 &&
      decide (Map.getD s.mem.stackUse peak 0 + 1000 ≤ s.mod.islandUs) then
      (s.setFld (R.ucHbmState peak) 1 0 2).event peak 0 0x0607 [(1, peak), (1, evCode 0x0607 0)]
    else s)

end Sys2Proof.Machine
end

