-- ==== Sys2Proof/Machine/Rounds.lean ====
section
/-! DEFINITION. Turns, turn tables, frames and overruns (R126 to R175, R530 to R537, R540 to R542, R920), handshake
stalls and floor gates. -/

namespace Sys2Proof.Machine

/-! ### Hops and turn tables -/

/-- Links of each hop (R135). -/
def linkCount (hop : Nat) : Nat := [8, 6, 4, 4, 8, 2, 2].getD hop 0

/-- Key of a hop direction. -/
def hopKey (hop link dir : Nat) : Nat := (hop * 32 + link) * 2 + dir

/-- Key of a turn table: bank, hop, link, direction. -/
def tableKey (bank hop link dir : Nat) : Nat := bank * 512 + hopKey hop link dir

/-- Every link direction of R135, as (hop, link, direction). -/
def hopDirs : List (Nat × Nat × Nat) :=
  (List.range 7).flatMap fun h => (List.range (linkCount h)).flatMap fun l => [(h, l, 0), (h, l, 1)]

/-- The entry of a turn table; 0x70, an open turn, in a table nothing wrote (R141). -/
def State.ttEntry (s : State) (bank hop link dir turn : Nat) : Nat :=
  match Map.get? s.rnd.tables (tableKey bank hop link dir) with
  | some l => l.getD turn 0x70
  | none => 0x70

/-- A turn table written. -/
def State.setTable (s : State) (bank hop link dir : Nat) (l : List Nat) : State :=
  { s with rnd := { s.rnd with tables := Map.set s.rnd.tables (tableKey bank hop link dir) l } }

/-- RND_EPOCH.bank. -/
def State.bank (s : State) : Nat := s.fld R.rndEpoch 17 17

/-- An entry's partition and class; none for an open turn. -/
def ttOwner (e : Nat) : Option (Nat × Nat) := if bits e 6 4 = 7 then none else some (e % 16, bits e 6 4)

/-- The partition has opened in the swap. -/
def State.isOpened (s : State) (p : Nat) : Bool :=
  match s.img.swap with
  | some sw => bit sw.opened p
  | none => false

/-- The bank whose entry governs a turn of a link (R248): in a swap, the new one where its entry names an opened
partition. -/
def State.turnBank (s : State) (hop link dir turn : Nat) : Nat :=
  if s.inSwap then
    match ttOwner (s.ttEntry (1 - s.bank) hop link dir turn) with
    | some (p, _) => if s.isOpened p then 1 - s.bank else s.bank
    | none => s.bank
  else s.bank

/-- Whether a message of an epoch rides turns of a bank (R248, R253). -/
def State.epochRides (s : State) (m : HopMsg) (bank : Nat) : Bool :=
  !s.inSwap || (m.epoch % 2 == s.fld R.rndEpoch 7 0 % 2) == (bank == s.bank)

/-- The col a hop's link is. -/
def hopCol (hop link : Nat) : Option Nat :=
  if hop = 1 then some link else if hop = 2 then some (6 + link) else if hop = 3 then some (10 + link) else none

/-- The die at the sending end of a hop direction (R135, R158). -/
def sendDie (hop link dir : Nat) : Nat :=
  match hopCol hop link with
  | some c =>
    let e := colEnds c
    if hop = 3 then (if dir = 0 then 8 else e.1) else if dir = 0 then e.1 else e.2
  | none => if hop = 0 || hop = 4 then link else 8

/-! ### Overruns (R157 to R163) -/

/-- One overrun charged to a partition for a hop direction and the present turn (R158, R161 to R163). -/
def State.chargeOverrun (s : State) (hop link dir part : Nat) : State :=
  let key := hopKey hop link dir
  if s.rnd.charged.contains (part, key) || 16 ≤ part then s
  else
    let s := { s with rnd := { s.rnd with charged := (part, key) :: s.rnd.charged } }
    let s := s.count (R.rndOvrCnt part) 1
    let sel := s.fld R.rndOvrCfg 1 0
    let s := if sel = 1 || (sel = 0 && !s.rnd.reported.contains part) then
        s.event (sendDie hop link dir) 0 0x0301 [(1, part), (1, hop), (1, link), (1, dir), (1, s.rnd.turn), (8, s.rnd.round)]
      else s
    let s := if s.rnd.reported.contains part then s
      else { s with rnd := { s.rnd with reported := part :: s.rnd.reported } }
    match s.holderOf part with
    | none => s
    | some j =>
      let s := s.modJob j fun x => { x with overruns := x.overruns + 1 }
      match s.job? j with
      | some x => if x.allowance < x.overruns then s.voidJob j 4 else s
      | none => s

/-- The late messages that a hop direction carries in the present turn: charged to their partitions, open ones
counted once a turn (R158 to R160). -/
def State.chargeLate (s : State) (hop link dir : Nat) (ms : List HopMsg) : State :=
  let s := (ms.filter fun m => m.lane != .openTraffic).foldl (fun s m => s.chargeOverrun hop link dir m.part) s
  let key := (16, hopKey hop link dir)
  if (ms.any fun m => m.lane == .openTraffic) && !s.rnd.charged.contains key then
    { s with rnd := { s.rnd with charged := key :: s.rnd.charged } }.count R.rndOvrOpen 1
  else s

/-! ### Time -/

/-- The beacon stands in a turn of the round (R127); turns with a read waiting at a floor gate are counted. -/
def State.toTurn (s : State) (turn : Nat) : State :=
  if turn ≤ s.rnd.turn then s
  else
    let s := if s.rnd.gateWait = [] then s else s.addFld R.rndFloor 31 4 (turn - s.rnd.turn)
    { s with rnd := { s.rnd with turn := turn, charged := [] } }.setFld R.rndTurn 6 0 turn

/-! ### Frames (R142 to R147, R530 to R535) -/

/-- Room for messages in a turn: three runs of free units, used in this order. -/
structure Room where
  a : Nat
  aEnd : Nat
  b : Nat
  bEnd : Nat
  c : Nat
  cEnd : Nat
  deriving DecidableEq, Repr

/-- A message of `u` units placed: its first unit and the room left. -/
def Room.place (r : Room) (u : Nat) : Option (Nat × Room) :=
  if r.a + u ≤ r.aEnd then some (r.a, { r with a := r.a + u })
  else if r.b + u ≤ r.bEnd then some (r.b, { r with b := r.b + u })
  else if r.c + u ≤ r.cEnd then some (r.c, { r with c := r.c + u })
  else none

/-- What has been placed while a turn is filled: messages with their numbers in the queue, the room, the
classes of messages that wait behind one that does not go (R164), and credits left. -/
structure Filling where
  room : Room
  out : List (Nat × Placed)
  blocked : List (Bool × Nat × Nat × Drain)
  credits : Table Nat
  deriving DecidableEq, Repr

/-- Units a message fills. -/
def HopMsg.units (m : HopMsg) (unit : Nat) : Nat := max 1 ((m.bytes + unit - 1) / unit)

/-- Its place in an order of delivery. -/
def HopMsg.order (m : HopMsg) : Bool × Nat × Nat × Drain := (m.lane == .openTraffic, m.part, m.cls, m.drain)

/-- Engines whose channels spend credits in the booked area (R532). -/
def HopMsg.credited (m : HopMsg) : Bool := 2 ≤ m.engine && m.engine ≤ 5

/-- One waiting message offered to the turn; `ok` says whether its channel may carry it (R534). -/
def Filling.offer (f : Filling) (col : Bool) (unit : Nat) (ok : HopMsg → Bool) (now : Nat) (q : Nat × Nat × HopMsg) : Filling :=
  let m := q.2.2
  let u := m.units unit
  let late := if m.lane == .openTraffic then decide (m.booked < q.2.1) else decide (m.booked < now)
  let stop := { f with blocked := m.order :: f.blocked }
  if f.blocked.contains m.order || !ok m then stop
  else if col && m.credited && decide (Map.getD f.credits m.chan 256 < u) then stop
  else
    match f.room.place u with
    | none => stop
    | some (first, r) =>
      { f with room := r, out := f.out ++ [(q.1, { first := first, units := u, msg := m, late := late })],
               credits := if col && m.credited then Map.set f.credits m.chan (Map.getD f.credits m.chan 256 - u) else f.credits }

/-- The three drain classes in the order in which they are sent (R169). -/
def drainOrder : List Drain := [.response, .forward, .request]

/-- The messages of a queue that may use a turn of an owner, in the order of R146 and R169: those of the
entry's partition and class, then open traffic. -/
def fillOrder (owner : Option (Nat × Nat)) (rides : HopMsg → Bool) (l : List (Nat × Nat × HopMsg)) : List (Nat × Nat × HopMsg) :=
  let booked (d : Drain) := l.filter fun q =>
    q.2.2.lane == .booked && owner == some (q.2.2.part, q.2.2.cls) && q.2.2.drain == d && rides q.2.2
  let openT (d : Drain) := l.filter fun q => q.2.2.lane == .openTraffic && q.2.2.drain == d
  drainOrder.flatMap booked ++ drainOrder.flatMap openT

/-- On a ring port, responses go first and transit requests second, whatever the entry (R737). -/
def ringOrder (owner : Option (Nat × Nat)) (rides : HopMsg → Bool) (l : List (Nat × Nat × HopMsg)) : List (Nat × Nat × HopMsg) :=
  (l.filter fun q => q.2.2.drain == .response) ++ (l.filter fun q => q.2.2.drain == .forward) ++
  (l.filter fun q => q.2.2.drain == .request && q.2.2.lane == .booked && owner == some (q.2.2.part, q.2.2.cls) && rides q.2.2) ++
  (l.filter fun q => q.2.2.drain == .request && !(q.2.2.lane == .booked && owner == some (q.2.2.part, q.2.2.cls)))

/-! ### Cols, as a frame needs them -/

/-- A col direction with nothing in it. -/
def ColDir.empty : ColDir := { sent := [], due := [], credits := [], held := [], damaged := [], counts := [] }

/-- A col that has not trained. -/
def ColSt.down : ColSt :=
  { st := 0, active := [], spares := [], retired := [], mapver := 0, origin := 0, marks := [], retraining := [],
    d0 := .empty, d1 := .empty }

/-- Col `c`. -/
def State.col (s : State) (c : Nat) : ColSt := Map.getD s.cols c ColSt.down

/-- A direction of a col, and that direction replaced. -/
def ColSt.dir (x : ColSt) (d : Nat) : ColDir := if d = 0 then x.d0 else x.d1
def ColSt.setDir (x : ColSt) (d : Nat) (y : ColDir) : ColSt := if d = 0 then { x with d0 := y } else { x with d1 := y }

/-- Col `c` replaced. -/
def State.putCol (s : State) (c : Nat) (x : ColSt) : State := { s with cols := Map.set s.cols c x }

/-- A col that carries frames. -/
def ColSt.carries (x : ColSt) : Bool := x.st == 2 || x.st == 3 || x.st == 4

/-- G, and the units of a frame. -/
def ColSt.g (x : ColSt) : Nat := x.active.length

/-- The channel that a message names is assigned to its engine and partition in the image of its epoch (R533,
R534). -/
def State.chanAssigned (s : State) (c : Nat) (m : HopMsg) : Bool :=
  let im := if s.inSwap && m.epoch % 2 != s.fld R.rndEpoch 7 0 % 2 then s.img.pending else s.img.committed
  match im with
  | some im => im.streams.any fun x =>
      x.col == c && x.channel == m.chan && x.engine == m.engine && (x.part == m.part || x.part == 0xFF)
  | none => false

/-- Replays due in a turn of a direction: one on the carrier, or every one of them when the col has none (R541,
R542). -/
def ColSt.replaysNow (x : ColSt) (d now : Nat) : List ReplayDue :=
  let l := (x.dir d).due.filter fun r => !r.done && decide (r.turn ≤ now)
  if x.spares = [] then l else l.take 1

/-- The replays that ride booked units of the frame: 25 units each, from the highest down, none below unit 160. -/
def rideUnits (g n : Nat) : Nat := min (25 * n) (25 * g - 160)

/-- Line slots of 128 bytes that a host link carries in a turn (R689). -/
def hostSlots (up : Bool) (rate lanes turn : Nat) : Nat :=
  if !up then 0
  else if rate = 0 then (if 16 ≤ lanes then 7 else if 8 ≤ lanes then 3 else 1)
  else if rate = 1 then (if 16 ≤ lanes then 3 else if 8 ≤ lanes then 1 else if turn % 2 = 0 then 1 else 0)
  else if 16 ≤ lanes then 1
  else if 8 ≤ lanes then (if turn % 2 = 0 then 1 else 0)
  else if turn % 4 = 0 then 1 else 0

/-- Slots of a service turn of a hop without frames (R147, R689, R733). -/
def State.serviceSlots (s : State) (hop link turn : Nat) : Nat :=
  if hop = 4 then (if s.fld (R.ucHbmState link) 1 0 = 1 then 16 else 0)
  else if hop = 5 then
    let r := s.reg (R.hptLink link)
    hostSlots (bit r 0) (bits r 2 1) (bits r 7 3) turn +
      (if s.splitPort link then hostSlots (bit r 8) (bits r 10 9) (bits r 15 11) turn else 0)
  else
    let r := s.reg R.rngState
    let up := if link = 0 then bits r 10 9 == 2 else bits r 14 13 == 2
    let gen := if link = 0 then bits r 12 11 else bits r 16 15
    if !up then 0 else if gen = 2 then 56 else 28

/-- Bytes of a slot of a hop without frames. -/
def slotBytes (hop : Nat) : Nat := if hop = 4 then 64 else 128

/-- Messages waiting at a hop direction. -/
def State.waitingAt (s : State) (key : Nat) : List (Nat × HopMsg) := Map.getD s.rnd.waiting key []

/-- They are replaced. -/
def State.setWaiting (s : State) (key : Nat) (l : List (Nat × HopMsg)) : State :=
  { s with rnd := { s.rnd with waiting := if l = [] then Map.erase s.rnd.waiting key else Map.set s.rnd.waiting key l } }

/-- The placed control-lane and floor messages of a frame: 16 slots of one unit, 48 of three. -/
def placeLanes (now : Nat) (l : List (Nat × Nat × HopMsg)) : List (Nat × Placed) :=
  let put (base size k : Nat) (q : Nat × Nat × HopMsg) : Nat × Placed :=
    (q.1, { first := base + size * k, units := size, msg := q.2.2, late := decide (q.2.2.booked < now) })
  (((l.filter fun q => q.2.2.lane == .control).take 16).zipIdx.map fun q => put 0 1 q.2 q.1) ++
  (((l.filter fun q => q.2.2.lane == .floor).take 48).zipIdx.map fun q => put 16 3 q.2 q.1)

/-- A frame of `total` units filled from a queue, `lost` units of its booked area taken by replays. -/
def fillFrame (now total lost : Nat) (col : Bool) (credits : Table Nat) (ok : HopMsg → Bool)
    (owner : Option (Nat × Nat)) (rides : HopMsg → Bool) (l : List (Nat × Nat × HopMsg)) : List (Nat × Placed) × Table Nat :=
  let lanes := placeLanes now l
  let nc := (lanes.filter fun p => p.2.units == 1 && decide (p.2.first < 16)).length
  let nf := lanes.length - nc
  let room : Room := { a := 160, aEnd := total - lost, b := 16 + 3 * nf, bEnd := 160, c := nc, cEnd := 16 }
  let f0 : Filling := { room := room, out := [], blocked := [], credits := credits }
  let f := (fillOrder owner rides l).foldl (fun (f : Filling) q => f.offer col 16 ok now q) f0
  (lanes ++ f.out, f.credits)

/-- A service turn of `slots` slots filled from a queue; on an HBM stack floor reads go first (R454). -/
def fillSlots (now slots hop : Nat) (owner : Option (Nat × Nat)) (rides : HopMsg → Bool)
    (l : List (Nat × Nat × HopMsg)) : List (Nat × Placed) :=
  let room : Room := { a := 0, aEnd := slots, b := 0, bEnd := 0, c := 0, cEnd := 0 }
  let lane (q : Nat × Nat × HopMsg) : Bool := q.2.2.lane == .floor || q.2.2.lane == .control
  let rest := if hop = 6 then ringOrder owner rides l else fillOrder owner rides l
  let f0 : Filling := { room := room, out := [], blocked := [], credits := [] }
  ((l.filter lane ++ rest.filter fun q => !lane q).foldl
    (fun (f : Filling) q => f.offer false (slotBytes hop) (fun _ => true) now q) f0).out

/-- What is sent leaves the queue, and late messages are charged. -/
def State.sendPlaced (s : State) (hop link dir : Nat) (l : List (Nat × Nat × HopMsg))
    (placed : List (Nat × Placed)) : State :=
  let key := hopKey hop link dir
  let gone : List Nat := placed.map fun (p : Nat × Placed) => p.1
  let stay := l.filter fun (q : Nat × Nat × HopMsg) => !gone.contains q.1
  let s := s.setWaiting key (stay.map fun (q : Nat × Nat × HopMsg) => q.2)
  let msgs : List HopMsg := placed.map fun (p : Nat × Placed) => p.2.msg
  let late : List HopMsg := (placed.filter fun (p : Nat × Placed) => p.2.late).map fun (p : Nat × Placed) => p.2.msg
  let s := { s with rnd := { s.rnd with sent := Map.set s.rnd.sent key msgs } }
  s.chargeLate hop link dir late

/-- A frame on a col: replays due ride the carrier or booked units (R541, R542); what they displace is late; the
frame is kept for 12 turns (R540). -/
def State.sendCol (s : State) (c hop link dir : Nat) (owner : Option (Nat × Nat)) (rides : HopMsg → Bool)
    (l : List (Nat × Nat × HopMsg)) : State :=
  let x := s.col c
  let y := x.dir dir
  let abs := s.absTurn
  let now := abs - x.origin
  let reps := x.replaysNow dir now
  let lost := if x.spares = [] then rideUnits x.g reps.length else 0
  let ok := s.chanAssigned c
  let full := fillFrame abs (25 * x.g) 0 true y.credits ok owner rides l
  let r := fillFrame abs (25 * x.g) lost true y.credits ok owner rides l
  let missed := (full.1.map (·.1)).filter fun i => !(r.1.map (·.1)).contains i
  let l := l.map fun (q : Nat × Nat × HopMsg) => if missed.contains q.1 then (q.1, max q.2.1 (abs + 1), q.2.2) else q
  let rode := if x.spares = [] then
      (reps.zipIdx).map fun p => (25 * x.g - 25 * (p.2 + 1), p.1.seq, p.1.slot)
    else []
  let fr : ColFrame := { seq := now, groups := x.g, msgs := r.1.map (·.2), got := [], rides := rode }
  let due := (y.due.map fun q => if reps.contains q then { q with done := true, turn := now } else q).filter
    fun q => !q.done || decide (now < q.turn + 12)
  let y := { y with sent := lastK 12 (y.sent ++ [fr]), due := due, credits := r.2, held := y.held ++ [fr] }
  let s := s.putCol c (x.setDir dir y)
  let s := match colEndReg c (sendDie hop link dir) with
    | some (p, k) => s.count (R.colEndReplay p k) reps.length
    | none => s
  s.sendPlaced hop link dir l r.1

/-- HOP_FRAME_SEND: in a turn of the round, one hop direction sends what its launcher holds, `offered` having been
handed to it before the edge (R133, R146). No turn begins while the beacon is stopped (R131); what would cross
a failed col is not sent (R557). -/
def execHopFrameSend (hop link dir turn : Nat) (offered : List HopMsg) (s : State) : Host.Outcome State Fault Refusal :=
  .next (s.whenRun fun s =>
    if !s.rnd.running || turn < s.rnd.turn || linkCount hop ≤ link then s
    else
      let s := s.toTurn turn
      let key := hopKey hop link dir
      let l := ((s.waitingAt key) ++ offered.map fun m => (s.absTurn, m)).zipIdx.map fun q => (q.2, q.1)
      let s := s.setWaiting key (l.map (·.2))
      let b := s.turnBank hop link dir turn
      let owner := ttOwner (s.ttEntry b hop link dir turn)
      let rides (m : HopMsg) : Bool := s.epochRides m b
      match hopCol hop link with
      | some c =>
        if (s.col c).st = 5 then
          l.foldl (fun s q => s.unsent c (sendDie hop link dir) q.2.2.part q.2.2.engine) (s.setWaiting key [])
        else if (s.col c).carries then s.sendCol c hop link dir owner rides l
        else s
      | none =>
        if hop = 0 then
          s.sendPlaced hop link dir l (fillFrame s.absTurn 800 0 false [] (fun _ => true) owner rides l).1
        else s.sendPlaced hop link dir l (fillSlots s.absTurn (s.serviceSlots hop link turn) hop owner rides l))

/-! ### Stalls and floor gates -/

/-- Half, die, unit kind of R892 (12 for fatal), unit byte, and the unit code of event 0x0302. -/
def StallUnit.place : StallUnit → Nat × Nat × Nat × Nat × Nat
  | .core h c => (h, h / 2, 1, h % 2 + 2 * c, 1)
  | .array h => (h, h / 2, 2, h % 2, 2)
  | .governor h => (h, h / 2, 3, h % 2, 3)
  | .launch h => (h, h / 2, 3, h % 2, 4)
  | .l1 h => (h, h / 2, 3, h % 2, 5)
  | .slice h => (h, h / 2, 12, h % 2, 6)
  | .directory h => (h, h / 2, 12, h % 2, 7)
  | .stack p => (2 * p, p, 6, 2 * p, 8)
  | .colEnd c d => (if d = 8 then 16 else 2 * d, d, 8, 2 * c, 9)
  | .hub => (16, 8, 12, 0, 10)
  | .otherUnit d h => (if d = 8 then 16 else 2 * d + h % 2, d, 12, h % 2, 11)

/-- The halves a col serves: those of partitions with a route of R148 or R150 over it (R224). -/
def PartRec.usesCol (p : PartRec) (c : Nat) : Bool :=
  let peaks := p.halves.map (· / 2)
  peaks.any fun a => (hubRoute a).contains c || peaks.any fun b => (peakRoute a b).contains c

/-- The partitions whose logical cols include a col. -/
def State.partsOnCol (s : State) (c : Nat) : Nat :=
  maskOf ((s.partTable.filter fun p => p.usesCol c).map (·.part))

/-- A unit that a JTAG halt of its half stops (R842): what the halt holds back is no stall (R846). -/
def StallUnit.heldBack (s : State) : StallUnit → Bool
  | .core h _ => s.flag R.jtgState h
  | .array h => s.flag R.jtgState h
  | _ => false

/-- HANDSHAKE_STALL: RND_STALL, event 0x0302, and the fault of R892, R903 or R906. -/
def execHandshakeStall (unit : StallUnit) (s : State) : Host.Outcome State Fault Refusal :=
  let (h, die, kind, ub, code) := unit.place
  .next (if unit.heldBack s then s else s.whenRun fun s =>
    let s := s.setFlag R.rndStall h true
    let s := s.event die (h % 2) 0x0302 [(1, die), (1, h % 2), (1, evCode 0x0302 code), (8, s.rnd.round)]
    let parts := match unit with
      | .stack p => s.partsHolding (· / 2 == p)
      | .colEnd c _ => s.partsOnCol c
      | .hub => 0
      | .otherUnit d k => if d = 8 then 0 else s.partsHolding (· == 2 * d + k % 2)
      | _ => s.partsHolding (· == h)
    s.notice { kind := kind, code := 0x0302, die := die, unit := ub, parts := parts, round := s.rnd.round,
               half := h, line := 0 })

/-- FLOOR_GATE_ADMIT: the oldest read at a half's gate goes once fewer than 3 floor reads are outstanding. -/
def execFloorGateAdmit (half : Nat) (s : State) : Host.Outcome State Fault Refusal :=
  .next (s.whenRun fun s =>
    match s.atGate half with
    | [] => s
    | n :: ns =>
      if !s.gateOpen half then s
      else
        let s := s.setGate half ns
        match s.msg? n with
        | none => s
        | some m =>
          let s := s.setFloor half (s.floorReads half ++ [(m.tag, m.line)])
          (s.unpost n).request { m with stage := .sent })

/-! ### Registers -/

/-- ROUND_LO_READ: the upper half of the same round number is latched (R175). -/
def execRoundLoRead (s : State) : Host.Outcome State Fault Refusal :=
  .next { s with rnd := { s.rnd with latchedHi := s.rnd.round / 2 ^ 32 % 2 ^ 32 }, answer := s.rnd.round % 2 ^ 32 }

/-- Class lists of the stock sets (R920). -/
def stockClasses (hop : Nat) : List Nat :=
  if hop < 4 then [1, 2, 1, 4, 4, 3, 0]
  else if hop = 4 then [2, 1, 2, 4, 2, 1, 2]
  else if hop = 5 then [2, 2, 2, 2, 2, 2, 2]
  else [2, 2, 2, 2, 3, 3, 0]

/-- Partitions that share a link in the day set (R920). -/
def dayOwners (hop link : Nat) : List Nat :=
  match hop with
  | 0 | 4 => if link < 6 then [2 * link, 2 * link + 1] else [link + 6]
  | 1 => [[0, 1], [], [6, 7], [8, 9], [], [13]].getD link []
  | 2 => []
  | 3 => [[0, 1, 2, 3], [4, 5, 6, 7], [8, 9, 10, 11], [12, 13]].getD link []
  | 5 => List.range 14
  | _ => []

/-- Partitions that share a link in the night set. -/
def nightOwners (hop link : Nat) : List Nat :=
  match hop with
  | 0 | 3 | 4 | 5 => [0]
  | 1 => if link = 1 || link = 4 then [] else [0]
  | _ => []

/-- A table of the day or night set (R920). -/
def stockTable (owners : List Nat) (hop : Nat) : List Nat :=
  (List.range 128).map fun t =>
    if t % 8 = 7 || owners.isEmpty then 0x70
    else owners.getD (t / 8 % owners.length) 0 + 16 * (stockClasses hop).getD (t % 8) 0

/-- A table of the even set over partitions in ascending number. -/
def evenTable (parts : List Nat) : List Nat :=
  (List.range 128).map fun t =>
    if parts.isEmpty then 0x70 else parts.getD (t / 4 % parts.length) 0 + 16 * (1 + t % 4)

/-- The partition numbers of an image, ascending. -/
def Image.partNumbers (im : Image) : List Nat := (List.range 16).filter fun p => im.parts.any fun r => r.part == p

/-- A stock set of turn tables written into a bank; the even set is made for given partitions. -/
def State.writeStockSet (s : State) (bank sel : Nat) (parts : List Nat) : State :=
  hopDirs.foldl (fun s d =>
    s.setTable bank d.1 d.2.1 d.2.2
      (if sel = 0 then stockTable (dayOwners d.1 d.2.1) d.1
       else if sel = 1 then stockTable (nightOwners d.1 d.2.1) d.1
       else evenTable parts)) s

/-- RWL fields are locked (R8, R11). -/
def State.locked (s : State) : Bool := s.img.committed.isSome

/-- A write to an RWL field is ignored (R10). -/
def State.rwlIgnored (s : State) (off : Nat) : State := s.hubEvent 0x0201 [(4, off), (8, s.rnd.round)]

/-- A register write edits the pending image: it counts as unsigned, and IMG_SEL reads 0xF (R241). -/
def State.editImage (s : State) : State :=
  let f (im : Image) : Image := { im with sigKind := 0 }
  let s := { s with img := { s.img with pending := s.img.pending.map f } }
  (s.setFlag R.imgStatus 3 true).setFld R.imgSel 3 0 0xF

/-- A selection of a stock set takes effect at a round boundary, judged against the pending image in force then
(R920): 0 day, 1 night, 2 even. -/
def State.applyTurnSet (s : State) (v : Nat) : State :=
  let sel := v % 16
  match sel, s.img.pending with
  | 2, none => s.rwlIgnored R.rndTtSel
  | _, im =>
    let parts := match im with | some im => im.partNumbers | none => []
    let s := s.writeStockSet (1 - s.bank) sel parts
    s.editImage.setFld R.rndTtSel 3 0 sel

/-- TURN_TABLE_SELECT: 0 to 2 at the next round boundary, or at once while the beacon is stopped; other values are
ignored (R40, R918, R920). -/
def execTurnTableSelect (v : Word) (s : State) : Host.Outcome State Fault Refusal :=
  let n := v.toNat
  .next (if 3 ≤ n % 16 then s
    else if s.locked then s.rwlIgnored R.rndTtSel
    else if s.rnd.running then { s with delayed := s.delayed ++ [(R.rndTtSel, v)] }
    else s.applyTurnSet n)

/-- TURN_TABLE_ENTRY_WRITE: the entry that RND_TT_ADDR names, in the bank that does not govern (R174); RND_TT_SEL
and IMG_SEL read 0xF (R241). -/
def execTurnTableEntryWrite (v : Word) (s : State) : Host.Outcome State Fault Refusal :=
  let a := s.reg R.rndTtAddr
  let slot := bits a 6 0
  let link := bits a 11 7
  let hop := bits a 14 12
  let dir := bits a 15 15
  let bank := bits a 16 16
  .next (if linkCount hop ≤ link then s
    else if s.locked || bank = s.bank then s.rwlIgnored R.rndTtData
    else
      let l := (List.range 128).map fun t => if t = slot then v.toNat % 256 else s.ttEntry bank hop link dir t
      let s1 := (s.setTable bank hop link dir l).setFld R.rndTtSel 3 0 0xF
      if s.ttEntry bank hop link dir slot = v.toNat % 256 then s1 else s1.editImage)

end Sys2Proof.Machine
end

