-- ==== Sys2Proof/Machine/Plan.lean ====
section
/-! DEFINITION. Plans, argument blocks and the admission checks (R43 to R55, R925, R138). -/

namespace Sys2Proof.Machine

/-- The little-endian field of `n` bytes at an offset of a byte string. -/
def fieldAt (b : List Nat) (off n : Nat) : Nat := leVal ((b.drop off).take n)

/-- A device range lies wholly in HBM, in one span, or wholly in the system window. -/
def State.rangeOk (s : State) (a n : Nat) : Bool :=
  (s.inHbm a && s.inHbm (a + n - 1) && spanOf a == spanOf (a + n - 1)) || (inSwm a && inSwm (a + n - 1))

/-- The header of a plan (R46). -/
structure PlanHead where
  magic : Nat
  version : Nat
  headerSize : Nat
  planId : Nat
  length : Nat
  crc : Nat
  digest : Nat
  ucodeMin : Nat
  cores : Nat
  flags : Nat
  bound : Nat
  allowance : Nat
  phaseOff : Nat
  phases : Nat
  turnCount : Nat
  turnOff : Nat
  leavePeak : Nat
  l1Sel : Nat
  shadowSel : Nat
  sigOff : Nat
  args : Nat
  preset : Nat
  rest1 : Nat
  gap : Nat
  rest2 : Nat
  deriving DecidableEq, Repr

/-- A header read from its 128 bytes. -/
def PlanHead.parse (b : List Nat) : PlanHead :=
  { magic := fieldAt b 0x00 4, version := fieldAt b 0x04 2, headerSize := fieldAt b 0x06 2, planId := fieldAt b 0x08 8,
    length := fieldAt b 0x10 4, crc := fieldAt b 0x14 4, digest := fieldAt b 0x18 4, ucodeMin := fieldAt b 0x1C 2,
    cores := fieldAt b 0x1E 1, flags := fieldAt b 0x1F 1, bound := fieldAt b 0x20 4, allowance := fieldAt b 0x24 4,
    phaseOff := fieldAt b 0x28 4, phases := fieldAt b 0x2C 2, turnCount := fieldAt b 0x2E 2, turnOff := fieldAt b 0x30 4,
    leavePeak := fieldAt b 0x34 2, l1Sel := fieldAt b 0x36 1, shadowSel := fieldAt b 0x37 1, sigOff := fieldAt b 0x38 4,
    args := fieldAt b 0x3C 2, preset := fieldAt b 0x3E 1, rest1 := fieldAt b 0x3F 1, gap := fieldAt b 0x40 4,
    rest2 := fieldAt b 0x44 60 }

/-- A phase table entry (R48). -/
structure PhaseEnt where
  bound : Nat
  tileOff : Nat
  tiles : Nat
  regs : Nat
  kernelOff : Nat
  kernelLen : Nat
  turnFirst : Nat
  turnCount : Nat
  leave : Nat
  l1Sel : Nat
  shadowSel : Nat
  flags : Nat
  groupsMax : Nat
  lstore : Nat
  deriving DecidableEq, Repr

/-- A phase entry read from its 32 bytes. -/
def PhaseEnt.parse (b : List Nat) : PhaseEnt :=
  { bound := fieldAt b 0x00 4, tileOff := fieldAt b 0x04 4, tiles := fieldAt b 0x08 2, regs := fieldAt b 0x0A 2,
    kernelOff := fieldAt b 0x0C 4, kernelLen := fieldAt b 0x10 4, turnFirst := fieldAt b 0x14 2,
    turnCount := fieldAt b 0x16 2, leave := fieldAt b 0x18 2, l1Sel := fieldAt b 0x1A 1, shadowSel := fieldAt b 0x1B 1,
    flags := fieldAt b 0x1C 1, groupsMax := fieldAt b 0x1D 1, lstore := fieldAt b 0x1E 2 }

/-- Whether the phase is followed by a preemption point. -/
def PhaseEnt.point (p : PhaseEnt) : Bool := bit p.flags 0

/-- Effective selectors of a phase (R61). -/
def PhaseEnt.l1 (p : PhaseEnt) (h : PlanHead) : Nat := if p.l1Sel = 0xFF then h.l1Sel else p.l1Sel
def PhaseEnt.shadow (p : PhaseEnt) (h : PlanHead) : Nat := if p.shadowSel = 0xFF then h.shadowSel else p.shadowSel

/-- L1 KiB of a split (R47); local store has the rest of 320 KiB. -/
def l1Kib (sel : Nat) : Nat := [32, 64, 128, 192, 256].getD sel 32

/-- A tile list entry (R49). -/
structure TileEnt where
  half : Nat
  core : Nat
  groups : Nat
  rest : Nat
  param : Nat
  deriving DecidableEq, Repr

/-- A tile read from its 16 bytes. -/
def TileEnt.parse (b : List Nat) : TileEnt :=
  { half := fieldAt b 0 1, core := fieldAt b 2 2, groups := fieldAt b 4 2, rest := fieldAt b 1 1 + fieldAt b 6 2, param := fieldAt b 8 8 }

/-- A turn entry read from its 8 bytes (R52), and its reserved bytes. -/
def TurnEntry.parse (b : List Nat) : TurnEntry := { hop := fieldAt b 0 1, cls := fieldAt b 1 1, turns := fieldAt b 2 2, link := fieldAt b 4 2 }

/-- Table `count` entries of `size` bytes at an offset of a byte string, as byte strings. -/
def entriesAt (b : List Nat) (off size count : Nat) : List (List Nat) :=
  (List.range count).map fun i => (b.drop (off + size * i)).take size

/-- The phases of a plan. -/
def planPhases (b : List Nat) (h : PlanHead) : List PhaseEnt := (entriesAt b h.phaseOff 32 h.phases).map PhaseEnt.parse

/-- The tiles of a phase. -/
def phaseTiles (b : List Nat) (p : PhaseEnt) : List TileEnt := (entriesAt b p.tileOff 16 p.tiles).map TileEnt.parse

/-- A turn entry is in range and its reserved bytes are zero (R52). -/
def turnOk (b : List Nat) : Bool :=
  let t := TurnEntry.parse b
  t.hop ≤ 6 && t.cls ≤ 4 && 1 ≤ t.turns && t.turns ≤ 128 && fieldAt b 6 2 == 0

/-- A tile is in range for a shape of `halves` halves. -/
def TileEnt.ok (t : TileEnt) (halves : Nat) (h : PlanHead) (p : PhaseEnt) : Bool :=
  t.half < halves && t.core < h.cores && 1 ≤ t.groups && t.groups ≤ p.groupsMax && t.rest == 0

/-- A phase's fields, tables and tiles are sound (check 0x05). -/
def phaseOk (b : List Nat) (halves : Nat) (h : PlanHead) (p : PhaseEnt) : Bool :=
  1 ≤ p.bound && 1 ≤ p.tiles && p.tileOff % 8 == 0 && p.tileOff + 16 * p.tiles ≤ h.length &&
  1 ≤ p.regs && p.regs ≤ 255 && p.kernelOff % 256 == 0 && 1 ≤ p.kernelLen && p.kernelLen ≤ 0x20000 &&
  p.kernelOff + p.kernelLen ≤ h.length && p.turnFirst + p.turnCount ≤ h.turnCount &&
  (p.l1Sel ≤ 4 || p.l1Sel == 0xFF) && (p.shadowSel ≤ 1 || p.shadowSel == 0xFF) && p.flags ≤ 1 &&
  1 ≤ p.groupsMax && p.groupsMax ≤ 64 && (p.turnCount != 0 || h.preset != 0) &&
  (phaseTiles b p).all fun t => t.ok halves h p

/-- An entry of the argument signature is in range (R53). -/
def sigOk (b : List Nat) : Bool := fieldAt b 0 1 ≤ 5 && fieldAt b 1 1 ≤ 3 && fieldAt b 2 2 == 0

/-- The layout is sound (check 0x05). -/
def layoutOk (b : List Nat) (halves : Nat) (h : PlanHead) : Bool :=
  1 ≤ h.cores && h.cores ≤ 72 && h.flags ≤ 3 && 1 ≤ h.bound && 1 ≤ h.phases && h.phases ≤ 1024 && h.turnCount ≤ 4096 &&
  h.l1Sel ≤ 4 && h.shadowSel ≤ 1 && h.args ≤ 64 && h.preset ≤ 15 && h.rest1 == 0 && h.rest2 == 0 &&
  h.phaseOff % 8 == 0 && h.turnOff % 8 == 0 && h.sigOff % 8 == 0 &&
  h.phaseOff + 32 * h.phases ≤ h.length && h.turnOff + 8 * h.turnCount ≤ h.length && h.sigOff + 8 * h.args ≤ h.length &&
  (entriesAt b h.turnOff 8 h.turnCount).all turnOk && (entriesAt b h.sigOff 8 h.args).all sigOk &&
  (planPhases b h).all (phaseOk b halves h)

/-- The largest sum of phase bounds between consecutive points, the plan's start and end being points (R46). -/
def planGap (ps : List PhaseEnt) : Nat :=
  (ps.foldl (fun (acc : Nat × Nat) p =>
    let run := acc.2 + p.bound
    (max acc.1 run, if p.point then 0 else run)) (0, 0)).1

/-- The summaries agree (check 0x06). -/
def summariesOk (h : PlanHead) (ps : List PhaseEnt) : Bool :=
  (ps.map (·.bound)).sum ≤ h.bound && h.leavePeak == ps.foldl (fun m p => max m p.leave) 0 && h.gap == planGap ps

/-- Registers and local store fit (check 0x0A). -/
def occupancyOk (h : PlanHead) (p : PhaseEnt) : Bool :=
  p.groupsMax * 32 * p.regs ≤ 65536 && p.groupsMax * p.lstore * 256 ≤ (320 - l1Kib (p.l1 h)) * 1024

/-! ### Arguments -/

/-- An argument slot's value is valid for its type (R54). -/
def State.argValid (s : State) (type size v : Nat) : Bool :=
  let region (inside : Nat → Bool) (whole : Bool) : Bool :=
    v % 128 == 0 && size % 128 == 0 && (if size = 0 then inside v else whole)
  match type with
  | 0 => v < 2 ^ 32 && size == 0
  | 1 => size == 0
  | 2 => region s.inHbm (s.inHbm v && s.inHbm (v + size - 1) && spanOf v == spanOf (v + size - 1))
  | 3 => region inSwm (inSwm v && inSwm (v + size - 1))
  | 4 => region (fun a => (ringOf a).isSome)
      (match ringOf v, ringOf (v + size - 1) with | some p, some q => p.1 == q.1 | _, _ => false)
  | 5 => s.rangeOk v 64
  | _ => false

/-- The argument block matches the signature (check 0x0C, R925). -/
def State.argsOk (s : State) (h : PlanHead) (sig blk : List Nat) : Bool :=
  fieldAt blk 4 2 == h.args && fieldAt blk 0 4 == 16 + 16 * fieldAt blk 4 2 && fieldAt blk 8 8 == h.planId &&
  fieldAt blk 6 2 == 0 &&
  (List.range h.args).all fun i =>
    let g := (sig.drop (8 * i)).take 8
    let a := (blk.drop (16 + 16 * i)).take 16
    fieldAt a 0 1 == fieldAt g 0 1 && fieldAt a 1 1 == fieldAt g 1 1 && fieldAt a 2 2 == 0 &&
      fieldAt g 4 4 ≤ fieldAt a 4 4 && s.argValid (fieldAt a 0 1) (fieldAt a 4 4) (fieldAt a 8 8)

/-- The flags cover what the slots need (check 0x0B). -/
def flagsOk (h : PlanHead) (blk : List Nat) : Bool :=
  let slots := entriesAt blk 16 16 h.args
  let ring := slots.any fun a => fieldAt a 0 1 == 4
  let sys := slots.any fun a => fieldAt a 0 1 == 3 || (fieldAt a 0 1 == 5 && inSwm (fieldAt a 8 8))
  (!ring || bit h.flags 0) && (!sys || bit h.flags 1)

/-- Two ranges overlap. -/
def overlaps (a n b k : Nat) : Bool := n != 0 && k != 0 && decide (a < b + k) && decide (b < a + n)

/-- No written region overlaps the plan or the argument block (check 0x0D). -/
def noOverlap (h : PlanHead) (plan arg : Nat) (blk : List Nat) : Bool :=
  (entriesAt blk 16 16 h.args).all fun a =>
    let t := fieldAt a 0 1
    if 2 ≤ t && t ≤ 4 && bit (fieldAt a 1 1) 1 then
      !overlaps (fieldAt a 8 8) (fieldAt a 4 4) plan h.length &&
        !overlaps (fieldAt a 8 8) (fieldAt a 4 4) arg (16 + 16 * h.args)
    else true

/-! ### Turn shares (R138, R224) -/

/-- The logical peaks of a partition, in order of first appearance. -/
def PartRec.peaks (p : PartRec) : List Nat := (p.halves.map (· / 2)).eraseDups

/-- The physical link of a logical link of a partition (R224). -/
def PartRec.physLink (p : PartRec) (hop link : Nat) : Option Nat :=
  let cols (base n : Nat) := ((List.range n).filter fun i => p.usesCol (base + i))[link]?
  match hop with
  | 0 | 4 => p.peaks[link]?
  | 1 => cols 0 6
  | 2 => cols 6 4
  | 3 => cols 10 4
  | 5 | 6 => if link < 2 then some link else none
  | _ => none

/-- The share of a partition in one direction of a link for a class (R138), in the bank that governs it. -/
def State.ttShare (s : State) (part hop link dir cls : Nat) : Nat :=
  let bank := if s.isOpened part && s.inSwap then 1 - s.bank else s.bank
  ((List.range 128).filter fun t => ttOwner (s.ttEntry bank hop link dir t) == some (part, cls)).length

/-- Bookings of a list of turn entries fit the partition's shares (check 0x0E). -/
def State.turnsFit (s : State) (p : PartRec) (l : List TurnEntry) : Bool :=
  l.all fun e =>
    let sum := ((l.filter fun x => x.hop == e.hop && x.cls == e.cls && x.link == e.link).map (·.turns)).sum
    match p.physLink e.hop e.link with
    | some k => sum ≤ s.ttShare p.part e.hop k 0 e.cls && sum ≤ s.ttShare p.part e.hop k 1 e.cls
    | none => false

/-- The image that governs a partition. -/
def State.imageOf (s : State) (part : Nat) : Option Image :=
  if s.isOpened part && s.inSwap then s.img.pending else s.img.committed

/-- The turn entries a phase books: its own, or the preset profile of the image. -/
def State.phaseTurns (s : State) (part : Nat) (b : List Nat) (h : PlanHead) (p : PhaseEnt) : Option (List TurnEntry) :=
  if p.turnCount != 0 then some ((entriesAt b (h.turnOff + 8 * p.turnFirst) 8 p.turnCount).map TurnEntry.parse)
  else ((s.imageOf part).bind fun im => im.profiles.find? fun q => q.number == h.preset).map (·.entries)

/-! ### The checks in order (R55) -/

/-- Level of the patch in force. -/
def State.patchLevel (s : State) : Nat := s.fld R.seqLevel 15 0

/-- The ring is up: this member is in a chain or a closed ring. -/
def State.ringUp (s : State) : Bool := s.fld R.rngState 2 0 == 2 || s.fld R.rngState 2 0 == 3

/-- The first of the checks 0x03 to 0x0F that fails on a plan and argument block that were read; 0 for none. -/
def State.planCode (s : State) (p : PartRec) (x : Job) (b blk : List Nat) (h : PlanHead) : Nat :=
  let ps := planPhases b h
  if !(h.magic == 0x4E4C5044 && h.version == 1 && h.headerSize == 128) then 0x03
  else if h.crc != crc32 (b.take 0x14 ++ [0, 0, 0, 0] ++ b.drop 0x18) then 0x04
  else if !layoutOk b p.halves.length h then 0x05
  else if !summariesOk h ps then 0x06
  else if h.digest != p.digest then 0x07
  else if s.patchLevel < h.ucodeMin then 0x08
  else if p.halves.any fun k => s.fld (R.corCount k) 6 0 < h.cores then 0x09
  else if !ps.all (occupancyOk h) then 0x0A
  else if !flagsOk h blk || (bit h.flags 0 && !s.ringUp) then 0x0B
  else if !s.argsOk h ((b.drop h.sigOff).take (8 * h.args)) blk then 0x0C
  else if !noOverlap h x.planAddr x.argBase blk then 0x0D
  else if !ps.all fun q => (match s.phaseTurns p.part b h q with | some l => s.turnsFit p l | none => false) then 0x0E
  else if s.eff p.part < h.leavePeak then 0x0F
  else 0

/-- The partition exists for admission: it is in the image and does not count as absent (R256, R890). -/
def State.partPresent (s : State) (p : Nat) : Bool := (s.partRec p).isSome && !bit s.img.absent p

/-- The admission checks of a job: the code of the first that fails, and the header where it was read. -/
def State.admitCheck (s : State) (x : Job) : State × Nat × Option PlanHead :=
  match s.partRec x.part with
  | none => (s, 0x01, none)
  | some p =>
    if bit s.img.absent x.part then (s, 0x01, none)
    else if x.noArena || x.planAddr % 256 != 0 || x.argBase % 64 != 0 || !s.rangeOk x.planAddr 128 then (s, 0x02, none)
    else
      match s.hubRead x.planAddr 128 with
      | (s, none) => (s, 0x02, none)
      | (s, some hb) =>
        let h := PlanHead.parse hb
        if h.length < 256 || 0x1000000 < h.length || !s.rangeOk x.planAddr h.length ||
            !s.rangeOk x.argBase (16 + 16 * h.args) then (s, 0x02, some h)
        else
          match s.hubRead x.planAddr h.length with
          | (s, none) => (s, 0x02, some h)
          | (s, some b) =>
            match s.hubRead x.argBase (16 + 16 * h.args) with
            | (s, none) => (s, 0x02, some h)
            | (s, some blk) => (s, s.planCode p x b blk h, some h)

/-- The phase a job runs next or now, with its plan: header, bytes, entry. -/
def State.jobPhase (s : State) (x : Job) : Option (PlanHead × List Nat × PhaseEnt) :=
  match (s.hubRead x.planAddr 128).2 with
  | none => none
  | some hb =>
    let h := PlanHead.parse hb
    match (s.hubRead x.planAddr h.length).2 with
    | none => none
    | some b => (planPhases b h)[x.phase]?.map fun p => (h, b, p)

end Sys2Proof.Machine
end

