-- ==== Sys2Proof/Machine/Channels.lean ====
section
/-! DEFINITION. Channels: entries, doorbells, commands, and the hub commands that read items, accept, dispatch, sequence
phases, post records, change priorities and flush (R559 to R604, R612, R613). -/

namespace Sys2Proof.Machine

/-! ### Entries (R559 to R561) -/

/-- An entry read from its 128 bytes. -/
def ChanEntry.parse (b : List Nat) : ChanEntry :=
  { enable := bit (fieldAt b 0x00 1) 0, part := fieldAt b 0x01 1, client := fieldAt b 0x02 2, func := fieldAt b 0x04 1,
    port := fieldAt b 0x05 1, prioDefault := fieldAt b 0x06 1, prioMax := fieldAt b 0x07 1, sqAddr := fieldAt b 0x08 8,
    sqLog2 := fieldAt b 0x10 1, cqLog2 := fieldAt b 0x11 1, vector := fieldAt b 0x12 2, irq := bit (fieldAt b 0x14 1) 0,
    notices := bit (fieldAt b 0x14 1) 1, cqAddr := fieldAt b 0x20 8, headWb := fieldAt b 0x28 8 }

/-- HPT_CLIENT_c grants a client to a function of a port that exists and is enabled (R697). -/
def State.granted (s : State) (client func port : Nat) : Bool :=
  let v := s.reg (R.hptClient client)
  bit v 7 && bits v 5 0 == func && bits v 6 6 == port && s.funcOk port func

/-- The offset of the first field of an entry that is out of range, the client's grant being judged last (R560). -/
def State.entryFault (s : State) (b : List Nat) : Option Nat :=
  let e := ChanEntry.parse b
  let checks : List (Nat × Bool) :=
    [(0x00, fieldAt b 0x00 1 ≤ 1), (0x01, e.part ≤ 15), (0x02, e.client ≤ 511), (0x04, e.func ≤ 63), (0x05, e.port ≤ 1),
     (0x06, e.prioDefault ≤ 3), (0x07, e.prioDefault ≤ e.prioMax && e.prioMax ≤ 3),
     (0x08, e.sqAddr % 4096 == 0 && s.rangeOk e.sqAddr (64 * 2 ^ min e.sqLog2 16)), (0x10, 6 ≤ e.sqLog2 && e.sqLog2 ≤ 16),
     (0x11, 6 ≤ e.cqLog2 && e.cqLog2 ≤ 16), (0x12, e.vector ≤ 2047), (0x14, fieldAt b 0x14 1 ≤ 3),
     (0x15, fieldAt b 0x15 11 == 0), (0x20, e.cqAddr % 4096 == 0 && s.rangeOk e.cqAddr (64 * 2 ^ min e.cqLog2 16)),
     (0x28, e.headWb == 0 || (e.headWb % 8 == 0 && s.rangeOk e.headWb 8)), (0x30, fieldAt b 0x30 80 == 0),
     (0x02, s.granted e.client e.func e.port)]
  (checks.find? fun c => !c.2).map (·.1)

/-- A channel of the table. -/
def State.inTable (s : State) (c : Nat) : Bool := c < s.fld R.chnTblCount 12 0

/-- Address of a channel's entry. -/
def State.entryAddr (s : State) (c : Nat) : Nat := s.pair R.chnTblBaseLo R.chnTblBaseHi + 128 * c

/-- A cached entry gives up its place when 256 are cached: that of the lowest-numbered channel (log entry 48). -/
def State.trimEntries (s : State) (c : Nat) : State :=
  let l := Map.keysWhere s.jobs.channels fun k x => k != c && x.entry.isSome
  if l.length < 256 then s
  else match l with
    | k :: _ => s.setChan k { s.chan k with entry := none }
    | [] => s

/-- A channel's entry is bad (R560). -/
def State.badEntry (s : State) (c field func port : Nat) : State :=
  let s := s.setChan c { s.chan c with st := .badEntry, entry := none }
  (s.hubEvent 0x0901 [(2, c), (1, evCode 0x0901 field)]).chanErr 0x01 c (func % 64) (port % 2)

/-- The entry of a channel in force: cached, or read on the first use (R560, R561). -/
def State.useEntry (s : State) (c : Nat) : State × Option ChanEntry :=
  let x := s.chan c
  match x.entry with
  | some e => (s, some e)
  | none =>
    if !s.inTable c || x.st == .badEntry then (s, none)
    else if !s.rangeOk (s.entryAddr c) 128 then (s.badEntry c 0xFF 0 0, none)
    else
      match s.hubRead (s.entryAddr c) 128 with
      | (s, none) => (s.badEntry c 0xFF 0 0, none)
      | (s, some b) =>
        match s.entryFault b with
        | some f => (s.badEntry c f (fieldAt b 4 1) (fieldAt b 5 1), none)
        | none =>
          let e := ChanEntry.parse b
          let s := s.trimEntries c
          (s.setChan c { s.chan c with entry := some e }, some e)

/-! ### Doorbells (R572, R573) -/

/-- Distance from `a` up to `b` of two wrapping 32-bit counts. -/
def dist32 (a b : Nat) : Nat := (b + 2 ^ 32 - a % 2 ^ 32) % 2 ^ 32

/-- A doorbell refused: reasons 1 wrong function, 2 channel not active, 3 too far, 4 behind. -/
def State.refuseBell (s : State) (c func port reason : Nat) : State :=
  (s.hubEvent 0x0904 [(2, c), (1, func), (1, port), (1, evCode 0x0904 reason)]).chanErr 0x04 c func port

/-- A doorbell judged: function, then state, then the value. -/
def State.bell (s : State) (port func c : Nat) (f : State → ChanEntry → Channel → State × Nat) : State :=
  match s.useEntry c with
  | (s, none) => s.refuseBell c func port 2
  | (s, some e) =>
    if e.func != func || e.port != port then s.refuseBell c func port 1
    else if (s.chan c).st != .active || !e.enable then s.refuseBell c func port 2
    else
      match f s e (s.chan c) with
      | (t, 0) => t
      | (_, r) => s.refuseBell c func port r

/-- A new tail rung by a function, or by a ring mailbox for it (R573, R765). -/
def State.ringTail (s : State) (port func chan value : Nat) : State :=
  s.bell port func chan fun s e x =>
    if 2 ^ e.sqLog2 < dist32 x.head value then (s, 3)
    else if dist32 x.head value < dist32 x.head x.tail then (s, 4)
    else (s.setChan chan { x with tail := value % 2 ^ 32 }, 0)

/-- DOORBELL_TAIL: a new tail (R573). -/
def execDoorbellTail (port func chan value : Nat) (s : State) : Host.Outcome State Fault Refusal :=
  .next (s.whenRun fun s => s.ringTail port func chan value)

/-- DOORBELL_CQ_HEAD: a new completion head (R573). -/
def execDoorbellCqHead (port func chan value : Nat) (s : State) : Host.Outcome State Fault Refusal :=
  .next (s.whenRun fun s => s.bell port func chan fun s _ x =>
    let d := dist32 x.cqHead value
    if d ≤ dist32 x.cqHead x.posted then (s.setChan chan { x with cqHead := value % 2 ^ 32 }, 0)
    else if d < 2 ^ 31 then (s, 3) else (s, 4))

/-! ### Invalidation (R561, R922) -/

/-- CHN_INVAL: a write starts an invalidation, or is held, or merges with the held one. -/
def execChnInval (v : Word) (s : State) : Host.Outcome State Fault Refusal :=
  let n := v.toNat
  let t := if bit n 16 then 4096 else bits n 11 0
  .next (match s.jobs.inval, s.jobs.invalHeld with
    | none, _ => { s with jobs := { s.jobs with inval := some (t, s.rnd.round) } }.setFlag R.chnStatus 0 true
    | some _, none => { s with jobs := { s.jobs with invalHeld := some t } }
    | some _, some h => { s with jobs := { s.jobs with invalHeld := some (if h = t then h else 4096) } })

/-- The cached entries of one channel, or of all, are dropped; a bad entry is cleared. -/
def State.dropEntries (s : State) (t : Nat) : State :=
  let f (c : Nat) (x : Channel) : Channel :=
    if t = 4096 || c = t then { x with entry := none, st := if x.st = .badEntry then .disabled else x.st } else x
  { s with jobs := { s.jobs with channels := Map.mapVals s.jobs.channels f } }

/-- CHN_INVAL_DONE: the invalidation in progress completes; a held one starts. -/
def execChnInvalDone (s : State) : Host.Outcome State Fault Refusal :=
  .next (match s.jobs.inval with
    | none => s
    | some (t, _) =>
      let s := s.dropEntries t
      match s.jobs.invalHeld with
      | some h => { s with jobs := { s.jobs with inval := some (h, s.rnd.round), invalHeld := none } }
      | none => { s with jobs := { s.jobs with inval := none } }.setFlag R.chnStatus 0 false)

/-! ### CHN_CTL (R593, R597, R600) -/

/-- CHN_ENABLE: a disabled channel becomes active; records count from 0 (R593). -/
def execChnEnable (chan : Nat) (s : State) : Host.Outcome State Fault Refusal :=
  .next (s.whenRun fun s =>
    if (s.chan chan).st != .disabled then s
    else
      match s.useEntry chan with
      | (s, none) => s
      | (s, some e) =>
        if e.enable then s.setChan chan { s.chan chan with st := .active, posted := 0, cqHead := 0, wbHead := (s.chan chan).head } else s)

/-- CHN_DISABLE: an active channel reads no further item; its next expected seq is kept. -/
def execChnDisable (chan : Nat) (s : State) : Host.Outcome State Fault Refusal :=
  .next (if (s.chan chan).st = .active then s.setChan chan { s.chan chan with st := .disabled } else s)

/-- CHN_STATUS.flush_busy. -/
def State.showFlush (s : State) : State :=
  s.setFlag R.chnStatus 1 (s.jobs.channels.any fun q => q.2.st == .flushing || q.2.flushOp != 0)

/-- A flush asked for takes effect (R597): the tail in force is its tail; with op 4 running jobs are ended by
partition reset (R598); the cause such a reset carries is not stated (log entry 49). -/
def State.startFlush (s : State) (c : Nat) : State :=
  let x := s.chan c
  if x.flushOp = 0 || x.st == .flushing then s
  else
    let s := s.setChan c { x with st := .flushing, flushTail := some x.tail, flushJobs := 0, flushItems := 0, flushTorn := 0 }
    let s := if x.flushOp = 4 then
        (s.jobs.jobs.filter fun q => q.2.channel == c && q.2.st == .running).foldl (fun s q =>
          let s := s.resetPart q.2.part 2 (resetDetail 3 (Config.freeValue s.free % 16))
          let s := s.drawn
          s.setChan c { s.chan c with flushJobs := (s.chan c).flushJobs + 1 }) s
      else s
    s.showFlush

/-- A flush of a channel requested with op 3 or 4. -/
def State.askFlush (s : State) (c op : Nat) : State :=
  let x := s.chan c
  if x.st == .flushing || x.st == .badEntry || x.flushOp != 0 then s
  else
    let s := s.setChan c { x with flushOp := op }
    if s.rnd.running then s.showFlush else s.startFlush c

/-- CHN_FLUSH: at the next round boundary (R597). -/
def execChnFlush (chan : Nat) (s : State) : Host.Outcome State Fault Refusal := .next (s.whenRun fun s => s.askFlush chan 3)

/-- CHN_FLUSH_KILL: as a flush, and a job that holds a partition is ended (R598). -/
def execChnFlushKill (chan : Nat) (s : State) : Host.Outcome State Fault Refusal := .next (s.whenRun fun s => s.askFlush chan 4)

/-- The jobs of a channel in the table. -/
def State.chanJobs (s : State) (c : Nat) : List (Nat × Job) := s.jobs.jobs.filter fun q => q.2.channel == c

/-- A record that a flush produces: of a flushed or torn item or job, or of the job that op 4 ended (R598, R599). -/
def Rec.ofFlush (op : Nat) (r : Rec) : Bool :=
  let status := r.bytes.getD 1 0
  !r.notice && (status == 6 || status == 7 || (op == 4 && status == 2))

/-- FLUSH_COMPLETE: every record the flush produced has been posted: the channel is disabled, its next seq 0 (R600). A job
that holds a partition under op 3 is not waited for (log entry 49). -/
def execFlushComplete (chan : Nat) (s : State) : Host.Outcome State Fault Refusal :=
  .next (s.whenRun fun s =>
    let x := s.chan chan
    match x.flushTail with
    | some t =>
      if x.st == .flushing && x.head == t && !x.recs.any (Rec.ofFlush x.flushOp) &&
          (s.chanJobs chan).all (fun q => q.2.st == .running || q.2.st == .ended) then
        let s := s.setChan chan { x with st := .disabled, nextSeq := 0, flushOp := 0, flushTail := none }
        let s := s.hubEvent 0x0908 [(2, chan), (2, x.flushJobs), (4, x.flushItems), (4, x.flushTorn), (1, x.flushOp)]
        s.showFlush
      else s
    | none => s)

/-! ### Items (R564 to R571) -/

/-- Address of the slot of count `n`. -/
def ChanEntry.slot (e : ChanEntry) (n : Nat) : Nat := e.sqAddr + 64 * (n % 2 ^ e.sqLog2)

/-- Why an item is bad (R571); 0 for a good one. -/
def itemFault (b : List Nat) (nextSeq head log2 : Nat) : Nat :=
  let slots := fieldAt b 1 1
  let type := fieldAt b 0 1
  if type != 1 && type != 2 then 1
  else if slots < 1 || 16 < slots then 2
  else if fieldAt b 2 2 != nextSeq then 3
  else if 2 ^ log2 < head % 2 ^ log2 + slots then 4
  else if type == 1 && (bits (fieldAt b 5 1) 7 2 != 0 || fieldAt b 6 2 != 0 || fieldAt b 0x20 32 != 0) then 5
  else if type == 2 && (fieldAt b 4 60 != 0) then 5
  else if type == 1 && bit (fieldAt b 5 1) 0 && slots == 1 then 6
  else 0

/-- The record of an item that never became a job. -/
def itemRec (b : List Nat) (e : ChanEntry) (status round : Nat) (detail : List Nat) : Rec :=
  { bytes := recordBytes 0 status (fieldAt b 2 2) 0 0 0 (fieldAt b 0x18 8) 0 0 0 0 e.part
      (if fieldAt b 4 1 = 0xFF then e.prioDefault else min (fieldAt b 4 1) e.prioMax) 0xFFFF round detail,
    job := none, quiet := bit (fieldAt b 5 1) 1, notice := false }

/-- A bad item (R571): its record, event 0x0902, and the channel in error. -/
def State.badItem (s : State) (c : Nat) (e : ChanEntry) (b : List Nat) (reason : Nat) : State :=
  let x := s.chan c
  let s := s.addRec c (itemRec b e 8 s.rnd.round ([reason, 0] ++ leBytes 2 (fieldAt b 2 2)))
  let s := s.setChan c { s.chan c with st := .error }
  (s.hubEvent 0x0902 [(2, c), (1, reason), (2, x.nextSeq), (2, fieldAt b 2 2)]).chanErr 0x02 c e.func e.port

/-- The lowest free entry of the job table (R575). -/
def State.freeJob (s : State) : Option Nat := (List.range 4096).find? fun j => (s.job? j).isNone

/-- JOB_ARENA. -/
def State.arena (s : State) : Nat := s.pair R.jobArenaLo R.jobArenaHi

/-- A job item takes a table entry; an inline argument block goes to the arena (R569, R575, R577, R578). -/
def State.takeJob (s : State) (c j : Nat) (e : ChanEntry) (b : List Nat) : State :=
  let x := s.chan c
  let inl := bit (fieldAt b 5 1) 0
  let prio := if fieldAt b 4 1 = 0xFF then e.prioDefault else min (fieldAt b 4 1) e.prioMax
  let job := Job.fresh c (fieldAt b 2 2) e.part e.client e.func e.port prio s.rnd.round (fieldAt b 0x18 8)
    (bit (fieldAt b 5 1) 1) (fieldAt b 0x08 8) (if inl then s.arena + 1024 * j else fieldAt b 0x10 8) (inl && s.arena == 0)
  let s := { s with jobs := { s.jobs with jobs := Map.set s.jobs.jobs j job } }
  let s := s.count (R.jobClSub e.client) 1
  if inl && s.arena != 0 then
    match s.hubRead (e.slot (x.head + 1)) (64 * (fieldAt b 1 1 - 1)) with
    | (s, some blk) => s.hubWrite (s.arena + 1024 * j) (blk.take (fieldAt blk 0 4))
    | (s, none) => s
  else s

/-- One item of a channel read, if a whole one is published (R568). Answers whether one was. -/
def State.readItem (s : State) (c : Nat) (e : ChanEntry) : State × Bool :=
  let x := s.chan c
  let n := dist32 x.head x.tail
  if n = 0 || 4 ≤ x.readThisRound || x.st != .active then (s, false)
  else
    match s.hubRead (e.slot x.head) 64 with
    | (s, none) => (s, false)
    | (s, some b) =>
      let f := itemFault b x.nextSeq x.head e.sqLog2
      if f != 0 then (s.badItem c e b f, true)
      else
        let slots := fieldAt b 1 1
        if n < slots then (s, false)
        else
          let go (s : State) : State :=
            s.setChan c { s.chan c with head := (x.head + slots) % 2 ^ 32, nextSeq := (x.nextSeq + 1) % 65536, readThisRound := x.readThisRound + 1 }
          if fieldAt b 0 1 = 2 then (go s, true)
          else
            match s.freeJob with
            | none => (s.oncePerRound 0x0909 0 (·.hubEvent 0x0909 [(8, s.rnd.round)]), false)
            | some j => (go (s.takeJob c j e b), true)

/-- The hub sequencer acts: units run, it is not being reset, and the module is in Run (R99, R204). -/
def State.hubActs (s : State) : Bool := s.unitsRun && !s.jobs.paused && s.seqRuns 8

/-- The channels with published slots that may be read, in the order in which they are visited (R576). -/
def State.toVisit (s : State) : List Nat :=
  let l := Map.keysWhere s.jobs.channels fun c x => x.st == .active && x.head != x.tail && decide (x.readThisRound < 4) && s.inTable c
  (l.filter fun c => s.jobs.lastRead < c) ++ l.filter fun c => c ≤ s.jobs.lastRead

/-- READ_ITEMS: the next channel is visited, and up to four items of the round are read (R576). -/
def execReadItems (s : State) : Host.Outcome State Fault Refusal :=
  .next (if !s.hubActs then s
    else
      match s.toVisit with
      | [] => s
      | c :: _ =>
        let s := { s with jobs := { s.jobs with lastRead := c } }
        match s.useEntry c with
        | (s, none) => s
        | (s, some e) => if e.enable then (List.range 4).foldl (fun s _ => (s.readItem c e).1) s else s)

/-! ### Admission (R55 to R57, R579 to R581) -/

/-- The running count and the quota of a client. -/
def State.clientRun (s : State) (c : Nat) : Nat := s.fld (R.jobClRun c) 12 0
def State.clientQuota (s : State) (c : Nat) : Nat := s.fld (R.jobClQuota c) 12 0

/-- The job whose turn it is for admission: of the jobs read, each channel's in seq order (R579), the oldest; of the
deferred, a client's first when its count is below its quota (R581). -/
def State.mayAdmit (s : State) (j : Nat) (x : Job) : Bool :=
  match x.st with
  | .read => !(s.jobs.jobs.any fun q => q.1 != j && q.2.channel == x.channel && q.2.st == .read && q.2.older x)
  | .deferred =>
    s.clientRun x.client < s.clientQuota x.client &&
      !(s.jobs.jobs.any fun q => q.1 != j && q.2.client == x.client && q.2.st == .deferred && q.2.before x)
  | _ => false

/-- The figures of a plan header kept with an admitted job. -/
def Job.withPlan (x : Job) (h : PlanHead) : Job :=
  { x with planId := h.planId, bound := h.bound, allowance := h.allowance, leavePeak := h.leavePeak, phases := h.phases }

/-- ADMIT_JOB: the checks of R55, the quota, and the booking (R23, R56, R57, R58); a job that is readmitted counts already,
and goes on from its point (R35). -/
def execAdmitJob (job : Nat) (s : State) : Host.Outcome State Fault Refusal :=
  .next (match s.job? job with
    | none => s
    | some x =>
      if !s.hubActs || !s.mayAdmit job x || s.writesOut tagHub != 0 then s
      else
        let (s, code, head) := s.admitCheck x
        let x1 := match head with | some h => { x with planId := h.planId } | none => x
        if code != 0 then (s.modJob job fun _ => x1).endJob job 1 code []
        else
          match head with
          | none => s
          | some h =>
            let x := x.withPlan h
            if x.counted then
              s.modJob job fun _ => if x.dispatched then { x with st := .stopped } else { x with st := .admitted, claim := h.leavePeak }
            else if s.clientQuota x.client ≤ s.clientRun x.client then
              (s.modJob job fun _ => { x with st := .deferred, wasDeferred := true }).hubEvent 0x0905
                [(2, x.client), (2, x.channel), (2, x.seq)]
            else
              (s.modJob job fun _ => { x with st := .admitted, counted := true, claim := h.leavePeak }).addFld
                (R.jobClRun x.client) 12 0 1)

/-! ### Dispatch (R20, R583) -/

/-- A round boundary has just been passed; with the beacon stopped there is none. -/
def State.atBoundary (s : State) : Bool := s.rnd.running && s.rnd.turn == 0

/-- The partition takes no dispatch: a shift change changes it (R247), leave holds it (R611), or it is absent. -/
def State.noDispatch (s : State) (p : Nat) : Bool :=
  s.flag (R.pwrPart p) 25 || !s.partPresent p ||
  (match s.img.swap with
   | some sw => sw.live && bit sw.changed p && !bit sw.opened p
   | none => false)

/-- The partition's next job: an admitted or stopped one, the highest priority and then the oldest. -/
def State.nextJob (s : State) (p : Nat) : Option (Nat × Job) :=
  firstJob Job.before (s.jobsWhere fun x => x.part == p && (x.st == .admitted || x.st == .stopped))

/-- Partition `p` dispatched or resumed, if it is free and a job waits. -/
def State.dispatchPart (s : State) (p : Nat) : State :=
  if (s.holderOf p).isSome || s.noDispatch p then s
  else
    match s.nextJob p with
    | none => s
    | some (j, x) =>
      let s := { s with jobs := { s.jobs with holder := Map.set s.jobs.holder p j } }
      let s := s.modJob j fun x => { x with st := .running, dispatched := true, inPhase := false, claim := x.leavePeak, cut := false }
      (s.setFld (R.pwrPart p) 23 12 x.leavePeak).setFlag (R.pwrPart p) 24 false

/-- DISPATCH: at a round boundary, one job for each free partition (R583); none after a Ready request (R99). -/
def execDispatch (s : State) : Host.Outcome State Fault Refusal :=
  .next (if s.hubActs && s.atBoundary && s.mod.power == .run && !s.mod.readyReq then
      (List.range 16).foldl State.dispatchPart s else s)

/-! ### Phases (R59, R63 to R65, R612) -/

/-- HUB_PHASE_START: a job that holds its partition starts its next phase: the phase grant is made (R612). -/
def execHubPhaseStart (job : Nat) (s : State) : Host.Outcome State Fault Refusal :=
  .next (match s.job? job with
    | none => s
    | some x =>
      if !s.hubActs || x.st != .running || x.inPhase || s.holderOf x.part != some job then s
      else
        match s.jobPhase x with
        | none => s
        | some (_, _, p) =>
          let s := s.modJob job fun x => { x with inPhase := true, moved := [], launched := [], begun := 0, shared := 0, drained := 0 }
          s.setFld (R.pwrGrant x.part) 11 0 (if x.cut then min p.leave x.claim else p.leave))

/-- A job leaves its partition at a preemption point: it holds nothing until it resumes (R64). -/
def State.leavePart (s : State) (j : Nat) (x : Job) (st : JobSt) : State :=
  (s.freePart x.part).modJob j fun x => { x with st := st, inPhase := false }

/-- A job whose phases are over completes (R592); it has broken its bound when its charged rounds pass it with no
condition failed. -/
def State.completeJob (s : State) (j : Nat) (x : Job) : State :=
  let breach := x.voidCond == 0 && decide (x.bound < x.charged)
  let s := s.modJob j fun x => { x with breach := breach }
  let s := if breach then s.hubEvent 0x0303 [(2, x.channel), (8, x.planId), (4, x.charged), (4, x.bound)] else s
  s.endJob j 0 0 []

/-- HUB_PHASE_END: every peak has drained the phase: the job completes, stops for a higher priority, is held, or
goes on to its next phase (R34, R65, R99, R584, R585). -/
def execHubPhaseEnd (job : Nat) (s : State) : Host.Outcome State Fault Refusal :=
  .next (match s.job? job with
    | none => s
    | some x =>
      let peaks := match s.partRec x.part with | some r => maskOf r.peaks | none => 0
      if !s.hubActs || !x.inPhase || x.st != .running || x.drained != peaks then s
      else
        let point := match s.jobPhase x with | some (_, _, p) => p.point | none => false
        let s := s.grantPhase x.part 0
        let s := s.modJob job fun x => { x with inPhase := false, phase := x.phase + 1 }
        let x := { x with inPhase := false, phase := x.phase + 1 }
        if x.phases ≤ x.phase then s.completeJob job x
        else if !point then s
        else
          let held := match s.img.swap with | some sw => sw.live && bit sw.changed x.part && !bit sw.opened x.part | none => false
          if held then
            (((s.leavePart job x .held).modJob job fun x => { x with shift := true }).voidJob job 1).hubEvent 0x0207 [(1, x.part), (2, x.channel)]
          else if s.mod.readyReq then s.leavePart job x .stopped
          else
            match s.nextJob x.part with
            | some (_, w) =>
              if x.prio < w.prio && s.fld R.jobCfg 1 0 ≤ w.prio then
                ((s.leavePart job x .stopped).modJob job fun x => { x with wasStopped := true }).hubEvent 0x0906
                  [(1, x.part), (2, job), (1, w.prio)]
              else s
            | none => s)

/-! ### Records (R592 to R595) -/

/-- A record as posted: with its number's phase bit (R593). -/
def Rec.posted (r : Rec) (n cqLog2 : Nat) : List Nat := r.bytes.set 7 (if bit n cqLog2 then 0 else 1)

/-- A job whose record has been posted leaves the table, and the counts move (R575, R580, R582). -/
def State.clearJob (s : State) (j : Nat) : State :=
  match s.job? j with
  | none => s
  | some x =>
    let s := s.count (R.jobClDone x.client) 1
    let s := if x.counted then s.setFld (R.jobClRun x.client) 12 0 (s.clientRun x.client - 1) else s
    { s with jobs := { s.jobs with jobs := Map.erase s.jobs.jobs j } }

/-- POST_COMPLETION: the first written record of a channel is posted where the ring has space, otherwise it waits
(R592, R594, R595). -/
def execPostCompletion (chan : Nat) (s : State) : Host.Outcome State Fault Refusal :=
  .next (if !s.hubActs then s
    else
      match (s.chan chan).recs with
      | [] => s
      | r :: rs =>
        match s.useEntry chan with
        | (s, none) => s
        | (s, some e) =>
          let x := s.chan chan
          if 2 ^ e.cqLog2 ≤ dist32 x.cqHead x.posted then
            if x.fullNoted then s
            else (s.setChan chan { x with fullNoted := true }).hubEvent 0x090A [(2, chan), (2, x.recs.length)]
          else
            let s := s.hubWrite (e.cqAddr + 64 * (x.posted % 2 ^ e.cqLog2)) (r.posted x.posted e.cqLog2)
            let s := s.setChan chan { x with recs := rs, posted := (x.posted + 1) % 2 ^ 32, irqDue := x.irqDue || (e.irq && (r.notice || !r.quiet)) }
            match r.job with
            | some j => s.clearJob j
            | none => s)

/-! ### Priorities (R586 to R589) -/

/-- The job of a channel with a seq. -/
def State.jobOfSeq (s : State) (c q : Nat) : Option (Nat × Job) :=
  s.jobs.jobs.find? fun p => p.2.channel == c && p.2.seq == q && p.2.st != .ended

/-- The result of a priority change shown and recorded. -/
def State.prioResult (s : State) (c q old new r : Nat) : State :=
  (s.setFld R.jobPrioStatus 3 1 r).hubEvent 0x0907 [(2, c), (2, q), (1, old), (1, new), (1, r)]

/-- JOB_PRIO_CMD: a change is asked for; it is refused while an earlier one waits (R586, R589). -/
def execJobPrioCmd (v : Word) (s : State) : Host.Outcome State Fault Refusal :=
  let c := bits v.toNat 11 0
  let p := bits v.toNat 13 12
  let q := s.fld R.jobPrioSeq 15 0
  .next (if s.jobs.prioReq.isSome then s.prioResult c q 0 p 4
    else { s with jobs := { s.jobs with prioReq := some { channel := c, seq := q, prio := p } } }.setFlag R.jobPrioStatus 0 true)

/-- PRIORITY_CHANGE: at a round boundary the change that waits is applied (R586 to R589). -/
def execPriorityChange (s : State) : Host.Outcome State Fault Refusal :=
  .next (match s.jobs.prioReq with
    | none => s
    | some r =>
      if !s.hubActs || !(s.atBoundary || !s.rnd.running) then s
      else
        let s := { s with jobs := { s.jobs with prioReq := none } }.setFlag R.jobPrioStatus 0 false
        match s.jobOfSeq r.channel r.seq with
        | none => s.prioResult r.channel r.seq 0 r.prio 2
        | some (j, x) =>
          match s.useEntry r.channel with
          | (s, none) => s.prioResult r.channel r.seq x.prio r.prio 3
          | (s, some e) =>
            if e.prioMax < r.prio then s.prioResult r.channel r.seq x.prio r.prio 3
            else (s.modJob j fun y => { y with prio := r.prio }).prioResult r.channel r.seq x.prio r.prio
              (if x.st = .running then 1 else 0))

/-! ### Flushes (R598, R599) -/

/-- The items of a channel from head to the flush tail: one is completed or passed over. -/
def State.flushItem (s : State) (c tail : Nat) (e : ChanEntry) : State :=
  let x := s.chan c
  let n := dist32 x.head tail
  if n = 0 then s
  else
    let pass (s : State) : State := s.setChan c { s.chan c with head := tail }
    match s.hubRead (e.slot x.head) 64 with
    | (s, none) => pass s
    | (s, some b) =>
      if itemFault b x.nextSeq x.head e.sqLog2 != 0 then pass s
      else
        let slots := fieldAt b 1 1
        if n < slots then
          let s := s.addRec c (itemRec b e 7 s.rnd.round [n, slots])
          let s := s.setChan c { s.chan c with flushTorn := x.flushTorn + 1 }
          (pass s).hubEvent 0x0903 [(2, c), (2, fieldAt b 2 2), (1, n), (1, slots)]
        else
          let s := if fieldAt b 0 1 = 1 then
              let s := s.addRec c (itemRec b e 6 s.rnd.round [])
              s.setChan c { s.chan c with flushItems := x.flushItems + 1 }
            else s
          s.setChan c { s.chan c with head := (x.head + slots) % 2 ^ 32, nextSeq := (x.nextSeq + 1) % 65536 }

/-- FLUSH: jobs that hold no partition are completed with status 6, then the items up to the flush tail. -/
def execFlush (chan : Nat) (s : State) : Host.Outcome State Fault Refusal :=
  .next (let x := s.chan chan
    match x.flushTail with
    | none => s
    | some tail =>
      if !s.hubActs || x.st != .flushing then s
      else
        let l := (s.chanJobs chan).filter fun q => q.2.st != .running && q.2.st != .ended
        let s := l.foldl (fun s q => s.endJob q.1 6 0 []) s
        let s := s.setChan chan { s.chan chan with flushJobs := x.flushJobs + l.length }
        match s.useEntry chan with
        | (s, none) => s
        | (s, some e) => (List.range (dist32 x.head tail)).foldl (fun s _ => s.flushItem chan tail e) s)

end Sys2Proof.Machine
end

