-- ==== Sys2Proof/Machine/Cols.lean ====
section
/-! DEFINITION. Cols: slots received and replayed, sparing, degraded and failed cols, retraining (R528 to R558), and
what a home does with transactions that a failed col cut (R902). -/

namespace Sys2Proof.Machine

/-- Hop and link of a col (R135). -/
def colHop (c : Nat) : Nat × Nat := if c < 6 then (1, c) else if c < 10 then (2, c - 6) else (3, c - 10)

/-- The dies at the sending and the receiving end of a direction. -/
def colTx (c dir : Nat) : Nat := sendDie (colHop c).1 (colHop c).2 dir
def colRx (c dir : Nat) : Nat := colFar c (colTx c dir)

/-- Groups of a col and its nominal active count (R528). -/
def colGroups (c : Nat) : Nat := if c < 6 then 44 else 14
def colNominal (c : Nat) : Nat := if c < 6 then 40 else 12

/-- The register blocks that report a col: each end on a peak. -/
def colRegs (c : Nat) : List (Nat × Nat) :=
  [colEndReg c (colEnds c).1, colEndReg c (colEnds c).2].filterMap id

/-- The register block that reports a die's end: the peak end reports the whole of a hub col. -/
def colRegOf (c die : Nat) : Option (Nat × Nat) :=
  match colEndReg c die with
  | some r => some r
  | none => colEndReg c (colFar c die)

/-- A list of numbers in ascending order with one inserted. -/
def insertAsc (g : Nat) : List Nat → List Nat
  | [] => [g]
  | x :: xs => if g < x then g :: x :: xs else if g = x then x :: xs else x :: insertAsc g xs

/-- A list of numbers sorted ascending. -/
def sortAsc (l : List Nat) : List Nat := l.foldl (fun a g => insertAsc g a) []

/-- COL_END_STATE, COL_END_INSVC and the retired count at each end. -/
def State.showCol (s : State) (c : Nat) : State :=
  let x := s.col c
  let mask := maskOf (x.active ++ x.spares)
  let v := c + 16 * x.st + 2 ^ 7 * x.g + 2 ^ 13 * min 7 x.spares.length + 2 ^ 16 * (x.spares.head?).getD 0x3F + 2 ^ 22 * x.mapver
  (colRegs c).foldl (fun s r =>
    ((s.setReg (R.colEndState r.1 r.2) v).setPair (R.colEndInsvcLo r.1 r.2) (R.colEndInsvcHi r.1 r.2) mask).setFld
      (R.colEndSwap r.1 r.2) 15 8 x.retired.length) s

/-- Col `c` replaced, its registers following. -/
def State.setCol (s : State) (c : Nat) (x : ColSt) : State := (s.putCol c x).showCol c

/-- A col trains with the groups of a mask passing (R528, R553). -/
def State.trainCol (s : State) (c passing : Nat) : State :=
  let l := setBitsOf (colGroups c) passing
  if l.length < colNominal c then s.setCol c ColSt.down
  else
    let spares := l.drop (colNominal c)
    s.setCol c { ColSt.down with
      st := if spares = [] then 3 else 2, active := l.take (colNominal c), spares := spares, origin := s.absTurn }

/-- The turn of a col, counted from its training. -/
def State.colTurn (s : State) (c : Nat) : Nat := s.absTurn - (s.col c).origin

/-! ### Replacement -/

/-- The dies' cairn that records a col's events: the first end of R135. -/
def State.colEvent (s : State) (c code : Nat) (fs : List (Nat × Nat)) : State := s.event (colEnds c).1 0 code fs

/-- A retired group is retrained in the background while COL_CFG.retrain is 1 (R548). -/
def State.retire (s : State) (g : Nat) (x : ColSt) : ColSt :=
  { x with retired := insertAsc g x.retired, marks := x.marks.filter fun m => m.group != g,
           retraining := if s.flag (R.colCfg 0) 8 then insertAsc g x.retraining else x.retraining,
           d0 := { x.d0 with counts := Map.erase x.d0.counts g },
           d1 := { x.d1 with counts := Map.erase x.d1.counts g } }

/-- Group `g` leaves service and a spare takes its place (R546, R552): the highest-numbered idle spare takes an
active index; when the carrier is retired the lowest remaining spare is the carrier. -/
def State.replaceGroup (s : State) (c g cause : Nat) : State :=
  let x := s.col c
  let top := (x.spares.getLast?).getD 0x3F
  let y :=
    if x.spares.contains g then { x with spares := x.spares.filter (· != g) }
    else { x with active := x.active.map (fun a => if a = g then top else a), spares := x.spares.filter (· != top) }
  let repl := if x.spares.contains g then (y.spares.head?).getD 0x3F else top
  let thin := y.spares = [] && y.st == 2
  let y := s.retire g { y with mapver := (y.mapver + 1) % 16, st := if thin then 3 else y.st }
  let s := s.setCol c y
  let s := (colRegs c).foldl (fun s r => s.addFld (R.colEndSwap r.1 r.2) 7 0 1) s
  let s := s.colEvent c 0x0802 [(1, c), (1, g), (1, repl), (1, evCode 0x0802 cause)]
  if thin then s.colEvent c 0x0804 [(1, c)] else s

/-- A group is marked for retirement (R545). -/
def State.markGroup (s : State) (c g cause : Nat) : State :=
  let x := s.col c
  if (x.active.contains g || x.spares.contains g) && !(x.marks.any fun m => m.group == g) then
    s.putCol c { x with marks := x.marks ++ [{ group := g, cause := cause, landed := none }] }
  else s

/-- A damaged slot counted at its receiver: COL_END_DAMAGED, event 0x0801 once a round and end, and the group's
count of the round against err_limit (R538, R545). -/
def State.countDamage (s : State) (c dir g : Nat) : State :=
  let x := s.col c
  let y := x.dir dir
  let k := Map.getD y.counts g 0 + 1
  let s := s.putCol c (x.setDir dir { y with counts := Map.set y.counts g k })
  let rx := colRx c dir
  let s := match colRegOf c rx with
    | some (p, e) => s.count (R.colEndDamaged p e) 1
    | none => s
  let s := s.oncePerRound 0x0801 (2 * c + dir) (·.event rx 0 0x0801 [(1, c), (1, dir), (1, g), (2, k)])
  let lim := s.fld (R.colCfg 0) 7 0
  if lim != 0 && lim < k then s.markGroup c g 0 else s

/-- A replay of a slot arrived damaged: it is asked for again, and the third time it is exhausted: its group is
retired at once where a spare is idle, and it is replayed a fourth time (R544). -/
def State.replayDamaged (s : State) (c dir seq slot : Nat) : State :=
  let x := s.col c
  let y := x.dir dir
  let now := s.colTurn c
  match y.damaged.find? fun q => q.seq == seq && q.slot == slot with
  | none => s
  | some q =>
    let s := s.putCol c (x.setDir dir { y with damaged := y.damaged.map fun r =>
      if r = q then { r with tries := r.tries + 1, turn := now } else r })
    if q.tries + 1 = 3 then
      let s := s.event (colRx c dir) 0 0x0808 [(1, c), (1, dir), (1, q.group), (2, seq % 65536)]
      let s := if (s.col c).spares = [] then s.markGroup c q.group 2 else s.replaceGroup c q.group 2
      let x := s.col c
      let y := x.dir dir
      s.putCol c (x.setDir dir { y with due := y.due.map fun r =>
        if r.seq = seq && r.slot = slot then { r with done := false, turn := now + 1 } else r })
    else s

/-! ### Delivery (R543) -/

/-- A slot of a frame has arrived. -/
def ColDir.gotSlot (y : ColDir) (seq slot : Nat) : ColDir :=
  { y with held := y.held.map (fun f => if f.seq = seq && !f.got.contains slot then { f with got := slot :: f.got } else f),
           damaged := y.damaged.filter fun q => !(q.seq == seq && q.slot == slot) }

/-- Units from `first` on have all arrived. -/
def ColFrame.whole (f : ColFrame) (first units : Nat) : Bool :=
  (List.range units).all fun i => f.got.contains ((first + i) % f.groups)

/-- The replays in booked units of a frame that have arrived intact reach the frames they belong to (R542). -/
def ColDir.takeRides (y : ColDir) : ColDir :=
  let done := y.held.flatMap fun f => f.rides.filter fun r => f.whole r.1 25
  let y := { y with held := y.held.map fun f => { f with rides := f.rides.filter fun r => !f.whole r.1 25 } }
  done.foldl (fun y r => y.gotSlot r.2.1 r.2.2) y

/-- What one frame delivers: a message of the control lane or the floor once its units are whole, one of a drain
class while none before it in its class waits. Answers the frame left, the messages, the classes that wait. -/
def ColFrame.deliver (f : ColFrame) (stop : List Drain) : ColFrame × List HopMsg × List Drain :=
  f.msgs.foldl (fun (acc : ColFrame × List HopMsg × List Drain) p =>
    let (g, out, stop) := acc
    let free := p.msg.lane == .control || p.msg.lane == .floor
    if f.whole p.first p.units && (free || !stop.contains p.msg.drain) then (g, out ++ [p.msg], stop)
    else ({ g with msgs := g.msgs ++ [p] }, out, if free then stop else p.msg.drain :: stop))
    ({ f with msgs := [] }, [], stop)

/-- What a direction delivers, with the frame each message was in; a frame that is whole and empty is dropped. -/
def ColDir.deliver (y : ColDir) : ColDir × List (Nat × HopMsg) :=
  let r := y.held.foldl (fun (acc : List ColFrame × List (Nat × HopMsg) × List Drain) f =>
    let (g, ms, stop) := f.deliver acc.2.2
    let keep := !(g.msgs = [] && g.rides = [] && decide (f.groups ≤ g.got.length))
    ((if keep then acc.1 ++ [g] else acc.1), acc.2.1 ++ ms.map fun m => (f.seq, m), stop)) ([], [], [])
  ({ y with held := r.1 }, r.2.1)

/-- A direction delivers what it can; a message that was held is late (R543). -/
def State.deliverCol (s : State) (c dir : Nat) : State :=
  let x := s.col c
  let (y, ms) := ((x.dir dir).takeRides).deliver
  let now := s.colTurn c
  let s := s.putCol c (x.setDir dir y)
  let late := (ms.filter fun q => decide (q.1 < now)).map fun q => q.2
  s.chargeLate (colHop c).1 (colHop c).2 dir late

/-- COL_GROUP_SLOT_RECEIVE: the receiving end of a direction takes a slot of the present turn (R538 to R544). An
active group's slot may be the fourth replay of an exhausted slot; the slot it displaces is asked for again (log
entry 98). -/
def execColGroupSlotReceive (col dir : Nat) (slot : GroupSlot) (s : State) : Host.Outcome State Fault Refusal :=
  .next (s.whenRun fun s =>
    let x := s.col col
    let now := s.colTurn col
    if !x.carries then s
    else
      let ok := slot.crcOk && slot.seq == now % 65536 && slot.mapver == x.mapver
      match x.active.findIdx? (· == slot.group) with
      | some i =>
        if ok && slot.slot == i && !slot.replay then
          (s.putCol col (x.setDir dir ((x.dir dir).gotSlot now i))).deliverCol col dir
        else
          let y := x.dir dir
          let fr := y.held.find? fun f => f.seq == now
          let y := match fr with
            | some _ => { y with damaged := y.damaged ++ [{ seq := now, slot := i, group := slot.group, tries := 0, turn := now }] }
            | none => y
          let fourth := if ok && slot.slot == i && slot.replay then
              y.damaged.find? fun q => q.tries == 3 && q.seq % 65536 == slot.replaySeq && q.slot == slot.replaySlot
            else none
          match fourth with
          | some q => (s.putCol col (x.setDir dir (y.gotSlot q.seq q.slot))).deliverCol col dir
          | none =>
          let s := (s.putCol col (x.setDir dir y)).countDamage col dir slot.group
          match fr with
          | some f => (f.rides.filter fun r => (List.range 25).any fun u => (r.1 + u) % f.groups == i).foldl
              (fun s r => s.replayDamaged col dir r.2.1 r.2.2) s
          | none => s
      | none =>
        if x.spares.head? = some slot.group then
          if ok && slot.slot == 0x3F then
            if slot.replay then
              match (x.dir dir).damaged.find? fun q => q.seq % 65536 == slot.replaySeq && q.slot == slot.replaySlot with
              | some q => (s.putCol col (x.setDir dir ((x.dir dir).gotSlot q.seq q.slot))).deliverCol col dir
              | none => s
            else s
          else
            let s := s.countDamage col dir slot.group
            match (x.dir dir).due.find? fun r => r.done && r.turn == now with
            | some r => s.replayDamaged col dir r.seq r.slot
            | none => s
        else s)

/-- COL_NAK_RECEIVE: the sender schedules the replay for turn t + 3, t being the turn of the damage or of the
damaged replay; a second Nak changes nothing (R539, R540, R544). -/
def execColNakReceive (col dir seq slot : Nat) (s : State) : Host.Outcome State Fault Refusal :=
  .next (s.whenRun fun s =>
    let x := s.col col
    let y := x.dir dir
    let now := s.colTurn col
    match y.sent.find? fun f => f.seq % 65536 == seq with
    | none => s
    | some f =>
      if f.groups ≤ slot then s
      else
        match y.due.find? fun r => r.seq == f.seq && r.slot == slot with
        | none =>
          s.putCol col (x.setDir dir { y with due := y.due ++ [{ seq := f.seq, slot := slot, turn := max (f.seq + 3) (now + 1), done := false }] })
        | some r =>
          if r.done && decide (r.turn < now) then
            s.putCol col (x.setDir dir { y with due := y.due.map fun q =>
              if q = r then { q with turn := max (r.turn + 3) (now + 1), done := false } else q })
          else s)

/-- COL_CREDIT_RETURN: the returns of a credit slot, channel and count, reach the sender of a direction (R535). -/
def execColCreditReturn (col dir : Nat) (returns : List (Nat × Nat)) (s : State) : Host.Outcome State Fault Refusal :=
  .next (s.whenRun fun s =>
    let x := s.col col
    let y := x.dir dir
    s.putCol col (x.setDir dir { y with credits := returns.foldl (fun t r =>
      if r.2 = 0 then t else Map.set t r.1 (min 256 (Map.getD t r.1 256 + r.2))) y.credits }))

/-- COL_LOCK_LOSS: a group's lanes have lost lock for 2 turns (R545). -/
def execColLockLoss (col group : Nat) (s : State) : Host.Outcome State Fault Refusal :=
  .next (s.whenRun fun s => if (s.col col).carries then s.markGroup col group 1 else s)

/-- COL_RETIRE_MESSAGE: the retire message of a marked group lands (R545, R546). -/
def execColRetireMessage (col group : Nat) (s : State) : Host.Outcome State Fault Refusal :=
  .next (s.whenRun fun s =>
    let x := s.col col
    s.putCol col { x with marks := x.marks.map fun m =>
      if m.group = group && m.landed.isNone then { m with landed := some s.absTurn } else m })

/-- The marks whose retirement is due at the round boundary that has just been passed (R546). -/
def State.dueMarks (s : State) (c : Nat) : List RetireMark :=
  if s.rnd.turn = 0 && s.rnd.running && (s.col c).carries then
    (s.col c).marks.filter fun m => match m.landed with
      | some t => decide (t + 4 ≤ s.rnd.round * 128)
      | none => false
  else []

/-- Retirements due are carried out while spares remain (R546). -/
def State.replaceDue (s : State) (c : Nat) : State :=
  (s.dueMarks c).foldl (fun s m => if (s.col c).spares = [] then s else s.replaceGroup c m.group m.cause) s

/-- COL_SPARE_REPLACE: at a round boundary both ends put spares into service (R546, R552). -/
def execColSpareReplace (col : Nat) (s : State) : Host.Outcome State Fault Refusal :=
  .next (s.whenRun fun s => s.replaceDue col)

/-- COL_DEGRADE: a retirement is due and no spare is idle: the index is dropped, the others are renumbered, and a
col fault is reported (R549, R555). A col of seven groups does not degrade further (R550). -/
def execColDegrade (col : Nat) (s : State) : Host.Outcome State Fault Refusal :=
  .next (s.whenRun fun s =>
    let x := s.col col
    match s.dueMarks col with
    | m :: _ =>
      if x.spares = [] && x.active.contains m.group && decide (7 < x.g) then
        let y := s.retire m.group { x with active := sortAsc (x.active.filter (· != m.group)), mapver := (x.mapver + 1) % 16, st := 4 }
        let s := (s.setCol col y).colEvent col 0x0805 [(1, col), (1, y.g)]
        s.notice { kind := 7, code := 0x0805, die := (colEnds col).1, unit := 2 * col, parts := s.partsOnCol col,
                   round := s.rnd.round, half := 0, line := 0 }
      else s
    | [] => s)

/-! ### Failed cols (R550, R556, R557, R902) -/

/-- A message between agents crosses a col. -/
def CohMsg.crossesCol (m : CohMsg) (c : Nat) : Bool := (route m.src.die m.dst.die).contains c

/-- Messages of the protocol that a col's failure discards, and those it leaves waiting beyond it: in flight, or in
an arbiter. -/
def State.cutMsgs (s : State) (c : Nat) : List (Nat × CohMsg) :=
  s.mem.net.filter fun q => (q.2.stage == .sent || q.2.stage == .nacked || q.2.stage == .waiting) && q.2.crossesCol c

/-- The partitions whose requesters can no longer be answered. -/
def State.cutParts (s : State) (l : List (Nat × CohMsg)) : Nat :=
  l.foldl (fun m q =>
    let a := match q.2.kind with
      | .data | .grant | .putAck | .wrAck | .atomRsp | .doneAck => q.2.dst
      | _ => q.2.src
    match q.2.kind with
    | .invAck | .fwdAck | .done | .invS | .fwdS | .fwdM | .fwdR | .recall | .release | .copy => m
    | _ => if s.agentPart a < 16 then m ||| 2 ^ s.agentPart a else m) 0

/-- A col fails: what it held is discarded and counted (R550, R556). Answers the partitions whose requesters can no longer
be answered. -/
def State.dropCol (s : State) (c cause : Nat) : State × Nat :=
  let x := s.col c
  let (hop, link) := colHop c
  let atDir (d : Nat) : Nat := (s.waitingAt (hopKey hop link d)).length + (((x.dir d).held.map fun f => f.msgs.length).sum)
  let cut := s.cutMsgs c
  let flying := cut.filter fun q => q.2.stage != .waiting
  let from0 := (flying.filter fun q => enterDie q.2.src.die (route q.2.src.die q.2.dst.die) c == colTx c 0).length
  let n0 := atDir 0 + from0
  let n1 := atDir 1 + (flying.length - from0)
  let parts := s.cutParts cut
  let s := (s.lostAt c (colTx c 0) n0).lostAt c (colTx c 1) n1
  let s := (s.setWaiting (hopKey hop link 0) []).setWaiting (hopKey hop link 1) []
  let s := s.setCol c { x with st := 5, active := [], spares := [], marks := [], retraining := [], d0 := .empty, d1 := .empty }
  let s := { s with flt := { s.flt with colsFailed := putBit s.flt.colsFailed c true } }
  let s := cut.foldl (fun s q => s.setMsg q.1 { q.2 with stage := .lost }) s
  (s.colEvent c 0x0806 [(1, c), (1, evCode 0x0806 cause), (4, n0 + n1)], parts)

/-- The faults of the partitions whose requesters a failed col cuts off (R902). -/
def State.cutFault (s : State) (c parts : Nat) : State :=
  if parts = 0 then s
  else s.notice { kind := 8, code := 0x0806, die := (colEnds c).1, unit := 2 * c, parts := parts,
                  round := s.rnd.round, half := 0, line := 1 }

/-- A col fails, and the fault is reported: causes 0 too few groups, 1 lock. -/
def State.failCol (s : State) (c cause : Nat) : State :=
  let (s, parts) := s.dropCol c cause
  let s := s.notice { kind := 8, code := 0x0806, die := (colEnds c).1, unit := 2 * c, parts := s.partsOnCol c,
                      round := s.rnd.round, half := 0, line := 0 }
  s.cutFault c parts

/-- COL_FAIL: every group has lost lock for 16 turns (`lock`), or a retirement is due that would leave fewer than
7 groups (R550). -/
def execColFail (col : Nat) (lock : Bool) (s : State) : Host.Outcome State Fault Refusal :=
  .next (s.whenRun fun s =>
    let x := s.col col
    if !x.carries then s
    else if lock then s.failCol col 1
    else if x.spares = [] && decide (x.g ≤ 7) && !(s.dueMarks col).isEmpty then s.failCol col 0
    else s)

/-- The message due from a core was due from a holder in E, M or O. -/
def State.ownedLine (s : State) (line : Nat) : Bool :=
  match s.dirEntry line with
  | some e => e.st == .em || e.st == .o
  | none => false

/-- A home takes an acknowledgement that core `k` owes its transaction on a line as received (R902). -/
def State.takeAck (s : State) (line k : Nat) : State :=
  match Map.get? s.mem.txns line with
  | none => s
  | some t =>
    let n := s.mem.nextMsg
    if t.invDue.contains k then s.onInvAck t.home n (CohMsg.mk0 .invAck (.core k) (.home t.home) line)
    else if t.fwdDue = some k then
      let s := if s.ownedLine line then s.poisonLine line else s
      s.onFwdAck t.home n (CohMsg.mk0 .fwdAck (.core k) (.home t.home) line)
    else s

/-- A home takes the Done that an agent owes as received. -/
def State.takeDone (s : State) (line : Nat) (a : Agent) : State :=
  match a, Map.get? s.mem.txns line with
  | .core k, some t =>
    if t.doneDue.any fun d => d.1 == k && !t.doneGot.contains k then
      s.onDone t.home s.mem.nextMsg (CohMsg.mk0 .done (.core k) (.home t.home) line)
    else s
  | _, _ => s

/-- One message that a failed col cut is accounted for at the home of its line (R902). -/
def State.endCut (s : State) (n : Nat) (m : CohMsg) : State :=
  let s := s.unpost n
  match m.kind with
  | .invS | .fwdS | .fwdM | .recall =>
    let s := match m.dst with | .core k => s.takeAck m.line k | _ => s
    m.reqs.foldl (fun s r => s.takeDone m.line r.1) s
  | .fwdR =>
    match m.dst with
    | .core k => { s with mem := { s.mem with fwdrOut := dropPair s.mem.fwdrOut (m.line, k) } }
    | _ => s
  | .data | .grant =>
    let s := match m.src with | .core _ => s.poisonLine m.line | _ => s
    s.takeDone m.line m.dst
  | .invAck | .fwdAck =>
    if m.confirm then { s with mem := { s.mem with fwdrOut := dropPair s.mem.fwdrOut (m.line, m.src.key) } }
    else s.takeAck m.line m.src.key
  | .done => s.takeDone m.line m.src
  | .wrAck => match m.dst with | .engine _ => s.onWrAck n m | _ => s
  | .getS | .getM | .upg | .fill | .putM | .putE | .putF | .rdNC | .wrNC | .atom =>
    match m.dst with
    | .home h => s.setArb h ((s.arbOf h).filter (· != n))
    | _ => s
  | _ => s

/-- Each home ends the transactions that failed cols have cut; event 0x1208 once a round and home (R902). -/
def State.endCuts (s : State) : State :=
  let cut := s.mem.net.filter fun q => q.2.stage == .lost
  let homes := (List.range 16).filter fun h => cut.any fun q => s.homeOf q.2.line == h
  let lines (h : Nat) : Nat := ((cut.filter fun q => s.homeOf q.2.line == h).map fun q => q.2.line).eraseDups.length
  let colOf (h : Nat) : Nat :=
    match cut.find? fun q => s.homeOf q.2.line == h with
    | some q => ((route q.2.src.die q.2.dst.die).find? (bit s.flt.colsFailed)).getD 0xFF
    | none => 0xFF
  let told := homes.foldl (fun s h => s.oncePerRound 0x1208 h (·.halfEvent h 0x1208 [(1, h), (1, colOf h), (2, lines h)])) s
  cut.foldl (fun s q => s.endCut q.1 q.2) told

/-! ### Retraining (R548) -/

/-- COL_RETRAIN_DONE: a group passes and becomes a spare, or stays retired. A degraded col stays degraded (log
entry 47). -/
def execColRetrainDone (col group : Nat) (pass : Bool) (s : State) : Host.Outcome State Fault Refusal :=
  .next (s.whenRun fun s =>
    let x := s.col col
    if !x.retraining.contains group || !x.carries then s
    else
      let y := { x with retraining := x.retraining.filter (· != group) }
      if pass then
        (s.setCol col { y with retired := y.retired.filter (· != group), spares := insertAsc group y.spares,
                               st := if y.st = 3 then 2 else y.st }).colEvent col 0x0803 [(1, col), (1, group)]
      else s.putCol col y)

/-- Every retired group of a peak's col ends is retrained once. -/
def State.retrainPeak (s : State) (peak : Nat) : State :=
  (colsOf peak).foldl (fun s c =>
    let x := s.col c
    if x.carries then s.putCol c { x with retraining := x.retired } else s) s

/-- COL_CTL_RETRAIN: a write of COL_CTL.retrain at a peak. -/
def execColCtlRetrain (peak : Nat) (s : State) : Host.Outcome State Fault Refusal :=
  .next (s.whenRun fun s => s.retrainPeak peak)

end Sys2Proof.Machine
end

