-- ==== Sys2Proof/Machine/Peak.lean ====
section
/-! DEFINITION. Core maps, self-tests, and the peak commands that start a phase, launch tiles, drain, deliver shares, and
serve col ends (R260 to R275, R613, R633, R663). -/

namespace Sys2Proof.Machine

/-! ### Core maps (R261 to R268, R291) -/

/-- Physical core `k` of half `h` is good (R261). -/
def State.coreGood (s : State) (h k : Nat) : Bool :=
  !(bit (Map.getD s.fuse.coreBad h 0) k || bit (Map.getD s.cor.rowBad h 0) k || bit (Map.getD s.cor.failed h 0) k ||
    bit (s.reg (R.corRetire h (k / 32))) (k % 32))

/-- The reserve mode: fixed-count while no image is committed (R234). -/
def State.maxCount (s : State) : Bool := match s.img.committed with | some im => im.maxCount | none => false

/-- The first member of a pool and the rest. -/
def takePool : List Nat → Nat × List Nat
  | [] => (0xFF, [])
  | x :: xs => (x, xs)

/-- The fixed-count map of a half (R264): the physical cores of logical 0 to n - 1. -/
def fixedMap (good : Nat → Bool) : List Nat :=
  let count := ((List.range 72).filter good).length
  let n := min 64 count
  let reserves := ((List.range 8).map fun r => 9 * r + 8).filter good
  let spare := (((List.range 72).filter fun w => w % 9 != 8 && good w && decide (n ≤ 8 * (w / 9) + w % 9))).reverse
  ((List.range n).foldl (fun (acc : List Nat × List Nat) l =>
    let w := 9 * (l / 8) + l % 8
    if good w then (acc.1 ++ [w], acc.2)
    else
      let p := takePool acc.2
      (acc.1 ++ [p.1], p.2)) ([], reserves ++ spare)).1

/-- The core map of a half: fixed-count (R264) or max-count (R265). -/
def State.computeMap (s : State) (h : Nat) : List Nat :=
  if s.maxCount then (List.range 72).filter (s.coreGood h) else fixedMap (s.coreGood h)

/-- The map as COR_MAP words. -/
def mapWord (m : List Nat) (i : Nat) : Nat := leVal ((List.range 4).map fun k => m.getD (4 * i + k) 0xFF)

/-- COR_GOOD and COR_COUNT.good follow the goodness of a half. -/
def State.showGood (s : State) (h : Nat) : State :=
  let mask := maskOf ((List.range 72).filter (s.coreGood h))
  let s := (List.range 3).foldl (fun s j => s.setReg (R.corGood h j) (mask / 2 ^ (32 * j) % 2 ^ 32)) s
  s.setFld (R.corCount h) 14 8 (popCount 72 mask)

/-- The map of a half applied: 0x0403 when it changes, 0x0404 when a fixed-count half falls below 64, 0x0406 for
each core that only the retire mask makes bad (R266, R268, R291). Causes: 0 boot, 1 commit, 2 failure. -/
def State.applyMap (s : State) (h cause : Nat) : State :=
  let m := s.computeMap h
  let old := (List.range 18).map fun i => s.reg (R.corMap h i)
  let new := (List.range 18).map (mapWord m)
  let was := s.fld (R.corCount h) 6 0
  let s := (List.range 18).foldl (fun s i => s.setReg (R.corMap h i) (mapWord m i)) s
  let s := ((s.setFld (R.corCount h) 6 0 m.length).setFlag (R.corCount h) 15 false).showGood h
  let s := s.setFld (R.corInfo (h / 2)) (if h % 2 = 0 then 14 else 22) (if h % 2 = 0 then 8 else 16) m.length
  let s := { s with cor := { s.cor with mapPending := s.cor.mapPending.filter (· != h) } }
  let s := if old = new then s else s.halfEvent h 0x0403 [(1, h), (1, m.length), (1, evCode 0x0403 cause)]
  let s := if !s.maxCount && m.length < 64 && (64 ≤ was || was = 0) then s.halfEvent h 0x0404 [(1, h), (1, m.length)] else s
  let masked := (List.range 72).filter fun k => bit (s.reg (R.corRetire h (k / 32))) (k % 32) &&
    !(bit (Map.getD s.fuse.coreBad h 0) k || bit (Map.getD s.cor.rowBad h 0) k || bit (Map.getD s.cor.failed h 0) k)
  if cause = 2 then s else masked.foldl (fun s k => s.halfEvent h 0x0406 [(1, h), (1, k)]) s

/-- A half's map computed after a failure at run time: it waits for the phase boundary of the job that holds the
half's partition, or applies at once (R267). -/
def State.remapHalf (s : State) (h : Nat) : State :=
  let s := s.showGood h
  match (s.partOfHalf h).bind s.holderOf with
  | some _ =>
    let s := { s with cor := { s.cor with mapPending := insertAsc h s.cor.mapPending } }
    s.setFlag (R.corCount h) 15 true
  | none => s.applyMap h 2

/-- CORE_REMAP: the peak command that computes the core maps of its halves, those that changed (R266, R267). -/
def execCoreRemap (peak : Nat) (s : State) : Host.Outcome State Fault Refusal :=
  .next (s.whenSeq peak fun s =>
    [2 * peak, 2 * peak + 1].foldl (fun s h =>
      if (List.range 18).map (mapWord (s.computeMap h)) = (List.range 18).map (fun i => s.reg (R.corMap h i)) then s.showGood h
      else s.remapHalf h) s)

/-! ### Self-test (R188, R633, R635) -/

/-- Results of a self-test: row tests, V_cal, and where the rail starts. -/
def State.selfTested (s : State) (peak : Nat) (t : SelfTest) : State :=
  let half (s : State) (h bad vcal : Nat) : State :=
    let s := { s with cor := { s.cor with rowBad := Map.set s.cor.rowBad h (bad % 2 ^ 72), failed := Map.erase s.cor.failed h } }
    let v := min 850 (max 650 (vcal / 5 * 5))
    let v0 := Map.getD s.fuse.vcal0 h 750
    let s := (s.setFld (R.govRail h) 9 0 v).setFld (R.govRail h) 19 10 v
    let s := s.setReg (R.govWear h) (v0 % 1024 + 1024 * (v - v0))
    let s := if 60 < v - v0 then (s.halfEvent h 0x0A07 [(1, h), (2, v - v0)]).setFlag R.pwrEvent 4 true else s
    let fuse := Map.getD s.fuse.coreBad h 0
    ((List.range 72).filter fun k => bit fuse k || bit bad k).foldl (fun s k =>
      s.halfEvent h 0x0401 [(1, h), (1, k), (1, if bit fuse k then 0 else 1)]) s
  half (half s (2 * peak) t.badA t.vcalA) (2 * peak + 1) t.badB t.vcalB

/-- State of a peak (GLB_PEAK_STATE). -/
def State.peakSt (s : State) (n : Nat) : Nat := s.fld R.glbPeakState (4 * n + 3) (4 * n)

/-- State of a peak made `v`. -/
def State.setPeakSt (s : State) (n v : Nat) : State := s.setFld R.glbPeakState (4 * n + 3) (4 * n) v

/-- SELF_TEST: the peak command that runs the row test and the calibration, with their results: in a boot, after
which the peak receives its microcode (R188), or while the units run. -/
def execSelfTest (peak : Nat) (test : SelfTest) (s : State) : Host.Outcome State Fault Refusal :=
  .next (if s.boot.running && (s.peakSt peak == 1 || s.peakSt peak == 2 || s.peakSt peak == 5) then
      (s.selfTested peak test).setPeakSt peak 3
    else s.whenSeq peak fun s => s.selfTested peak test)

/-! ### Phases in a peak (R269, R329, R345, R612, R613) -/

/-- The halves of a job's partition on a peak, with their logical numbers. -/
def State.jobHalves (s : State) (x : Job) (peak : Nat) : List (Nat × Nat) :=
  match s.partRec x.part with
  | some r => (r.halves.zipIdx).filter fun q => q.1 / 2 == peak
  | none => []

/-- A core takes a split: its L1 is written back and invalidated when the split changes (R269). -/
def State.takeSplit (s : State) (k sel : Nat) : State :=
  if (s.l1 k).split = sel then s else
    let s := s.flushL1 k
    s.setL1 k { s.l1 k with split := sel }

/-- A half starts a phase: pending map, split, read-only caches, array, and the settings taken at a phase start. -/
def State.beginHalf (s : State) (h sel : Nat) : State :=
  let s := if s.cor.mapPending.contains h then s.applyMap h 2 else s
  let s := State.settle 64 s
  let s := (List.range 72).foldl (fun s c => s.takeSplit (coreKey h c) sel) s
  let clean (k : Nat) (c : Core) : Core := if ofHalf h k then { c with constLines := [], descLines := [] } else c
  let isa := s.reg (R.corIsaCfg (h / 2)) % 32
  let s := { s with cor := { s.cor with cores := Map.mapVals s.cor.cores clean, isa := Map.set s.cor.isa h isa } }
  (s.setFld (R.corResident h) 18 16 sel).phaseArray h

/-- A job that runs a phase in its partition. -/
def State.phaseJob (s : State) (j : Nat) : Option Job :=
  match s.job? j with
  | some x => if x.inPhase && x.st == .running && s.holderOf x.part == some j then some x else none
  | none => none

/-- PEAK_PHASE_START: the peak's halves of a job's partition take the phase's split and the new map, and invalidate
their read-only caches. -/
def execPeakPhaseStart (peak job : Nat) (s : State) : Host.Outcome State Fault Refusal :=
  .next (s.whenSeq peak fun s =>
    match s.phaseJob job with
    | none => s
    | some x =>
      if bit x.begun peak then s
      else
        match s.jobPhase x with
        | none => s
        | some (h, _, p) =>
          let s := (s.jobHalves x peak).foldl (fun s q => s.beginHalf q.1 (p.l1 h)) s
          s.modJob job fun x => { x with begun := putBit x.begun peak true })

/-- SHARE_UPDATE: the governors of the peak's halves get their shares of the phase grant (R613). -/
def execShareUpdate (peak job : Nat) (s : State) : Host.Outcome State Fault Refusal :=
  .next (s.whenSeq peak fun s =>
    match s.phaseJob job with
    | none => s
    | some x =>
      let n := match s.partRec x.part with | some r => r.halves.length | none => 1
      let g := s.fld (R.pwrGrant x.part) 11 0
      let s := (s.jobHalves x peak).foldl (fun s q => s.setFld (R.govShare q.1) 11 0 (shareSplit g n q.2)) s
      s.modJob job fun x => { x with shared := putBit x.shared peak true })

/-! ### Launch (R50, R270 to R275, R893, R894) -/

/-- The logical core a tile runs on: moved by replay, or wrapped into the half's count (R894). -/
def State.tileCore (s : State) (x : Job) (h i : Nat) (t : TileEnt) : Nat :=
  match Map.get? x.moved i with
  | some c => c
  | none =>
    let n := s.fld (R.corCount h) 6 0
    if n ≤ t.core && n != 0 then t.core % n else t.core

/-- The tiles of a phase that run on a core and have not been launched, in their order: those that name it, then
those moved to it. -/
def State.waitingTiles (s : State) (x : Job) (h lh core : Nat) (ts : List TileEnt) : List (Nat × TileEnt) :=
  let l := (ts.zipIdx.map fun q => (q.2, q.1)).filter fun q =>
    q.2.half == lh && !x.launched.contains q.1 && s.tileCore x h q.1 q.2 == core
  (l.filter fun q => (Map.get? x.moved q.1).isNone) ++ l.filter fun q => (Map.get? x.moved q.1).isSome

/-- The lowest-numbered free group slots of a core (R270). -/
def Core.freeSlots (c : Core) (n : Nat) : List Nat :=
  ((List.range 64).filter fun k => (Map.get? c.groups k).isNone).take n

/-- A group at launch: its registers read zero (R272). -/
def Group.fresh (regs block gidx order : Nat) : Group :=
  { regsPer := regs, regs := [], preds := [], pc := 0, mask := 2 ^ 32 - 1, rpc := 0xFFFFFFFF, stack := [], exited := 0,
    gprog := [], block := block, gidx := gidx, wait := .ready, memop := none, trap := none, pendRegs := [],
    pendPreds := [], pathPending := false, unconf := [], ckpt := none, savedRows := [], window := [], replay := [],
    tilesOut := 0, storesOut := 0, order := order, faultRound := 0, faultTimeout := 0 }

/-- A tile placed on a core. -/
def State.launchTile (s : State) (j : Nat) (x : Job) (h lh core i : Nat) (t : TileEnt) (head : PlanHead) (p : PhaseEnt) : State :=
  let c := s.core h core
  let slots := c.freeSlots t.groups
  let b := (slots.head?).getD 0
  let isa := Map.getD s.cor.isa h 0
  let blk : Blk :=
    { job := j, part := x.part, phase := x.phase, lhalf := lh, pcore := (s.physOf h core).getD 127, tidx := i, gcnt := t.groups,
      param := t.param, argBase := x.argBase, argLen := 16 + 16 * head.args, kernel := x.planAddr + p.kernelOff,
      kernelLen := p.kernelLen, window := t.groups * p.lstore * 256, ls := [], ring := bit head.flags 0, sys := bit head.flags 1,
      shadow := p.shadow head == 1, fpTrap := isa % 16, brkHalt := bit isa 4, arrived := [] }
  let gs := (slots.zipIdx).foldl (fun g q => Map.set g q.1 (Group.fresh p.regs b q.2 (s.cor.launches + q.2))) c.groups
  let s := s.setCore h core { c with groups := gs, blocks := Map.set c.blocks b blk }
  let s := { s with cor := { s.cor with launches := s.cor.launches + t.groups } }
  s.modJob j fun x => { x with launched := i :: x.launched }

/-- TILE_LAUNCH: the next tile of the phase for a logical core of a half is launched when its groups fit beside those
resident and the core's draw is granted (R50, R270, R614). -/
def execTileLaunch (half core : Nat) (s : State) : Host.Outcome State Fault Refusal :=
  .next (s.whenSeq (half / 2) fun s =>
    match (s.partOfHalf half).bind s.holderOf with
    | none => s
    | some j =>
      match s.phaseJob j with
      | none => s
      | some x =>
        if !bit x.begun (half / 2) || !bit x.shared (half / 2) || !((s.physOf half core).any (s.coreGood half)) then s
        else
          match s.jobPhase x with
          | none => s
          | some (head, b, p) =>
            let lh := s.logicalHalf half
            match s.waitingTiles x half lh core (phaseTiles b p) with
            | [] => s
            | (i, t) :: _ =>
              if p.groupsMax < (s.core half core).groups.length + t.groups then s
              else
                let s := if (s.drawsOf half).any fun d => d.unit == core then s else s.requestDraw half core 1
                if s.drawGranted half core then s.launchTile j x half lh core i t head p else s)

/-- PHASE_DRAIN: on a peak every tile of the phase has been launched and has ended, its array tiles too, and every
write is visible at device scope (R59). -/
def execPhaseDrain (peak job : Nat) (s : State) : Host.Outcome State Fault Refusal :=
  .next (s.whenSeq peak fun s =>
    match s.phaseJob job with
    | none => s
    | some x =>
      match s.jobPhase x with
      | none => s
      | some (_, b, p) =>
        let hs := s.jobHalves x peak
        let idle (h : Nat) : Bool :=
          (s.cor.cores.all fun q => !ofHalf h q.1 || q.2.blocks.isEmpty) && (s.array h).queue.isEmpty && (s.array h).running.isEmpty &&
          !(s.mem.net.any fun q => q.2.src.half? == some h && (q.2.kind == .wrNC || q.2.kind == .atom)) &&
          s.mem.l1.all (fun q => !ofHalf h q.1 || q.2.opens.all fun o => o.2.isEmpty)
        let launched := (phaseTiles b p).zipIdx.all fun t =>
          x.launched.contains t.2 || !(hs.any fun q => q.2 == t.1.half)
        if bit x.begun peak && launched && hs.all (fun q => idle q.1) then
          s.modJob job fun x => { x with drained := putBit x.drained peak true }
        else s)

/-! ### Resets and col ends -/

/-- The halves of a partition. -/
def State.halvesOf (s : State) (p : Nat) : List Nat := match s.partRec p with | some r => r.halves | none => []

/-- PEAK_PARTITION_RESET: the cores, L1s and local store of a partition's halves on the peak (R203). -/
def execPeakPartitionReset (peak part : Nat) (s : State) : Host.Outcome State Fault Refusal :=
  .next (s.whenSeq peak fun s =>
    if s.boot.active.any fun r => r.kind == 3 && r.target == part then
      s.resetHalves ((s.halvesOf part).filter fun h => h / 2 == peak)
    else s)

/-- COL_RETIRE_REPLACE: the peak command that carries out the retirements due at its col ends (R546). -/
def execColRetireReplace (peak : Nat) (s : State) : Host.Outcome State Fault Refusal :=
  .next (s.whenSeq peak fun s => (colsOf peak).foldl State.replaceDue s)

/-- COL_RETRAIN: the peak command that retrains the retired groups of its cols (R548). -/
def execColRetrain (peak : Nat) (s : State) : Host.Outcome State Fault Refusal :=
  .next (s.whenSeq peak fun s => s.retrainPeak peak)

end Sys2Proof.Machine
end

