-- ==== Sys2Proof/Machine/Cairn.lean ====
section
/-! DEFINITION. Cairns, snapshots and the faceplate (R849 to R884); readouts' commands are in Machine/Readout.lean. -/

namespace Sys2Proof.Machine

/-! ### Entries and snapshots -/

/-- The 32 bytes of an entry (R850). -/
def CairnEntry.bytes (e : CairnEntry) : List Nat :=
  leBytes 2 e.code ++ [e.source, e.flags] ++ leBytes 4 e.uctx ++ leBytes 8 e.time ++ padTo 16 e.payload

/-- Entries a region of the snapshot holds. -/
def regionBase (d : Nat) : Nat := if d = 8 then 0x1000 else 0x81000 + d * 0x20000

/-- A die is on: the hub, or a peak that is up (R863). -/
def State.dieOn (s : State) (d : Nat) : Bool :=
  d == 8 || (let st := bits (s.reg R.glbPeakState) (4 * d + 3) (4 * d); st == 4 || st == 9)

/-- GLB_SERIAL, fused. -/
def State.serial (s : State) : Nat := s.fuse.serial

/-- The code of a power state in GLB_PSTATE. -/
def PowerState.code : PowerState → Nat
  | .off => 0 | .standby => 1 | .ready => 2 | .run => 3

/-- A snapshot written into its slot: regions, header, magic last, and the mark cleared (R862, R863). -/
def State.writeSnapshot (s : State) (sn : Snapshot) : State :=
  let base := snapBase sn.slot
  let on := (List.range 9).filter s.dieOn
  let m := Mem.clear (Mem.clear s.store.mem base (base + 0x100)) (base + 0x1000) (base + 0x181000)
  let m := on.foldl (fun m d =>
    Mem.writeBytes m (base + regionBase d) ((s.cairn d).entries.flatMap CairnEntry.bytes)) m
  let crc := crc32 (Mem.readBytes m (base + 0x1000) 0x180000)
  let head := leBytes 4 0x504E5343 ++ leBytes 2 1 ++ leBytes 2 256 ++ leBytes 4 sn.number ++ leBytes 2 sn.code ++
    leBytes 2 sn.triggers ++ leBytes 8 sn.round ++ leBytes 8 sn.us ++ leBytes 8 s.serial ++
    leBytes 8 (match s.img.committed with | some im => im.id | none => 0) ++ leBytes 2 (s.fld R.seqLevel 15 0) ++
    leBytes 2 (maskOf on) ++ leBytes 1 s.mod.power.code ++ [0, 0, 0] ++ leBytes 4 crc ++ leBytes 4 0 ++
    (List.range 9).flatMap (fun d => leBytes 4 (if on.contains d then (s.cairn d).entries.length else 0)) ++
    (List.range 9).flatMap (fun d => leBytes 4 (s.reg (R.crnCnt d)))
  let head := padTo 0xFC head
  let m := Mem.writeBytes m base (head ++ leBytes 4 (crc32 head))
  let m := Mem.writeLE m 0x000F1004 4 0
  { s with store := { s.store with mem := m } }

/-- The cairns thaw (R860, R864): 0x1102 first in the hub's, 0x1103 in each with its count. -/
def State.thaw (s : State) (sn : Snapshot) : State :=
  let s := { s with crn := { s.crn with snap := none } }
  let s := (s.setFlag R.crnStatus 0 false).setFlag R.crnStatus 1 false
  let s := s.slowEvent 0x1102 [(1, sn.slot), (4, sn.number), (2, s.mod.islandUs - sn.us)]
  (List.range 9).foldl (fun s d =>
    let c := s.cairn d
    let s := s.setCairn d { c with frozenDrop := 0 }
    s.offer d (s.entry d 0 0x1103 0 false [(1, d), (4, c.frozenDrop)]) true) s

/-- CRN_FREEZE_CMD: a write of 1 to CRN_CTL.freeze; its trigger has no event of its own (R863). -/
def execCrnFreezeCmd (s : State) : Host.Outcome State Fault Refusal := .next (s.freeze 4 0x1101)

/-- CRN_PIN_WRITE: slots pinned, unless the value would pin more than 7 (R866). -/
def execCrnPinWrite (v : Word) (s : State) : Host.Outcome State Fault Refusal :=
  let p := v.toNat % 256
  .next (if 7 < popCount 8 p then s.hubEvent 0x1109 [(1, p)] else s.setFld R.crnPin 7 0 p)

/-- The word `k` of 32 latched bytes. -/
def wordOf (l : List Nat) (k : Nat) : Nat := leVal ((l.drop (4 * k)).take 4)

/-- CAIRN_RD_LATCH: a read of CRN_RD_DATA_0 latches the entry that CRN_RD_SEL names, zeros where there is none,
and returns its word 0 (R868). -/
def execCairnRdLatch (s : State) : Host.Outcome State Fault Refusal :=
  let c := s.cairn (s.fld R.crnRdSel 4 0)
  let b := match c.entries[s.fld R.crnRdSel 29 16]? with
    | some e => if s.fld R.crnRdSel 4 0 < 9 then e.bytes else List.replicate 32 0
    | none => List.replicate 32 0
  let s := { s with crn := { s.crn with latched := b } }
  .next { (List.range 8).foldl (fun s k => s.setReg (R.crnRdData k) (wordOf b k)) s with answer := wordOf b 0 }

/-! ### Readouts -/

/-- The entry that a live readout sends as number `i`: as it was at the start, 32 zeros once the cairn has overwritten it
(R870). -/
def State.liveEntry (s : State) (r : Readout) (i : Nat) : Option (List Nat) :=
  let c := s.cairn r.source
  let gone := s.reg (R.crnCnt r.source) - r.start + r.total - c.entries.length
  if i < gone then none else (c.entries[i - gone]?).map CairnEntry.bytes

/-- Filled entries of a region in a snapshot's header. -/
def State.slotCount (s : State) (slot d : Nat) : Nat := Mem.readLE s.store.mem (snapBase slot + 0x40 + 4 * d) 4

/-- The next `n` bytes of a stream readout (R869): a live cairn's 64-byte header and entries, or a slot's bytes. -/
def State.readoutChunk (s : State) (r : Readout) (n : Nat) : State × List Nat :=
  let n := min n (r.total - r.sent)
  if 16 ≤ r.source then (s, Mem.readBytes s.store.mem (snapBase (r.source - 16) + r.sent) n)
  else
    let head := padTo 64 ([r.source, 0, 0, 0] ++ leBytes 4 ((r.total - 64) / 32) ++ leBytes 4 r.start ++ leBytes 4 0 ++ leBytes 8 r.round)
    (List.range (n / 32)).foldl (fun (acc : State × List Nat) i =>
      let b := r.sent / 32 + i
      if b < 2 then (acc.1, acc.2 ++ (head.drop (32 * b)).take 32)
      else
        match acc.1.liveEntry { r with total := (r.total - 64) / 32 } (b - 2) with
        | some e => (acc.1, acc.2 ++ e)
        | none => (acc.1.addFld R.crnStreamStatus 31 16 1, acc.2 ++ List.replicate 32 0)) (s, [])

/-! ### The faceplate -/

/-- Store addresses of the faceplate record and mark (R879). -/
def fplRecord : Nat := 0x000F0000
def fplMark : Nat := 0x000F1000

/-- Characters of a text. -/
def chars (t : String) : List Nat := t.toList.map Char.toNat

/-- Decimal digits of a number. -/
def decimal (n : Nat) : List Nat := chars (toString n)

/-- Hexadecimal digits, upper case, `k` of them. -/
def hexDigits (k n : Nat) : List Nat :=
  (List.range k).map fun i =>
    let d := n / 16 ^ (k - 1 - i) % 16
    if d < 10 then 48 + d else 55 + d

/-- The state shown in the second band (R877). -/
def State.plateState (s : State) : String :=
  if s.fld R.pwrState 14 13 != 0 then "DRY STOP"
  else
    match s.mod.power with
    | .off => "STANDBY"
    | .standby => "STANDBY"
    | .ready => if s.boot.recoveryReason != 0 then "RECOVERY" else "READY"
    | .run => if s.boot.recoveryReason != 0 then "RECOVERY" else if s.img.committed.isNone then "NO IMAGE" else "RUN"

/-- The text of the stock body (R877). -/
def State.plateText (s : State) : List Nat :=
  let code := s.fld R.fplFatal 15 0
  let best := (validSlots s.store.mem).foldl (fun (b : Option Nat) i =>
    if Mem.readLE s.store.mem (snapBase i + 12) 2 = code then
      match b with
      | some j => if snapNumber s.store.mem j < snapNumber s.store.mem i then some i else b
      | none => some i
    else b) none
  let num := match best with | some i => snapNumber s.store.mem i | none => 0
  let rnd := match best with | some i => Mem.readLE s.store.mem (snapBase i + 16) 8 | none => 0
  chars "HX8 " ++ hexDigits 16 s.serial ++ chars " ID " ++ decimal (s.fld R.rngId 4 0) ++ chars " SLOT " ++
    decimal s.mod.slotId ++ [10] ++ chars s.plateState ++ [10] ++
    chars "LAST 0x" ++ hexDigits 4 code ++ chars " SNAP " ++ decimal num ++ [10] ++ decimal rnd

/-- Whether `n` bytes of HBM can be read without fault. -/
def State.hbmReadable (s : State) (a n : Nat) : Bool :=
  s.inHbm a && spanOf a == spanOf (a + n - 1) && !s.poisoned a n

/-- The 2,072 bytes of the body (R877, R884). -/
def State.plateBody (s : State) : List Nat :=
  let a := s.pair R.fplBodyLo R.fplBodyHi
  if s.flag R.fplCfg 1 && s.mod.power != .standby && s.hbmReadable a 2072 then s.deviceBytes a 2072
  else
    let t := s.plateText
    (List.range 2072).map fun i => Config.fontByte t i % 256

/-- The tag of an update (R878). -/
def plateTag (num : Nat) (body : List Nat) : Nat := num % 65536 + 65536 * (crc32 body % 65536)

/-- Whether dot x of the check strip's row y is black (R878). -/
def stripDot (tag x y : Nat) : Bool :=
  if x < 64 then bit tag (x / 2)
  else if x < 232 then (x + y) % 2 == 0
  else bit tag ((x - 232) / 2)

/-- The 296 bytes of the check strip. -/
def stripBytes (tag : Nat) : List Nat :=
  (List.range 296).map fun i =>
    maskOf ((List.range 8).filter fun b => stripDot tag (i % 37 * 8 + b) (56 + i / 37))

/-- An update begins (R880 steps 1 to 3): mark, record with the next number and tag, left block. -/
def State.plateStart (s : State) (cause : Nat) : State :=
  let m := s.store.mem
  let num := (Mem.readLE m (fplRecord + 4) 4 + 1) % 2 ^ 32
  let body := s.plateBody
  let tag := plateTag num body
  let map := body ++ stripBytes tag
  let head := padTo 0x3C (leBytes 4 0x4C504146 ++ leBytes 4 num ++ leBytes 4 tag ++ leBytes 2 (s.fld R.fplFatal 15 0))
  let m := Mem.writeLE m fplMark 4 1
  let m := Mem.writeBytes m fplRecord (head ++ leBytes 4 (crc32 (head ++ map)) ++ map)
  let s := { s with store := { s.store with mem := m } }
  let s := { s with crn := { s.crn with drawing := some cause, panelLeft := tag } }
  (s.setReg R.fplTag tag).setFlag R.fplStatus 0 true

/-- A cause of an update (0 a change of state or boot complete, 1 a snapshot, 2 FPL_CTL.update; 3 stands for R882's check): it is due
(R881). -/
def State.plateCause (s : State) (cause : Nat) : State :=
  let s := { s with crn := { s.crn with queued := some cause } }
  if s.crn.drawing.isSome then s.setFlag R.fplStatus 1 true else s

/-- A change of GLB_PSTATE.state, or boot complete, while on_state is 1. -/
def State.plateChange (s : State) : State := if s.flag R.fplCfg 0 then s.plateCause 0 else s

/-- FACEPLATE_UPDATE: a due update starts once none is running. -/
def execFaceplateUpdate (s : State) : Host.Outcome State Fault Refusal :=
  .next (match s.crn.drawing, s.crn.queued with
    | none, some c =>
      let s := s.plateStart c
      { s with crn := { s.crn with queued := none } }
    | _, _ => s)

/-- FACEPLATE_UPDATE_DONE: the body, the right block and the middle of the strip are driven, the mark is
cleared, and event 0x1106 is recorded; a queued update starts (R880, R881). -/
def execFaceplateUpdateDone (s : State) : Host.Outcome State Fault Refusal :=
  .next (match s.crn.drawing with
    | none => s
    | some c =>
      let tag := Mem.readLE s.store.mem (fplRecord + 8) 4
      let num := Mem.readLE s.store.mem (fplRecord + 4) 4
      let q := s.crn.queued
      let m := Mem.writeLE s.store.mem fplMark 4 0
      let s := { s with store := { s.store with mem := m } }
      let crn := { s.crn with drawing := none, queued := none, panelLeft := tag, panelBody := tag, panelRight := tag }
      let s := ({ s with crn := crn }.setFld R.fplStatus 31 16 num).setFld R.fplStatus 1 0 0
      let s := s.hubEvent 0x1106 [(4, num), (1, evCode 0x1106 c)]
      match q with
      | some c => s.plateStart c
      | none => s)

/-- FPL_UPDATE_REQUEST: a write of 1 to FPL_CTL.update. -/
def execFplUpdateRequest (s : State) : Host.Outcome State Fault Refusal := .next (s.plateCause 2)

/-- What the island does with the snapshot mark on each entry to Standby (R867). -/
def State.tornSnapshot (s : State) : State :=
  let k := Mem.readLE s.store.mem 0x000F1004 4
  if k = 0 then s
  else
    let m := if k ≤ 8 then Mem.writeLE s.store.mem (snapBase (k - 1)) 4 0 else s.store.mem
    let s := { s with store := { s.store with mem := Mem.writeLE m 0x000F1004 4 0 } }
    s.hubEvent 0x1105 [(1, if k ≤ 8 then k - 1 else 0xFF)]

/-- What the island does with the faceplate mark on each entry to Standby (R882): a valid record is driven again
with its number, otherwise a full update is made. -/
def State.tornPlate (s : State) : State :=
  let m := s.store.mem
  if Mem.readLE m fplMark 4 != 1 then s
  else
    let ok := Mem.readLE m fplRecord 4 == 0x4C504146 &&
      Mem.readLE m (fplRecord + 0x3C) 4 == crc32 (Mem.readBytes m fplRecord 0x3C ++ Mem.readBytes m (fplRecord + 0x40) 2368)
    let num := Mem.readLE m (fplRecord + 4) 4
    if ok then
      let s := { s with crn := { s.crn with drawing := some 3, panelLeft := Mem.readLE m (fplRecord + 8) 4 } }
      (s.setFlag R.fplStatus 0 true).hubEvent 0x1107 [(4, num), (1, 0)]
    else
      let s := s.plateStart 3
      s.hubEvent 0x1107 [(4, Mem.readLE s.store.mem (fplRecord + 4) 4), (1, 1)]

/-- The registers that show what the store holds of the faceplate. -/
def State.loadPlate (s : State) : State :=
  let m := s.store.mem
  ((s.setReg R.fplFatal (Mem.readLE m (fplRecord + 12) 2)).setReg R.fplTag (Mem.readLE m (fplRecord + 8) 4)).setFld
    R.fplStatus 31 16 (Mem.readLE m (fplRecord + 4) 4)

end Sys2Proof.Machine
end

