-- ==== Sys2Proof/Machine/Crypto.lean ====
section
/-! DEFINITION. SHA-384 and the verification of ECDSA P-384 signatures, which slot headers and structure images
carry (R182, R236). The algorithms are those of the standards that the manual names; log entry 50. -/

namespace Sys2Proof.Machine

/-! ### SHA-384 -/

/-- Round constants 0 to 15. -/
def sha512K0 : List (BitVec 64) :=
  [
    0x428A2F98D728AE22, 0x7137449123EF65CD, 0xB5C0FBCFEC4D3B2F, 0xE9B5DBA58189DBBC,
    0x3956C25BF348B538, 0x59F111F1B605D019, 0x923F82A4AF194F9B, 0xAB1C5ED5DA6D8118,
    0xD807AA98A3030242, 0x12835B0145706FBE, 0x243185BE4EE4B28C, 0x550C7DC3D5FFB4E2,
    0x72BE5D74F27B896F, 0x80DEB1FE3B1696B1, 0x9BDC06A725C71235, 0xC19BF174CF692694 ]

/-- Round constants 16 to 31. -/
def sha512K1 : List (BitVec 64) :=
  [
    0xE49B69C19EF14AD2, 0xEFBE4786384F25E3, 0x0FC19DC68B8CD5B5, 0x240CA1CC77AC9C65,
    0x2DE92C6F592B0275, 0x4A7484AA6EA6E483, 0x5CB0A9DCBD41FBD4, 0x76F988DA831153B5,
    0x983E5152EE66DFAB, 0xA831C66D2DB43210, 0xB00327C898FB213F, 0xBF597FC7BEEF0EE4,
    0xC6E00BF33DA88FC2, 0xD5A79147930AA725, 0x06CA6351E003826F, 0x142929670A0E6E70 ]

/-- Round constants 32 to 47. -/
def sha512K2 : List (BitVec 64) :=
  [
    0x27B70A8546D22FFC, 0x2E1B21385C26C926, 0x4D2C6DFC5AC42AED, 0x53380D139D95B3DF,
    0x650A73548BAF63DE, 0x766A0ABB3C77B2A8, 0x81C2C92E47EDAEE6, 0x92722C851482353B,
    0xA2BFE8A14CF10364, 0xA81A664BBC423001, 0xC24B8B70D0F89791, 0xC76C51A30654BE30,
    0xD192E819D6EF5218, 0xD69906245565A910, 0xF40E35855771202A, 0x106AA07032BBD1B8 ]

/-- Round constants 48 to 63. -/
def sha512K3 : List (BitVec 64) :=
  [
    0x19A4C116B8D2D0C8, 0x1E376C085141AB53, 0x2748774CDF8EEB99, 0x34B0BCB5E19B48A8,
    0x391C0CB3C5C95A63, 0x4ED8AA4AE3418ACB, 0x5B9CCA4F7763E373, 0x682E6FF3D6B2B8A3,
    0x748F82EE5DEFB2FC, 0x78A5636F43172F60, 0x84C87814A1F0AB72, 0x8CC702081A6439EC,
    0x90BEFFFA23631E28, 0xA4506CEBDE82BDE9, 0xBEF9A3F7B2C67915, 0xC67178F2E372532B ]

/-- Round constants 64 to 79. -/
def sha512K4 : List (BitVec 64) :=
  [
    0xCA273ECEEA26619C, 0xD186B8C721C0C207, 0xEADA7DD6CDE0EB1E, 0xF57D4F7FEE6ED178,
    0x06F067AA72176FBA, 0x0A637DC5A2C898A6, 0x113F9804BEF90DAE, 0x1B710B35131C471B,
    0x28DB77F523047D84, 0x32CAAB7B40C72493, 0x3C9EBE0A15C9BEBC, 0x431D67C49C100D4C,
    0x4CC5D4BECB3E42B6, 0x597F299CFC657E2A, 0x5FCB6FAB3AD6FAEC, 0x6C44198C4A475817 ]

/-- The round constants of SHA-512 and SHA-384. -/
def sha512K : List (BitVec 64) := sha512K0 ++ sha512K1 ++ sha512K2 ++ sha512K3 ++ sha512K4

/-- The initial hash value of SHA-384. -/
def sha384Init : List (BitVec 64) :=
  [
    0xCBBB9D5DC1059ED8, 0x629A292A367CD507, 0x9159015A3070DD17, 0x152FECD8F70E5939,
    0x67332667FFC00B31, 0x8EB44A8768581511, 0xDB0C2E0D64F98FA7, 0x47B5481DBEFA4FA4 ]

/-- One word of the message schedule. -/
def shaNext (w : List (BitVec 64)) : BitVec 64 :=
  let at_ (k : Nat) : BitVec 64 := w.getD (w.length - k) 0
  let a := at_ 15
  let b := at_ 2
  let s0 := a.rotateRight 1 ^^^ a.rotateRight 8 ^^^ (a >>> 7)
  let s1 := b.rotateRight 19 ^^^ b.rotateRight 61 ^^^ (b >>> 6)
  at_ 16 + s0 + at_ 7 + s1

/-- The 80 words of the schedule of a block. -/
def shaSchedule (block : List (BitVec 64)) : List (BitVec 64) :=
  (List.range 64).foldl (fun w _ => w ++ [shaNext w]) block

/-- One round on the working variables a to h. -/
def shaRound (v : List (BitVec 64)) (kw : BitVec 64 × BitVec 64) : List (BitVec 64) :=
  match v with
  | [a, b, c, d, e, f, g, h] =>
    let s1 := e.rotateRight 14 ^^^ e.rotateRight 18 ^^^ e.rotateRight 41
    let ch := (e &&& f) ^^^ (~~~ e &&& g)
    let t1 := h + s1 + ch + kw.1 + kw.2
    let s0 := a.rotateRight 28 ^^^ a.rotateRight 34 ^^^ a.rotateRight 39
    let maj := (a &&& b) ^^^ (a &&& c) ^^^ (b &&& c)
    [t1 + (s0 + maj), a, b, c, d + t1, e, f, g]
  | _ => v

/-- A block of 128 bytes taken into the hash. -/
def shaBlock (h : List (BitVec 64)) (bytes : List Nat) : List (BitVec 64) :=
  let block := (List.range 16).map fun i => BitVec.ofNat 64 (beVal ((bytes.drop (8 * i)).take 8))
  let v := (sha512K.zip (shaSchedule block)).foldl shaRound h
  (h.zip v).map fun q => q.1 + q.2

/-- The padded message. -/
def shaPad (m : List Nat) : List Nat :=
  m ++ [0x80] ++ List.replicate ((239 - m.length % 128) % 128) 0 ++ (leBytes 16 (8 * m.length)).reverse

/-- SHA-384 of a byte string, 48 bytes. -/
def sha384 (m : List Nat) : List Nat :=
  let p := shaPad m
  let h := (List.range (p.length / 128)).foldl (fun h i => shaBlock h ((p.drop (128 * i)).take 128)) sha384Init
  (h.take 6).flatMap fun w => (leBytes 8 w.toNat).reverse

/-! ### ECDSA P-384 -/

/-- The prime of the field, the order of the group, the coefficient b and the base point. -/
def p384p : Nat := 2 ^ 384 - 2 ^ 128 - 2 ^ 96 + 2 ^ 32 - 1
def p384n : Nat :=
  0xFFFFFFFFFFFFFFFFFFFFFFFFFFFFFFFFFFFFFFFFFFFFFFFFC7634D81F4372DDF581A0DB248B0A77AECEC196ACCC52973
def p384b : Nat :=
  0xB3312FA7E23EE7E4988E056BE3F82D19181D9C6EFE8141120314088F5013875AC656398D8A2ED19D2A85C8EDD3EC2AEF
def p384G : Nat × Nat :=
  (0xAA87CA22BE8B05378EB1C71EF320AD746E1D3B628BA79B9859F741E082542A385502F25DBF55296C3A545E3872760AB7,
   0x3617DE4A96262C6F5D9E98BF9292DC29F8F41DBD289A147CE9DA3113B5F0B8C00A60B1CE1D7E819D7A431D7C90EA0E5F)

/-- `a` to the power `e` modulo `m`, for e below 2 ^ fuel. -/
def powMod (m : Nat) : Nat → Nat → Nat → Nat
  | 0, _, _ => 1 % m
  | k + 1, a, e =>
    let r := powMod m k (a * a % m) (e / 2)
    if e % 2 == 1 then r * a % m else r

/-- The inverse modulo a prime. -/
def invMod (m a : Nat) : Nat := powMod m 384 (a % m) (m - 2)

/-- `a - b` in the field. -/
def p384Sub (a b : Nat) : Nat := (a + p384p - b) % p384p

/-- Twice a point in Jacobian coordinates (x = X / Z², y = Y / Z³; Z = 0 is the point at infinity). -/
def p384Dbl (q : Nat × Nat × Nat) : Nat × Nat × Nat :=
  let p := p384p
  let d := q.2.2 * q.2.2 % p
  let g := q.2.1 * q.2.1 % p
  let b := q.1 * g % p
  let a := 3 * (p384Sub q.1 d) * (q.1 + d) % p
  let x := p384Sub (a * a % p) (8 * b % p)
  (x, p384Sub (a * (p384Sub (4 * b % p) x) % p) (8 * g * g % p), 2 * q.2.1 * q.2.2 % p)

/-- The sum of two points in Jacobian coordinates. -/
def p384Add (q r : Nat × Nat × Nat) : Nat × Nat × Nat :=
  let p := p384p
  if q.2.2 = 0 then r
  else if r.2.2 = 0 then q
  else
    let zq := q.2.2 * q.2.2 % p
    let zr := r.2.2 * r.2.2 % p
    let u := q.1 * zr % p
    let s := q.2.1 * r.2.2 * zr % p
    let h := p384Sub (r.1 * zq % p) u
    let t := p384Sub (r.2.1 * q.2.2 * zq % p) s
    if h = 0 then (if t = 0 then p384Dbl q else (1, 1, 0))
    else
      let hh := h * h % p
      let k := h * hh % p
      let v := u * hh % p
      let x := p384Sub (p384Sub (t * t % p) k) (2 * v % p)
      (x, p384Sub (t * (p384Sub v x) % p) (s * k % p), h * q.2.2 * r.2.2 % p)

/-- `k` times a point, for k below 2 ^ fuel. -/
def p384Mul : Nat → Nat → Nat × Nat × Nat → Nat × Nat × Nat
  | 0, _, _ => (1, 1, 0)
  | f + 1, k, q =>
    let r := p384Mul f (k / 2) (p384Dbl q)
    if k % 2 == 1 then p384Add r q else r

/-- A point lies on the curve. -/
def p384On (x y : Nat) : Bool :=
  x < p384p && y < p384p && (y * y) % p384p == (x * x * x + (p384p - 3) * x + p384b) % p384p

/-- The signature (r then s, each 48 bytes, big-endian) of a message verifies against a public key (x then y). -/
def ecdsaVerify (key sig msg : List Nat) : Bool :=
  let x := beVal (key.take 48)
  let y := beVal ((key.drop 48).take 48)
  let r := beVal (sig.take 48)
  let s := beVal ((sig.drop 48).take 48)
  let e := beVal (sha384 msg)
  if !p384On x y || r == 0 || s == 0 || p384n ≤ r || p384n ≤ s then false
  else
    let w := invMod p384n s
    let v := p384Add (p384Mul 384 (e * w % p384n) (p384G.1, p384G.2, 1)) (p384Mul 384 (r * w % p384n) (x, y, 1))
    v.2.2 != 0 && v.1 * invMod p384p (v.2.2 * v.2.2) % p384p % p384n == r

end Sys2Proof.Machine
end

