-- ==== Sys2Proof/Machine/Slots.lean ====
section
/-! DEFINITION. Slot images of firmware and microcode (R182), patch bodies and microwords (R655, R656, R670, R671).
-/

namespace Sys2Proof.Machine

/-! ### Byte strings -/

/-- The little-endian number in `n` bytes of a byte string from offset `o`. -/
def le (b : List Nat) (o n : Nat) : Nat := leVal ((b.drop o).take n)

/-- `n` bytes of a byte string from offset `o`. -/
def cut (b : List Nat) (o n : Nat) : List Nat := (b.drop o).take n

/-! ### Slot headers (R182) -/

/-- Store address and size of a slot: kind 1 firmware, 2 microcode; slot 1 A, 2 B (R114). -/
def slotBase (kind slot : Nat) : Nat :=
  if kind = 1 then (if slot = 1 then 0x00100000 else 0x00500000) else (if slot = 1 then 0x00900000 else 0x00B00000)
def slotSize (kind : Nat) : Nat := if kind = 1 then 0x00400000 else 0x00200000

/-- The stepping byte of the part, B0 (R182). -/
def stepByte : Nat := 0x10

/-- The first thing wrong with a slot image, as GLB_PROMOTE_STATUS.result: 0 none, 1 header, 2 CRC, 3 signature or
key, 4 too large, 5 stepping. `b` holds the header and at least the body. -/
def slotFault (digest : List Nat) (kind size : Nat) (b : List Nat) : Nat :=
  let n := le b 0x0C 4
  if le b 0 4 != 0x53465848 || le b 4 4 != kind || n == 0 then 1
  else if size < n + 256 || b.length < n + 256 then 4
  else if crc32 (cut b 0x100 n) != le b 0x10 4 then 2
  else if stepByte < le b 0x14 1 then 5
  else if sha384 (cut b 0xA0 96) != digest || !ecdsaVerify (cut b 0xA0 96) (cut b 0x40 96) (cut b 0 0x40 ++ cut b 0x100 n) then 3
  else 0

/-- The bytes of a slot: its header and the body that the header names, or the header alone. -/
def State.slotBytes (s : State) (kind slot : Nat) : List Nat :=
  let a := slotBase kind slot
  let n := Mem.readLE s.store.mem (a + 0x0C) 4
  Mem.readBytes s.store.mem a (if n + 256 ≤ slotSize kind then n + 256 else 256)

/-- What is wrong with a slot of the store. -/
def State.slotBad (s : State) (kind slot : Nat) : Nat :=
  slotFault s.fuse.keyDigest kind (slotSize kind) (s.slotBytes kind slot)

/-- Version of a slot. -/
def State.slotVersion (s : State) (kind slot : Nat) : Nat := Mem.readLE s.store.mem (slotBase kind slot + 8) 4

/-! ### Microwords (R655 to R658) -/

/-- The fields of a 144-bit word. -/
def MicroWord.ofNat (w : Nat) : MicroWord :=
  { nxBase := bits w 12 0, nxC0 := bits w 18 13, nxC1 := bits w 24 19, nxMode := bits w 27 25, aluOp := bits w 32 28,
    aluA := bits w 38 33, aluB := bits w 44 39, aluD := bits w 49 45, flagsWe := bit w 50, busOp := bits w 53 51,
    busUnit := bits w 59 54, busAddr := bits w 75 60, msgOp := bits w 78 76, msgDst := bits w 83 79, cntOp := bits w 85 84,
    hold := bit w 86, trace := bits w 88 87, lit := bits w 120 89, rest := bits w 134 121 }

/-- The codeword positions that hold word bits 0 to 134: those of 1 to 143 that are no power of two. -/
def dataPositions : List Nat := (List.range 144).filter fun i => !List.contains [0, 1, 2, 4, 8, 16, 32, 64, 128] i

/-- The numbers of the codeword positions whose bit is 1. -/
def setPositions (w : Nat) : List Nat :=
  ((dataPositions.zipIdx).filter fun q => bit w q.2).map (·.1) ++
    ((List.range 8).filter fun j => bit w (135 + j)).map fun j => 2 ^ j

/-- The syndrome: the XOR of the positions that hold 1; and the XOR of all 144 bits. -/
def syndrome (w : Nat) : Nat := (setPositions w).foldl (· ^^^ ·) 0
def parity (w : Nat) : Bool := popCount 144 w % 2 == 1

/-- The word bit that stands at a codeword position. -/
def bitAt (pos : Nat) : Nat :=
  match dataPositions.findIdx? (· == pos) with
  | some i => i
  | none => 135 + ((List.range 8).findIdx? (fun j => 2 ^ j == pos)).getD 0

/-- A fetched word: itself, corrected of a single-bit error, or with an error that cannot be corrected. -/
inductive Fetched
  | good (w : Nat)
  | corrected (w : Nat)
  | bad
  deriving DecidableEq, Repr

/-- The check of a fetched word (R656). -/
def eccCheck (w : Nat) : Fetched :=
  let y := syndrome w
  if !parity w then (if y = 0 then .good w else .bad)
  else if y = 0 then .corrected (putBit w 143 (!bit w 143))
  else if y < 144 then .corrected (putBit w (bitAt y) (!bit w (bitAt y)))
  else .bad

/-- A word with its check bits, from its bits 0 to 134. -/
def eccEncode (w : Nat) : Nat :=
  let d := w % 2 ^ 135
  let y := syndrome d
  let c := (List.range 8).foldl (fun c j => putBit c (135 + j) (bit y j)) d
  if parity c then putBit c 143 true else c

/-- Codes of R657 that are assigned. -/
def sourceOk (k : Nat) : Bool := k ≤ 28 || k == 63
def destOk (k : Nat) : Bool := k ≤ 21 || k == 31
def condOk (k : Nat) : Bool := k ≤ 12 || 32 ≤ k
def unitOk (hub : Bool) (k : Nat) : Bool := k == 0x20 || (if hub then k ≤ 0x0C else 0x10 ≤ k && k ≤ 0x19)

/-- No field of a word of the hub's or of a peak's sequencer holds a reserved value (R655, R657, R658). -/
def MicroWord.ok (m : MicroWord) (hub : Bool) : Bool :=
  m.nxMode ≤ 4 && m.aluOp ≤ 10 && sourceOk m.aluA && sourceOk m.aluB && destOk m.aluD && condOk m.nxC0 && condOk m.nxC1 &&
  m.busOp ≤ 2 && unitOk hub m.busUnit && m.msgOp ≤ 2 && m.msgDst ≤ 9 && m.cntOp ≤ 2 && m.trace ≤ 1 && m.rest == 0

/-! ### Patch bodies (R670, R671) -/

/-- Words of 18 bytes. -/
def wordsOf (b : List Nat) (o n : Nat) : List Nat := (List.range n).map fun i => le b (o + 18 * i) 18

/-- Hook entries of 4 bytes: ROM address and RAM address. -/
def hooksOf (b : List Nat) (o n : Nat) : List (Nat × Nat) :=
  (List.range n).map fun i => (bits (le b (o + 4 * i) 4) 12 0, bits (le b (o + 4 * i) 4) 28 16)

/-- The hooks of a section are in order: ROM addresses below 0x1000 and distinct, RAM addresses in the words loaded. -/
def hooksOk (l : List (Nat × Nat)) (words : Nat) : Bool :=
  l.all (fun q => q.1 < 0x1000 && 0x1000 ≤ q.2 && decide (q.2 < 0x1000 + words)) &&
    (l.zipIdx).all fun q => !((l.take q.2).any fun r => r.1 == q.1.1)

/-- A section's words are sound (check 3 of R671). -/
def wordsOk (hub : Bool) (l : List Nat) : Bool :=
  l.all fun w => eccCheck w == .good w && (MicroWord.ofNat w).ok hub

/-- The patch in a body of `len` bytes, with the number of the first check of R671 that fails, 0 for none. -/
def patchOf (b : List Nat) (len level rom : Nat) : Patch × Nat :=
  let hw := le b 4 2
  let pw := le b 6 2
  let hh := le b 8 1
  let ph := le b 9 1
  let p : Patch := { level := level, hubWords := wordsOf b (le b 0x0C 4) hw, peakWords := wordsOf b (le b 0x10 4) pw,
                     hubHooks := hooksOf b (le b 0x14 4) hh, peakHooks := hooksOf b (le b 0x18 4) ph }
  let fits (o n : Nat) : Bool := o + n ≤ len
  (p, if le b 0 4 != 0x50435551 || le b 0x0A 2 != rom then 1
    else if 4096 < hw || 4096 < pw || 32 < hh || 32 < ph || len < 64 || !fits (le b 0x0C 4) (18 * hw) ||
        !fits (le b 0x10 4) (18 * pw) || !fits (le b 0x14 4) (4 * hh) || !fits (le b 0x18 4) (4 * ph) then 2
    else if !wordsOk true p.hubWords || !wordsOk false p.peakWords then 3
    else if !hooksOk p.hubHooks hw || !hooksOk p.peakHooks pw then 4
    else 0)

/-- The patch of a microcode slot of the store, and the first check of R671 that fails. -/
def State.slotPatch (s : State) (slot : Nat) : Patch × Nat :=
  let b := s.slotBytes 2 slot
  patchOf (b.drop 256) (le b 0x0C 4) (le b 8 4 % 65536) (s.fld (R.seqVersion 8) 23 16)

end Sys2Proof.Machine
end

