-- ==== Sys2Proof/Machine/Seq.lean ====
section
/-! DEFINITION. Sequencers: commands and events at command boundaries, the watchdog, faults, and patches (R652, R663 to
R668, R672 to R677). The microwords' own actions are in Machine/Micro.lean. -/

namespace Sys2Proof.Machine

/-! ### State (SEQ_STATE) -/

/-- SEQ_STATE.state of a sequencer: 0 at a boundary, 1 running, 2 in a hold, 3 halted, 4 reset, 5 faulted. -/
def State.seqPhase (s : State) (d : Nat) : Nat := s.fld (R.seqState d) 15 13
def State.setPhase (s : State) (d v : Nat) : State := s.setFld (R.seqState d) 15 13 v

/-- The address a sequencer executes. -/
def State.uaddr (s : State) (d : Nat) : Nat := s.fld (R.seqState d) 12 0

/-- The trace level of SEQ_CFG, which the hub's block holds for all nine (R679). -/
def State.traceLevel (s : State) : Nat := s.fld (R.seqCfg 8) 13 12

/-- Nothing stops a sequencer's words: it executes, and no stop wire or fatal fault has halted it (R642, R665). -/
def State.seqGoes (s : State) (d : Nat) : Bool := s.seqRuns d && !s.pwr.halted && !s.flag R.fltStatus 0

/-! ### Events (R664) -/

/-- The latched events of a sequencer, bit r - 1 for rank r: fault notices, the epoch mark, a patch to apply, round
work, an inbound message. -/
def State.seqEvents (s : State) (d : Nat) : Nat :=
  let x := s.seqSt d
  let mark := match s.img.swap with
    | some sw => d != 8 && !sw.live && bit sw.mustAck d && !bit sw.acked d
    | none => false
  (d == 8 && !s.flt.notices.isEmpty).toNat + 2 * mark.toNat + 4 * x.staged.isSome.toNat + 8 * x.roundWork.toNat +
    16 * (!x.inbox.isEmpty).toNat

/-- The highest rank latched; 0 for none. -/
def State.topEvent (s : State) (d : Nat) : Nat :=
  match (List.range 5).find? (bit (s.seqEvents d)) with
  | some i => i + 1
  | none => 0

/-! ### Commands -/

/-- The address fetched for an address formed: a hook of the active bank redirects a ROM address it equals, once (R659,
R662). -/
def State.hooked (s : State) (d a : Nat) : Nat :=
  let x := s.seqSt d
  if a < 0x1000 then
    match (if s.flag (R.seqVersion d) 24 then x.hooks1 else x.hooks0).find? fun q => q.1 == a with
    | some q => q.2
    | none => a
  else a

/-- A command begins at the address that the last end formed: its words, and the rank of the event it serves. -/
def State.beginCmd (s : State) (d : Nat) (words : List Nat) (rank : Nat) : State :=
  let x := s.seqSt d
  let s := s.setSeq d { x with cmd := padTo 4 words, serving := rank, began := s.absTurn, beganRound := s.rnd.round, skipped := 0, outside := false, leave := false }
  let s := s.setPhase d 1
  s.setFld (R.seqState d) 21 16 (if rank = 0 then words.headD 0 % 64 else 0)

/-- Turns of the running command, as R667 counts them. -/
def State.cmdTurns (s : State) (d : Nat) : Nat := s.absTurn - (s.seqSt d).began - (s.seqSt d).skipped

/-- The command that runs ends: SEQ_CMD_COUNT, SEQ_CMD_MAX, and event 0x0C07 at trace level 2. -/
def State.endCmd (s : State) (d : Nat) : State :=
  let t := s.cmdTurns d
  let op := s.fld (R.seqState d) 21 16
  let s := s.count (R.seqCmdCount d) 1
  let s := if s.fld (R.seqCmdMax d) 15 0 < t then (s.setFld (R.seqCmdMax d) 15 0 (min t 65535)).setFld (R.seqCmdMax d) 21 16 op else s
  let s := if s.traceLevel = 2 then s.seqEvent d 0x0C07 [(1, d), (1, op), (4, t)] else s
  let s := s.setSeq d { s.seqSt d with serving := 0 }
  ((s.setFld (R.seqState d) 12 0 (s.hooked d 0)).setFld (R.seqState d) 21 16 0).setPhase d 0

/-- Whether a sequencer may serve the event of a rank: it stands at a boundary and none is higher, or the command
that runs is its service. -/
def State.mayServe (s : State) (d rank : Nat) : Bool :=
  s.seqGoes d && (if s.seqPhase d = 0 then s.topEvent d == rank else (s.seqSt d).serving == rank)

/-- The service of an event, whole (R664): at a boundary it is a command of its own. -/
def State.serve (s : State) (d rank : Nat) (f : State → State) : State :=
  if !s.mayServe d rank then s
  else if s.seqPhase d = 0 then f (s.beginCmd d [] rank |>.endCmd d)
  else f s

/-- COMMAND_BOUNDARY: commands that have arrived are queued; at a boundary the sequencer serves the latched event of
highest rank, or dispatches the oldest queued command (R664, R665). -/
def execCommandBoundary (seq : Nat) (arrived : List (List Nat)) (s : State) : Host.Outcome State Fault Refusal :=
  let x := s.seqSt seq
  let s := s.setSeq seq { x with queue := x.queue ++ arrived.map (padTo 4) }
  .next (if !s.seqGoes seq || s.seqPhase seq != 0 then s
    else if s.topEvent seq != 0 then s.beginCmd seq [] (s.topEvent seq)
    else
      match (s.seqSt seq).queue with
      | [] => s
      | c :: cs => (s.setSeq seq { s.seqSt seq with queue := cs }).beginCmd seq c 0)

/-- The opcodes of R663. -/
def opcodeKnown (d op : Nat) : Bool := 1 ≤ op && (if d = 8 then op ≤ 0x0D else op ≤ 0x0A)

/-- UNKNOWN_OPCODE: the running command's opcode is none of R663: the refusal routine ends it with result
0xFFFF_FFFF and event 0x0C06. -/
def execUnknownOpcode (seq : Nat) (s : State) : Host.Outcome State Fault Refusal :=
  let x := s.seqSt seq
  let w := x.cmd.headD 0
  .next (if s.seqGoes seq && (s.seqPhase seq == 1 || s.seqPhase seq == 2) && x.serving == 0 && !opcodeKnown seq (w % 64) then
      ((s.setSeq seq { x with result := 0xFFFFFFFF }).seqEvent seq 0x0C06 [(1, seq), (4, w)]).endCmd seq
    else s)

/-- ROUND_WORK: the round work latched at the last boundary is served; it prepares the actions of the next boundary,
which take effect there (R666). -/
def execRoundWork (seq : Nat) (s : State) : Host.Outcome State Fault Refusal :=
  .next (s.serve seq 4 fun s => s.setSeq seq { s.seqSt seq with roundWork := false })

/-- SEQ_INBOUND_MESSAGE: the oldest control-lane message that waits is taken into msg-in (R664). -/
def execSeqInboundMessage (seq : Nat) (s : State) : Host.Outcome State Fault Refusal :=
  .next (s.serve seq 5 fun s =>
    match (s.seqSt seq).inbox with
    | [] => s
    | m :: ms => s.setSeq seq { s.seqSt seq with inbox := ms, msgIn := m })

/-! ### Faults and the watchdog (R667, R668) -/

/-- A sequencer fault: fetching stops, SEQ_FAULT and 0x0C05, and a notice of kind 9 or 10. -/
def State.seqFault (s : State) (d cause : Nat) : State :=
  let u := s.uaddr d
  let b := s.flag (R.seqVersion d) 24
  let s := s.setReg (R.seqFault d) (1 + 2 * cause + 16 * u + 2 ^ 17 * b.toNat)
  let s := s.seqEvent d 0x0C05 [(1, d), (1, cause), (2, u), (1, b.toNat), (2, s.fld (R.seqVersion d) 15 0)]
  let s := s.setPhase d 5
  s.notice { kind := if d = 8 then 10 else 9, code := 0x0C05, die := d, unit := 0, parts := if d = 8 then 0 else s.partsHolding (fun h => h / 2 == d), round := s.rnd.round, half := 2 * (d % 8), line := 0 }

/-- SEQ_WATCHDOG: a command that has run longer than SEQ_CFG.wdog turns is a fault of cause 1; turns halted, and turns
in a hold on a host or a ring peer, do not count. -/
def execSeqWatchdog (seq : Nat) (s : State) : Host.Outcome State Fault Refusal :=
  .next (if s.seqGoes seq && (s.seqPhase seq == 1 || s.seqPhase seq == 2) && !(s.seqSt seq).outside &&
      decide (s.fld (R.seqCfg 8) 11 0 < s.cmdTurns seq) then s.seqFault seq 1 else s)

/-! ### Halts (R665, R842) -/

/-- A sequencer halts at its next handshake, and goes on. -/
def State.haltSeq (s : State) (d : Nat) : State :=
  let s := s.setFlag R.jtgState (16 + d) true
  if s.seqPhase d = 3 then s
  else (s.setSeq d { s.seqSt d with before := s.seqPhase d, haltedAt := s.absTurn }).setPhase d 3
def State.resumeSeq (s : State) (d : Nat) : State :=
  let s := s.setFlag R.jtgState (16 + d) false
  if s.seqPhase d != 3 then s
  else
    let x := s.seqSt d
    (s.setSeq d { x with skipped := x.skipped + (s.absTurn - x.haltedAt) }).setPhase d x.before

/-! ### Patches (R669 to R677) -/

/-- Number of the inactive bank of a sequencer. -/
def State.idleBank (s : State) (d : Nat) : Nat := if s.flag (R.seqVersion d) 24 then 0 else 1

/-- A patch written into the inactive bank and hooks of a sequencer (R670). -/
def State.writeBank (s : State) (d : Nat) (p : Patch) : State :=
  let b := s.idleBank d
  let words := if d = 8 then p.hubWords else p.peakWords
  let hooks := if d = 8 then p.hubHooks else p.peakHooks
  let x := s.seqSt d
  let ram := x.ram.filter (fun q => q.1 / 4096 != b)
  let ram := (words.zipIdx).foldl (fun t w => Map.set t (b * 4096 + w.2) w.1) ram
  s.setSeq d (if b = 0 then { x with ram := ram, hooks0 := hooks } else { x with ram := ram, hooks1 := hooks })

/-- The inactive bank made active, with its level. -/
def State.flipBank (s : State) (d level : Nat) : State :=
  (s.setFlag (R.seqVersion d) 24 (s.idleBank d == 1)).setFld (R.seqVersion d) 15 0 level

/-- A sequencer's control store loaded from a patch, or left to ROM microcode, as it comes up or after its reset
(R187, R672, R677): it stands at a command boundary with nothing queued. -/
def State.loadSeq (s : State) (d : Nat) : State :=
  let s := match s.seq.applying, s.seq.inForce with
    | some p, _ => (s.writeBank d p).flipBank d p.level
    | none, some p => (s.writeBank d p).flipBank d p.level
    | none, none => s.setFld (R.seqVersion d) 15 0 0
  let x := s.seqSt d
  let s := s.setSeq d { SeqSt.empty with ram := x.ram, hooks0 := x.hooks0, hooks1 := x.hooks1 }
  let s := s.setReg (R.seqState d) 0
  if s.flag R.jtgState (16 + d) then s.haltSeq d else s

/-- The last sequencer that is up has switched: the level and the hub's copy change (R676). -/
def State.patchDone (s : State) : State :=
  match s.seq.applying with
  | none => s
  | some p =>
    if s.seq.mustSwitch.land (511 - s.fld R.seqPatchStatus 13 5) != 0 then s
    else
      let s := (s.setFld R.seqLevel 15 0 p.level).setFld R.seqLevel 31 16 0
      let s := (s.setFld R.seqPatchStatus 0 0 0).setFld R.seqPatchStatus 4 1 0
      { s with seq := { s.seq with inForce := some p, applying := none, mustSwitch := 0 } }

/-- A sequencer counts as switched, or drops out of the application (R677). -/
def State.switchedSeq (s : State) (d : Nat) : State :=
  if s.seq.applying.isNone then s else (s.setFlag R.seqPatchStatus (5 + d) true).patchDone
def State.dropSwitch (s : State) (d : Nat) : State :=
  if s.seq.applying.isNone then s
  else
    let s := s.setSeq d { s.seqSt d with staged := none }
    State.patchDone { s with seq := { s.seq with mustSwitch := putBit s.seq.mustSwitch d false } }

/-- A live application refused, with event 0x0C03. -/
def State.refusePatch (s : State) (slot r : Nat) : State :=
  (s.setFld R.seqPatchStatus 4 1 r).hubEvent 0x0C03 [(1, slot), (1, r)]

/-- PATCH_APPLY_REQUEST: a write of SEQ_PATCH_CTL (R674). -/
def execPatchApplyRequest (v : Word) (s : State) : Host.Outcome State Fault Refusal :=
  let slot := bits v.toNat 3 2
  .next (if bits v.toNat 1 0 != 1 || bits v.toNat 31 16 != 0x9A7C then s
    else if slot == 0 || slot == 3 || s.slotBad 2 slot != 0 then s.refusePatch slot 1
    else
      let r := s.slotPatch slot
      if r.2 != 0 then s.refusePatch slot 2
      else if r.1.level < s.fld R.seqLevel 15 0 then s.refusePatch slot 3
      else if s.seq.applying.isSome then s.refusePatch slot 4
      else if s.img.swap.isSome then s.refusePatch slot 5
      else
        let up := maskOf ((List.range 9).filter s.dieOn)
        let s := { s with seq := { s.seq with applying := some r.1, mustSwitch := up } }
        let s := ((s.setFlag R.seqPatchStatus 0 true).setFld R.seqPatchStatus 4 1 0).setFld R.seqPatchStatus 13 5 0
        s.setFld R.seqLevel 31 16 r.1.level)

/-- PATCH_LOAD: the patch being applied is written into the inactive bank of every sequencer that is up, and a patch
apply event is latched in each (R675 steps 1 and 2). -/
def execPatchLoad (s : State) : Host.Outcome State Fault Refusal :=
  .next (match s.seq.applying with
    | none => s
    | some p =>
      if !s.seqGoes 8 then s
      else
        ((List.range 9).filter fun d => bit s.seq.mustSwitch d && !s.flag R.seqPatchStatus (5 + d)).foldl (fun s d =>
          let s := s.writeBank d p
          s.setSeq d { s.seqSt d with staged := some p.level }) s)

/-- PATCH_SWITCH: at a command boundary the sequencer makes its inactive bank active, with event 0x0C02 (R675, R676). -/
def execPatchSwitch (seq : Nat) (s : State) : Host.Outcome State Fault Refusal :=
  .next (s.serve seq 3 fun s =>
    match (s.seqSt seq).staged with
    | none => s
    | some l =>
      let old := s.fld (R.seqVersion seq) 15 0
      let s := (s.setSeq seq { s.seqSt seq with staged := none }).flipBank seq l
      (s.seqEvent seq 0x0C02 [(1, seq), (2, old), (2, l), (8, s.rnd.round)]).switchedSeq seq)

end Sys2Proof.Machine
end

