-- ==== Sys2Proof/Machine/Host.lean ====
section
/-! DEFINITION. Host ports: BAR2 and BAR4 accesses, MSI-X, the system window's cache, host DMA engines and page streams
(R689 to R727). Links are in Machine/Links.lean. -/

namespace Sys2Proof.Machine

/-! ### Accesses refused (R692, R696, R700, R720) -/

/-- Event 0x0D04: function, BAR, offset, and a free code for the reason: 1 not the control function, 2 no HBM there, 3 not page r,
4 not the owner (log entry 51). -/
def State.refuseAccess (s : State) (port func bar off reason : Nat) : State :=
  s.hubEvent 0x0D04 [(1, funcKey port func), (1, bar), (4, off), (1, evCode 0x0D04 reason)]

/-- How the last access of a host completed, and what it returned. -/
def State.hostAnswer (s : State) (status v : Nat) : State :=
  { s with answer := v, hst := { s.hst with status := status } }

/-- ATOMICOP_REFUSE: a received AtomicOp request completes with Unsupported Request (R692). -/
def execAtomicopRefuse (port func : Nat) (s : State) : Host.Outcome State Fault Refusal :=
  .next ((s.hostAnswer 1 0).hubEvent 0x0D0A [(1, port), (1, func), (1, evCode 0x0D0A 0)])

/-- TRANSLATION_REQUEST_REFUSE: a received Translation Request completes with Unsupported Request (R692). -/
def execTranslationRequestRefuse (port func : Nat) (s : State) : Host.Outcome State Fault Refusal :=
  .next ((s.hostAnswer 1 0).hubEvent 0x0D0A [(1, port), (1, func), (1, evCode 0x0D0A 1)])

/-! ### BAR2 (R699 to R701, R644) -/

/-- Whether a function is the PF of its endpoint (R694). -/
def State.isPf (s : State) (port func : Nat) : Bool := func == 0 || (s.splitPort port && func == 32)

/-- Device address behind a BAR2 offset (R699). -/
def State.bar2Addr (s : State) (port func off : Nat) : Nat :=
  (if s.isPf port func then s.fld R.hptBar2Base 8 0 else s.fld (R.hptVfw (64 * port + func)) 8 0) * 2 ^ 30 + off

/-- BAR2_READ: `n` bytes; once the function's earlier BAR2 writes are performed. Completer Abort in a dry stop and in
the fatal state, Unsupported Request outside HBM, poisoned data of a poisoned line. -/
def execBar2Read (port func off n : Nat) (s : State) : Host.Outcome State Fault Refusal :=
  let a := s.bar2Addr port func off
  .next (if s.pwr.halted || s.flag R.fltStatus 0 then s.hostAnswer 2 0
    else if !(s.inHbm a && s.inHbm (a + n - 1)) then (s.hostAnswer 1 0).refuseAccess port func 2 off 2
    else if s.writesOut (tagBar2 (funcKey port func)) != 0 || Map.getD s.hst.bar2Out (funcKey port func) [] != [] then s
    else s.hostAnswer (if s.poisoned a n then 3 else 0) (leVal (s.deviceBytes a n)))

/-- BAR2_WRITE: bytes, in the order in which a function's writes arrive; discarded in a dry stop and in the fatal
state, outside HBM, and when poisoned. -/
def execBar2Write (port func off : Nat) (data : List Nat) (poisoned : Bool) (s : State) : Host.Outcome State Fault Refusal :=
  let a := s.bar2Addr port func off
  let k := funcKey port func
  .next (if s.pwr.halted || s.flag R.fltStatus 0 || poisoned || data = [] then s
    else if !(s.inHbm a && s.inHbm (a + data.length - 1)) then s.refuseAccess port func 2 off 2
    else
      let q := Map.getD s.hst.bar2Out k [] ++ [(a, data)]
      { s with hst := { s.hst with bar2Out := Map.set s.hst.bar2Out k q } }.nextBar2 (tagBar2 k))

/-! ### MSI-X (R702) -/

/-- MSIX_UNMASK: a vector's mask bit is cleared, and its message leaves when it is pending. -/
def execMsixUnmask (port func vector : Nat) (s : State) : Host.Outcome State Fault Refusal :=
  let f := s.hostFunc port func
  let f' := { f with table := Map.set f.table (vector * 4 + 3) (BitVec.ofNat 32 (putBit (f.word vector 3) 0 false)), pend := f.pend.filter (· != vector) }
  let s := s.setFunc port func f'
  .next (if f.pend.contains vector && f.enabled && f.msix then s.msixMessage port func vector else s)

/-! ### The system window's cached entries (R706) -/

/-- HPT_STATUS.inval_busy is set while an invalidation has not completed; a write made meanwhile is held and merged
(R922). -/
def execSwmInval (v : Word) (s : State) : Host.Outcome State Fault Refusal :=
  let t := if bit v.toNat 31 then 4194304 else bits v.toNat 21 0
  .next (match s.hst.swmInval, s.hst.swmHeld with
    | none, _ => { s with hst := { s.hst with swmInval := some (t, s.rnd.round) } }.setFlag R.hptStatus 0 true
    | some _, none => { s with hst := { s.hst with swmHeld := some t } }
    | some _, some h => { s with hst := { s.hst with swmHeld := some (if h = t then h else 4194304) } })

/-- SWM_INVAL_DONE: the invalidation in progress completes; a held one starts. -/
def execSwmInvalDone (s : State) : Host.Outcome State Fault Refusal :=
  .next (match s.hst.swmInval with
    | none => s
    | some (t, _) =>
      let c := if t = 4194304 then [] else Map.erase s.hst.swmCache t
      match s.hst.swmHeld with
      | some h => { s with hst := { s.hst with swmCache := c, swmInval := some (h, s.rnd.round), swmHeld := none } }
      | none => { s with hst := { s.hst with swmCache := c, swmInval := none } }.setFlag R.hptStatus 0 false)

/-! ### Host DMA engines (R709 to R714) -/

/-- State of an engine in HPT_DMA_k_STATUS. -/
def State.dmaState (s : State) (k v : Nat) : State := s.setFld (R.hptDmaStatus k) 2 0 v

/-- An engine's transfer ends in a state: its leave returns to the pool, and its vector is sent when irq is 1. -/
def State.endHostDma (s : State) (k st : Nat) (d : HostDma) : State :=
  let s := { s with hst := { s.hst with dma := Map.erase s.hst.dma k } }
  let s := (s.poolRelease (.hostDma k)).dmaState k st
  let s := if st = 2 then s else s.hubEvent 0x0D09 [(1, k), (1, st), (4, s.fld (R.hptDmaStatus k) 20 3)]
  if d.irq then s.sendCtl d.vector else s

/-- The transfer of an engine. -/
def State.hostDma? (s : State) (k : Nat) : Option HostDma := Map.get? s.hst.dma k

/-- The transfer of an engine replaced. -/
def State.setHostDma (s : State) (k : Nat) (d : HostDma) : State :=
  { s with hst := { s.hst with dma := Map.set s.hst.dma k d } }

/-- One line written to the destination: STATUS.lines counts a line to a host as it is sent, and one to HBM when it is
acknowledged. -/
def State.hostDmaPut (s : State) (k : Nat) (d : HostDma) (bytes : List Nat) : State :=
  let a := d.dst + 128 * d.lines
  let d' := { d with sent := d.sent + 1, lines := d.lines + 1 }
  if inSwm a then
    match s.swmLookup a true with
    | (s, .ok port _ _ h) => ((s.hostWrite port h bytes).setHostDma k d').addFld (R.hptDmaStatus k) 20 3 1
    | (s, .miss) => (s.windowFail k .miss ((a - swmLo) / 65536)).endHostDma k 3 d
    | (s, .hostError pt fn) => (s.windowFail k (.hostError pt fn) ((a - swmLo) / 65536)).endHostDma k 4 d
  else (s.writeDevice (.engine 0) (tagHostDma k) d.mask a bytes).setHostDma k d'

/-- An engine that holds leave takes its next line: from HBM at once, from a host by a read request of which one at a
time is out. -/
def State.hostDmaNext (s : State) (k : Nat) : State :=
  match s.hostDma? k with
  | none => s
  | some d =>
    let a := d.src + 128 * d.sent
    if !s.poolHas (.hostDma k) || d.len ≤ 128 * d.sent || s.hst.reads.any (fun q => match q.2.who with | .hostDma j _ => j == k | _ => false) then s
    else if inSwm a then
      match s.swmLookup a false with
      | (s, .ok port func pasid h) => s.hostAsk { who := .hostDma k d.sent, port := port, func := func, pasid := pasid, addr := h, len := 128 }
      | (s, .miss) => (s.windowFail k .miss ((a - swmLo) / 65536)).endHostDma k 3 d
      | (s, .hostError pt fn) => (s.windowFail k (.hostError pt fn) ((a - swmLo) / 65536)).endHostDma k 4 d
    else if s.poisoned a 128 then s.endHostDma k 4 d
    else s.hostDmaPut k d (s.deviceBytes a 128)

/-- An engine runs: every line of a transfer from HBM, or the next request of one from a host. -/
def State.hostDmaRun (s : State) (k : Nat) : State :=
  match s.hostDma? k with
  | none => s
  | some d => (List.range (d.len / 128 - d.sent)).foldl (fun s _ => s.hostDmaNext k) s

/-- A transfer's ranges are allowed (R709, R711). -/
def State.dmaRanges (s : State) (d : HostDma) : Bool :=
  let kind (a : Nat) : Nat :=
    if s.inHbm a && (d.len = 0 || s.inHbm (a + d.len - 1)) then 1 else if inSwm a && (d.len = 0 || inSwm (a + d.len - 1)) then 2 else 0
  kind d.src != 0 && kind d.dst != 0 && !(kind d.src == 2 && kind d.dst == 2) && d.src % 128 == 0 && d.dst % 128 == 0 &&
    d.len % 128 == 0 && d.len ≤ 2 ^ 24 && !(d.mask != 0 && kind d.dst == 2)

/-- HOST_DMA_START: a write of HPT_DMA_k_CTL with go set: the transfer is checked and pool leave asked for. -/
def execHostDmaStart (engine : Nat) (v : Word) (s : State) : Host.Outcome State Fault Refusal :=
  let n := v.toNat
  let s := s.setReg (R.hptDmaCtl engine) (n - n % 2 - bits n 15 13 * 2 ^ 13)
  let d : HostDma := { src := s.pair (R.hptDmaSrcLo engine) (R.hptDmaSrcHi engine), dst := s.pair (R.hptDmaDstLo engine) (R.hptDmaDstHi engine), len := s.fld (R.hptDmaLen engine) 24 0, mask := bits n 31 16, irq := bit n 1, vector := bits n 12 2, sent := 0, lines := 0 }
  .next (if !bit n 0 || (s.hostDma? engine).isSome || !s.unitsRun then s
    else if !s.dmaRanges d then (s.dmaState engine 6).setFld (R.hptDmaStatus engine) 20 3 0
    else
      match s.poolRequest (.hostDma engine) 4 with
      | (s, false) => (s.dmaState engine 5).setFld (R.hptDmaStatus engine) 20 3 0
      | (s, true) => ((s.setHostDma engine d).dmaState engine 1).setFld (R.hptDmaStatus engine) 20 3 0)

/-- HOST_DMA_DONE: every line is written at device scope: state 2, and the vector (R713). -/
def execHostDmaDone (engine : Nat) (s : State) : Host.Outcome State Fault Refusal :=
  .next (s.whenRun fun s =>
    match s.hostDma? engine with
    | none => s
    | some d =>
      if d.len ≤ 128 * d.lines && s.poolHas (.hostDma engine) && s.writesOut (tagHostDma engine) == 0 then s.endHostDma engine 2 d
      else s)

/-! ### Page streams (R715 to R727) -/

/-- A stream that has done nothing. -/
def PStream.idle : PStream :=
  { st := 0, desc := none, producer := none, r := 0, lens := [], ended := false, pos := 0, incomplete := false,
    rose := false, since := 0, told := 0 }

/-- Page stream `k`. -/
def State.stream (s : State) (k : Nat) : PStream := Map.getD s.hst.streams k PStream.idle

/-- Page stream `k` replaced. -/
def State.setStream (s : State) (k : Nat) (x : PStream) : State :=
  { s with hst := { s.hst with streams := Map.set s.hst.streams k x } }

/-- The descriptor in 32 bytes, unless a field is out of range, a reserved one is set, the buffer lies outside HBM or
the function does not exist (R716). -/
def State.parseDesc (s : State) (b : List Nat) : Option PageDesc :=
  let d : PageDesc := { enable := bit (fieldAt b 0 1) 0, func := fieldAt b 1 1, port := fieldAt b 2 1, pageLog2 := fieldAt b 3 1, pages := fieldAt b 4 2, vector := fieldAt b 6 2, buf := fieldAt b 8 8, irqPage := bit (fieldAt b 0x10 1) 0, irqIncomplete := bit (fieldAt b 0x10 1) 1 }
  let size := d.pages * 2 ^ d.pageLog2
  if fieldAt b 0 1 < 2 && d.func < 64 && d.port < 2 && 12 ≤ d.pageLog2 && d.pageLog2 ≤ 16 && 2 ≤ d.pages && d.pages ≤ 4096 &&
      d.vector < 2048 && d.buf % 2 ^ d.pageLog2 == 0 && fieldAt b 0x10 1 < 4 && (b.drop 0x11).all (· == 0) &&
      s.inHbm d.buf && s.inHbm (d.buf + size - 1) && s.funcOk d.port d.func then some d else none

/-- A stream's descriptor, read and cached when it is not (R716); a bad one puts an idle stream in state 3. -/
def State.useDesc (s : State) (k : Nat) : State :=
  let x := s.stream k
  if x.desc.isSome || x.st != 0 then s
  else
    let a := s.pair R.pstTblBaseLo R.pstTblBaseHi + 32 * k
    if !(s.inHbm a && s.inHbm (a + 31)) || s.poisoned a 32 then s.setStream k { x with st := 3 }
    else
      match s.parseDesc (s.deviceBytes a 32) with
      | some d => s.setStream k { x with desc := some d }
      | none => s.setStream k { x with st := 3 }

/-- The owner of a stream: port and function. -/
def State.streamOwner (s : State) (k : Nat) : Option (Nat × Nat) :=
  match (s.stream k).desc with
  | some d => if d.enable then some (d.port, d.func) else none
  | none => none

/-- The stream behind aperture `ap` of a function's BAR4 (R698): any of the 64 for a PF, one of the four
lowest-numbered that it owns for a VF. -/
def State.apertureStream (s : State) (port func ap : Nat) : State × Option Nat :=
  if s.isPf port func then ((if ap < 64 then s.useDesc ap else s), if ap < 64 then some ap else none)
  else
    let s := (List.range 64).foldl State.useDesc s
    (s, (((List.range 64).filter fun k => s.streamOwner k == some (port, func)).take 4)[ap]?)

/-- A producer names a stream: it becomes the stream's producer when the stream is idle and enabled (R717). -/
def State.bindStream (s : State) (k : Nat) (p : Producer) : State × Bool :=
  let s := s.useDesc k
  let x := s.stream k
  if x.st = 0 && (s.streamOwner k).isSome then
    (s.setStream k { x with st := 1, producer := some p, r := 0, lens := [], ended := false, pos := 0, incomplete := false, told := 0, since := s.mod.islandUs }, true)
  else (s, false)

/-- Bytes of a page of a stream. -/
def State.pageBytes (s : State) (k : Nat) : Nat := match (s.stream k).desc with | some d => 2 ^ d.pageLog2 | none => 4096

/-- A slot is free for the producer's next page (R718). -/
def State.pageRoom (s : State) (k : Nat) : Bool :=
  match (s.stream k).desc with
  | some d => (s.stream k).producer.isSome && !(s.stream k).ended && (s.stream k).lens.length < d.pages
  | none => false

/-- The producer writes its next page into its slot and publishes it (R718). -/
def State.publish (s : State) (k : Nat) (bytes : List Nat) (last : Bool) (tag : Nat) : State :=
  let x := s.stream k
  match x.desc with
  | none => s
  | some d =>
    if !s.pageRoom k then s
    else
      let slot := (x.r + x.lens.length) % d.pages
      let s := s.writeDevice (.engine 0) tag 0 (d.buf + slot * 2 ^ d.pageLog2) bytes
      let first := x.lens.isEmpty
      s.setStream k { x with lens := x.lens ++ [bytes.length], ended := last, rose := x.rose || first, since := if first then s.mod.islandUs else x.since }

/-- The pages of a cairn readout that find a free slot (R869). -/
def State.cairnPages : Nat → State → State
  | 0, s => s
  | fuel + 1, s =>
    match s.crn.streamRead with
    | none => s
    | some r =>
      if r.total ≤ r.sent || (s.stream r.stream).producer != some .cairn || !s.pageRoom r.stream then s
      else
        let n := s.pageBytes r.stream
        let (s, b) := s.readoutChunk r n
        let r' := { r with sent := r.sent + b.length }
        let s := s.publish r.stream b (r.total ≤ r'.sent) tagCairn
        State.cairnPages fuel { s with crn := { s.crn with streamRead := some r' } }

/-- A page-view read or an acknowledgement restarts the timer and returns an incomplete stream to open (R721, R722). -/
def PStream.touched (x : PStream) (now : Nat) : PStream := { x with st := if x.st = 2 then 1 else x.st, since := now }

/-- The registers of a stream's aperture, from offset 0x1_0000. -/
def PStream.reg (x : PStream) (o : Nat) : Nat :=
  if o = 0 then x.st + 4 * x.incomplete.toNat + 8 * (x.lens.length == 1 && x.ended).toNat + 16 * x.lens.length
  else if o = 4 then x.r % 2 ^ 32
  else if o = 8 then x.lens.headD 0
  else if o = 12 then x.pos
  else 0

/-- The bytes that the page view shows: those of the page at r, zeros beyond its length. -/
def State.pageView (s : State) (k off n : Nat) : List Nat :=
  let x := s.stream k
  match x.desc with
  | none => List.replicate n 0
  | some d =>
    (List.range n).map fun i =>
      if off + i < x.lens.headD 0 then s.deviceByte (d.buf + x.r % d.pages * 2 ^ d.pageLog2 + off + i) else 0

/-- PAGE_VIEW_READ: a read through BAR4: the page view, or the stream's registers (R719, R722); Completer Abort in a
dry stop. -/
def execPageViewRead (port func ap off n : Nat) (s : State) : Host.Outcome State Fault Refusal :=
  .next (if s.pwr.halted || s.flag R.fltStatus 0 then s.hostAnswer 2 0
    else
      match s.apertureStream port func ap with
      | (s, none) => s.hostAnswer 0 0
      | (s, some k) =>
        let x := s.stream k
        if 0x10000 ≤ off then s.hostAnswer 0 (x.reg (off - 0x10000))
        else
          let s := if x.st = 1 || x.st = 2 then
              s.setStream k { x.touched s.mod.islandUs with pos := if x.lens = [] then x.pos else max x.pos (min (off + n) 65536) } else s
          s.hostAnswer 0 (leVal (s.pageView k off n)))

/-- PAGE_ACK: a write of PST_S_ACK: page r is acknowledged (R720, R723). -/
def execPageAck (port func ap : Nat) (r : Word) (s : State) : Host.Outcome State Fault Refusal :=
  .next (if s.pwr.halted || s.flag R.fltStatus 0 then s
    else
      match s.apertureStream port func ap with
      | (s, none) => s.refuseAccess port func 4 (ap * 0x20000 + 0x10010) 4
      | (s, some k) =>
        let x := s.stream k
        if s.streamOwner k != some (port, func) then s.refuseAccess port func 4 (ap * 0x20000 + 0x10010) 4
        else
          match x.lens with
          | [] => s.refuseAccess port func 4 (ap * 0x20000 + 0x10010) 3
          | _ :: ls =>
            if r.toNat != x.r % 2 ^ 32 then s.refuseAccess port func 4 (ap * 0x20000 + 0x10010) 3
            else
              let x := { x.touched s.mod.islandUs with r := x.r + 1, lens := ls, pos := 0 }
              if ls.isEmpty && x.ended then
                s.setStream k { x with st := 0, producer := none, told := if x.incomplete then 2 else 1, incomplete := false }
              else
                let s := s.setStream k x
                if x.producer = some .tarn then s.tarnSlot else s.cairnPages 1)

/-- STREAM_TIMEOUT: the stream timer reaches PST_TIMEOUT (R721, R726). -/
def execStreamTimeout (stream : Nat) (s : State) : Host.Outcome State Fault Refusal :=
  let x := s.stream stream
  let ms := s.fld R.pstTimeout 15 0
  .next (s.whenRun fun s =>
    if x.st = 1 && !x.lens.isEmpty && ms != 0 && decide (x.since + 1000 * ms ≤ s.mod.islandUs) then
      let s := s.setStream stream { x with st := 2, incomplete := true, since := s.mod.islandUs }
      let s := match s.trn.pass, x.producer with
        | some p, some .tarn => s.setPass { p with giveUp := s.fld R.trnCfg 15 0 }
        | _, _ => s
      let s := match x.desc with
        | some d => if d.irqIncomplete then s.sendVector d.port d.func d.vector else s
        | none => s
      s.hubEvent 0x0D07 [(1, stream), (4, x.r), (4, x.pos)]
    else s)

/-- A stream's pages that are not acknowledged are discarded, and its producer is told (R724). Causes: 0 the owner's
write, 1 function-level reset, 2 Tarn itself. -/
def State.abortStream (s : State) (k cause : Nat) : State :=
  let x := s.stream k
  if x.st = 1 || x.st = 2 then
    let s := s.setStream k { x with st := 0, producer := none, lens := [], ended := false, pos := 0, incomplete := false, told := 3 }
    let s := if x.producer = some .tarn then s.tarnEnd 11 0 else s
    s.hubEvent 0x0D08 [(1, k), (2, x.lens.length), (1, evCode 0x0D08 cause)]
  else s

/-- STREAM_ABORT: a write of 1 to PST_S_CTL.abort by the owning function (R724). -/
def execStreamAbort (port func ap : Nat) (s : State) : Host.Outcome State Fault Refusal :=
  .next (if s.pwr.halted || s.flag R.fltStatus 0 then s
    else
      match s.apertureStream port func ap with
      | (s, none) => s.refuseAccess port func 4 (ap * 0x20000 + 0x10014) 4
      | (s, some k) =>
        if s.streamOwner k = some (port, func) then s.abortStream k 0
        else s.refuseAccess port func 4 (ap * 0x20000 + 0x10014) 4)

/-- PST_INVAL: cached descriptors are to be dropped; PST_STATUS.inval_busy (R716, R922). -/
def execPstInval (v : Word) (s : State) : Host.Outcome State Fault Refusal :=
  let t := if bit v.toNat 16 then 64 else bits v.toNat 5 0
  .next (match s.hst.pstInval, s.hst.pstHeld with
    | none, _ => { s with hst := { s.hst with pstInval := some (t, s.rnd.round) } }.setFlag R.pstStatus 0 true
    | some _, none => { s with hst := { s.hst with pstHeld := some t } }
    | some _, some h => { s with hst := { s.hst with pstHeld := some (if h = t then h else 64) } })

/-- PST_INVAL_DONE: the cached descriptors of streams that have no producer are dropped, bad ones too; a held
invalidation starts. A stream with a producer keeps the descriptor it was opened with (log entry 52). -/
def execPstInvalDone (s : State) : Host.Outcome State Fault Refusal :=
  .next (match s.hst.pstInval with
    | none => s
    | some (t, _) =>
      let f (k : Nat) (x : PStream) : PStream :=
        if (t = 64 || k = t) && x.producer.isNone then { x with desc := none, st := if x.st = 3 then 0 else x.st } else x
      let s := { s with hst := { s.hst with streams := Map.mapVals s.hst.streams f } }
      match s.hst.pstHeld with
      | some h => { s with hst := { s.hst with pstInval := some (h, s.rnd.round), pstHeld := none } }
      | none => { s with hst := { s.hst with pstInval := none } }.setFlag R.pstStatus 0 false)

/-! ### Completions (R707, R708, R714) -/

/-- A read request of the HX8 that has been answered. -/
def State.takeRead (s : State) (id : Nat) : State := { s with hst := { s.hst with reads := Map.erase s.hst.reads id } }

/-- A sequencer's memory port has its word. -/
def State.seqData (s : State) (d v : Nat) : State := s.setSeq d { s.seqSt d with bus := v % 2 ^ 32, busDone := true }

/-- A host error with a completion status (4 for a timeout) reaches the requester. A sequencer's read then returns a free value (log entry 53). -/
def State.hostFail (s : State) (r : HostRead) (status : Nat) : State :=
  match r.who with
  | .core h c sl tag line => s.faultLine { half := h, core := c, slot := sl } tag line 2
  | .hostDma k _ =>
    match s.hostDma? k with
    | some d => (s.windowFail k (.hostError r.port r.func) 0 status).endHostDma k 4 d
    | none => s
  | .seq d _ => (s.seqData d (Config.freeValue s.free)).drawn
  | .ringDma _ _ => s
  | .ringBell _ => s
  | .tarn i _ => if s.trn.pass.isSome then (s.windowFail 33 (.hostError r.port r.func) 0 status).tarnEnd 8 i else s
  | .census => s

/-- Data from the host reaches the requester. -/
def State.hostData (s : State) (r : HostRead) (data : List Nat) : State :=
  match r.who with
  | .core h c sl tag line => s.answerLine { half := h, core := c, slot := sl } tag line (leVal (padTo 128 data))
  | .hostDma k _ =>
    match s.hostDma? k with
    | some d => (s.hostDmaPut k d (padTo 128 data)).hostDmaNext k
    | none => s
  | .seq d _ => s.seqData d (leVal (data.take 4))
  | .ringDma _ _ => s
  | .ringBell _ => s
  | .tarn _ l => match s.trn.pass with
    | some p => s.setPass { p with lines := Map.set p.lines l (padTo 128 data) }
    | none => s
  | .census => s

/-- HOST_COMPLETION: a completion with its status (0 successful, 1 Unsupported Request, 2 Completer Abort, 3 poisoned
data) and data answers a read request. -/
def execHostCompletion (id status : Nat) (data : List Nat) (s : State) : Host.Outcome State Fault Refusal :=
  .next (match Map.get? s.hst.reads id with
    | none => s
    | some r =>
      let s := s.takeRead id
      if !s.unitsRun then s else if status = 0 then
        let s := { s with host := Mem.writeBytes s.host (hostKey r.port r.addr) (padTo r.len data) }
        s.hostData r data
      else s.hostFail r status)

/-- HOST_COMPLETION_TIMEOUT: no completion within HPT_CFG.cto (R707). -/
def execHostCompletionTimeout (id : Nat) (s : State) : Host.Outcome State Fault Refusal :=
  .next (match Map.get? s.hst.reads id with
    | none => s
    | some r => let s := s.takeRead id; if s.unitsRun then s.hostFail r 4 else s)

end Sys2Proof.Machine
end

