-- ==== Sys2Proof/Machine/Ring.lean ====
section
/-! DEFINITION. The ring: ports, frames, transactions as source and as target, the ring map, joining and departure, and
ring DMA engines (R729 to R765). The census is in Machine/Census.lean. Port 0 is east, port 1 west. -/

namespace Sys2Proof.Machine

/-! ### Ports -/

/-- A port that has just come up: 512 credits of each class (R738). -/
def RPort.fresh (name id inc serial : Nat) : RPort :=
  { nbName := name, nbId := id, nbInc := inc, nbSerial := serial, reqCredits := 512, rspCredits := 512, items := [], naks := [],
    rsps := [], transit := [], sent := [], replays := [], damaged := [], turns := 0, held := [] }

/-- A port. -/
def State.rport (s : State) (p : Nat) : RPort := Map.getD s.rng.ports p (RPort.fresh 0 0xFF 0 0)

/-- A port replaced. -/
def State.setRport (s : State) (p : Nat) (x : RPort) : State :=
  { s with rng := { s.rng with ports := Map.set s.rng.ports p x } }

/-- State of a port in RNG_STATE: 0 down, 1 training, 2 up, 3 foreign; and its trained generation. -/
def State.portSt (s : State) (p : Nat) : Nat := s.fld R.rngState (10 + 4 * p) (9 + 4 * p)
def State.portGen (s : State) (p : Nat) : Nat := s.fld R.rngState (12 + 4 * p) (11 + 4 * p)

/-- A port's state and generation set. -/
def State.setPortSt (s : State) (p st gen : Nat) : State :=
  (s.setFld R.rngState (10 + 4 * p) (9 + 4 * p) st).setFld R.rngState (12 + 4 * p) (11 + 4 * p) gen

/-- A port carries a control item: an up port every one, a foreign port only this member's own roll marks (R746). -/
def State.carries (s : State) (p : Nat) (i : CtlItem) : Bool :=
  s.portSt p == 2 || (s.portSt p == 3 && (match i with | .mark m => m.origin == s.myId | _ => false))

/-- A control item queued on a port that carries it. -/
def State.sendItem (s : State) (p : Nat) (i : CtlItem) : State :=
  if s.carries p i then
    let x := s.rport p
    s.setRport p { x with items := x.items ++ [i] }
  else s

/-! ### The ring map (R743, R744) -/

/-- A walk east (false) or west from a member: how many hops reach `m`, within `fuel` hops (R743). -/
def walkMap (members : Table Member) (west : Bool) (m : Nat) : Nat → Nat → Option Nat
  | 0, _ => none
  | f + 1, at_ =>
    if at_ = m then some 0
    else
      match Map.get? members at_ with
      | none => none
      | some x =>
        if (if west then x.mark.westUp else x.mark.eastUp) then
          (walkMap members west m f (if west then x.mark.westNb else x.mark.eastNb)).map (· + 1)
        else none

/-- Hops from this member through port `p` to member `m`. -/
def State.hopsTo (s : State) (p m : Nat) : Option Nat :=
  if s.portSt p != 2 then none
  else (walkMap s.rng.members (p == 1) m 32 (s.rport p).nbId).map (· + 1)

/-- RNG_MAP follows the marks; members without a path are missing from now on. -/
def State.showMap (s : State) : State :=
  (List.range 32).foldl (fun s m =>
    if m = s.myId && s.rng.switchesOpen then s.setReg (R.rngMap m) (1 + 2 ^ 16 * s.myInc)
    else
      match Map.get? s.rng.members m with
      | none => s.setReg (R.rngMap m) 0
      | some x =>
        let e := s.hopsTo 0 m
        let w := s.hopsTo 1 m
        let lost := e.isNone && w.isNone
        let x' := { x with missing := if lost then some (x.missing.getD s.mod.islandUs) else none }
        let s := { s with rng := { s.rng with members := Map.set s.rng.members m x' } }
        s.setReg (R.rngMap m) (1 + 2 * e.isSome.toNat + 4 * w.isSome.toNat + 8 * x.mark.stopped.toNat +
          16 * (e.getD 0) + 2 ^ 9 * (w.getD 0) + 2 ^ 16 * x.mark.inc)) s

/-- RNG_STATE.state: off, joining, chain, closed, departing or duplicate. -/
def State.ringKind (s : State) : Nat :=
  if !s.rng.switchesOpen then 0
  else if s.rng.departing.isSome then 4
  else if s.rng.duplicate then 5
  else if s.rng.joining then 1
  else if s.rng.loop && s.portSt 0 == 2 && s.portSt 1 == 2 then 3
  else if s.portSt 0 == 2 || s.portSt 1 == 2 then 2
  else 1

/-- The map and RNG_STATE follow the marks and the ports; event 0x0E03 when the state changes. -/
def State.showRing (s : State) : State :=
  let s := s.showMap
  let members := ((List.range 32).filter fun m => s.inMap m).length
  let old := s.fld R.rngState 2 0
  let new := s.ringKind
  let s := (s.setFld R.rngState 2 0 new).setFld R.rngState 8 3 members
  if old = new then s else s.hubEvent 0x0E03 [(1, old), (1, new), (1, members)]

/-! ### Requests of this member (R752, R753, R756, R757) -/

/-- Key of a pair by the other member and its incarnation. -/
def pairKey (m inc : Nat) : Nat := m * 65536 + inc

/-- A request of this member. -/
def State.rtxn? (s : State) (k : Nat) : Option RTxn := Map.get? s.rng.txns k

/-- A request of this member forgotten. -/
def State.dropRtxn (s : State) (k : Nat) : State :=
  { s with rng := { s.rng with txns := Map.erase s.rng.txns k, queue := s.rng.queue.filter (· != k) } }

/-- A ring DMA engine ends in a state (R764). -/
def State.endRingDma (s : State) (e st : Nat) (d : RingDma) : State :=
  let s := { s with rng := { s.rng with dma := Map.erase s.rng.dma e } }
  let s := (s.poolRelease (.ringDma e)).setFld (R.rngDmaStatus e) 2 0 st
  if st = 2 then (if d.irq then s.sendCtl d.vector else s)
  else s.hubEvent 0x0E0C [(1, e), (1, st), (4, s.fld (R.rngDmaStatus e) 20 3)]

/-- A ring DMA engine's transfer. -/
def State.ringDma? (s : State) (e : Nat) : Option RingDma := Map.get? s.rng.dma e
def State.setRingDma (s : State) (e : Nat) (d : RingDma) : State :=
  { s with rng := { s.rng with dma := Map.set s.rng.dma e d } }

/-- A request completes with LINK_LOST: a core meets resumable fault 3, a ring DMA engine stops, a sequencer's read
returns a free value (R757, R760, R764). -/
def State.loseRtxn (s : State) (k cause : Nat) : State :=
  match s.rtxn? k with
  | none => s
  | some t =>
    let s := (s.dropRtxn k).lostCount t.pkt.dst cause
    let stop (e : Nat) : State := match s.ringDma? e with | some d => s.endRingDma e 3 d | none => s
    match t.who with
    | .core h c sl tag line => s.faultLine { half := h, core := c, slot := sl } tag line 3
    | .ringDma e _ => stop e
    | .ringBell e => stop e
    | .seq d _ => (s.seqData d (Config.freeValue s.free)).drawn
    | .hostDma _ _ => s
    | .tarn _ _ => s
    | .census => s

/-- Requests that meet `f` complete with LINK_LOST. -/
def State.loseWhere (s : State) (cause : Nat) (f : RTxn → Bool) : State :=
  (Map.keysWhere s.rng.txns fun _ t => f t).foldl (fun s k => s.loseRtxn k cause) s

/-- This member may send requests of its own (R746, R748, R749, R763). -/
def State.maySend (s : State) : Bool :=
  s.rng.switchesOpen && !s.rng.joining && !s.rng.duplicate && s.rng.departing.isNone && !s.pwr.halted

/-- The partition of a core's request. -/
def State.rtxnPart (s : State) (t : RTxn) : Option Nat :=
  match t.who with
  | .core h _ _ _ _ => s.partOfHalf h
  | _ => none

/-- A request may go out of port `p` now: that is its pair's direction with a path; and, unless it is sent again, the
pair has fewer than 256 and the member fewer than 2,048 outstanding (R752, R753). -/
def State.canGo (s : State) (p k : Nat) : Bool :=
  match s.rtxn? k with
  | none => false
  | some t =>
    let m := t.pkt.dst
    let out := s.rng.txns.filter fun q => q.2.sent
    (if p = 0 then s.pathE m else s.pathW m) && s.ringDir m == p && s.inMap m &&
      (t.sent || (decide (out.length < 2048) && decide ((s.pairTxns m).length < 256)))

/-- The lowest tag that no outstanding request has. -/
def State.freeTag (s : State) : Nat :=
  let used := (s.rng.txns.filter fun q => q.2.sent).map fun q => q.2.pkt.tag
  ((List.range 2048).find? fun t => !used.contains t).getD 0

/-- A request's packet as it goes out: the first time with incarnations, pair sequence and tag, then as it was. -/
def State.stampTxn (s : State) (k : Nat) : State × Option RPkt :=
  match s.rtxn? k with
  | none => (s, none)
  | some t =>
    if t.sent then ({ s with rng := { s.rng with queue := s.rng.queue.filter (· != k) } }, some t.pkt) else
    let inc := s.mapInc t.pkt.dst
    let key := pairKey t.pkt.dst inc
    let seq := Map.getD s.rng.seqOut key 0
    let p := { t.pkt with src := s.myId, srcInc := s.myInc, dstInc := inc, seq := seq, tag := s.freeTag, hops := 0, retry := false }
    let rng := { s.rng with txns := Map.set s.rng.txns k { t with pkt := p, sent := true, dir := s.ringDir t.pkt.dst }, seqOut := Map.set s.rng.seqOut key (seq + 1), queue := s.rng.queue.filter (· != k) }
    ({ s with rng := rng }, some p)

/-! ### Frames (R733 to R738) -/

/-- Control and packet slots of a frame, and its control items without the frame item. -/
def ctlItems (gen : Nat) : Nat := if gen = 2 then 39 else 19
def pktSlots (gen : Nat) : Nat := if gen = 2 then 56 else 28
def firstSlot (gen : Nat) : Nat := if gen = 2 then 4 else 2

/-- A packet is a response. -/
def PktKind.isRsp : PktKind → Bool
  | .put | .get | .doorbell | .crec | .other => false
  | _ => true

/-- A credit of the class goes back to the neighbour a packet came from. -/
def State.giveBack (s : State) (p : Nat) (rsp : Bool) : State :=
  let x := s.rport p
  let c := rsp.toNat
  match x.items.findIdx? (fun i => match i with | .credit k _ => k == c | _ => false) with
  | some i =>
    s.setRport p { x with items := x.items.modify i fun j => match j with | .credit k n => .credit k (n + 1) | j => j }
  | none => s.sendItem p (.credit c 1)

/-- A frame's own requests: those of the partition whose booked bulk turn it is first, then the others, in order. -/
def State.ownOrder (s : State) (p : Nat) : List Nat :=
  let e := ttOwner (s.ttEntry s.bank 6 p 1 s.rnd.turn)
  let mine (k : Nat) : Bool :=
    match e, s.rtxn? k with
    | some (part, cls), some t => s.rtxnPart t == some part && cls == 2
    | _, _ => false
  (s.rng.queue.filter mine) ++ s.rng.queue.filter fun k => !mine k

/-- One more packet of this member's own for a port's frame: the first that may go, while the credits cover two. -/
def State.fillOwn (s : State) (p room : Nat) (pkts : List RPkt) : State × List RPkt :=
  if room ≤ pkts.length || (s.rport p).reqCredits < 2 || !s.maySend || s.portSt p != 2 then (s, pkts)
  else
    match (s.ownOrder p).find? (s.canGo p) with
    | none => (s, pkts)
    | some k =>
      match s.stampTxn k with
      | (s, none) => (s, pkts)
      | (s, some q) =>
        let x := s.rport p
        (s.setRport p { x with reqCredits := x.reqCredits - 1 }, pkts ++ [q])

/-- A response of this member, or one in transit, may go while the credits cover it. -/
def State.fillRsp (s : State) (p room : Nat) (pkts : List RPkt) : State × List RPkt :=
  let x := s.rport p
  let own (q : RPkt) : Bool := q.dst == s.myId && q.hops == 0
  match x.rsps with
  | [] => (s, pkts)
  | q :: qs =>
    if room ≤ pkts.length || x.rspCredits < (if own q then 2 else 1) then (s, pkts)
    else
      let s := s.setRport p { x with rsps := qs, rspCredits := x.rspCredits - 1 }
      (if own q then s else s.giveBack (1 - p) true, pkts ++ [q])

/-- A request in transit may go while the credits cover it. -/
def State.fillTransit (s : State) (p room : Nat) (pkts : List RPkt) : State × List RPkt :=
  let x := s.rport p
  match x.transit with
  | [] => (s, pkts)
  | q :: qs =>
    if room ≤ pkts.length || x.reqCredits < 1 then (s, pkts)
    else
      let s := s.setRport p { x with transit := qs, reqCredits := x.reqCredits - 1 }
      (s.giveBack (1 - p) false, pkts ++ [q])

/-- An answer queued on the port its request came in by. -/
def State.respond (s : State) (p : Nat) (q : RPkt) : State :=
  let x := s.rport p
  s.setRport p { x with rsps := x.rsps ++ [q] }

/-- The answer to a request (R735). -/
def State.answerTo (s : State) (q : RPkt) (kind : PktKind) (data status : Nat) : RPkt :=
  { q with kind := kind, retry := false, mc := false, mask := if kind = .getData then q.mask else 0, dstInc := s.myInc, halfMask := 0, status := status, hops := 0, bytes := 0, data := data }

/-- An answer recorded for its pair, newest first, the last 256 (R754). -/
def State.recordAnswer (s : State) (q : RPkt) : State :=
  let k := pairKey q.src q.srcInc
  { s with rng := { s.rng with answers := Map.set s.rng.answers k ((q :: Map.getD s.rng.answers k []).take 256) } }

/-- Inbound writes that have been performed at device scope are answered (R755). -/
def State.answerInbound (s : State) : State :=
  s.rng.inbound.foldl (fun s r =>
    if s.writesOut (tagRingIn r.1) != 0 then s
    else
      let a := s.answerTo r.2.pkt (if r.2.pkt.kind = .crec then .crecAck else .putAck) 0 0
      let s := { s with rng := { s.rng with inbound := Map.erase s.rng.inbound r.1 } }
      (s.recordAnswer a).respond r.2.port a) s

/-- RING_FRAME_SEND: an up port fills and sends its frame of a turn: control items, replays, responses, transit, own
requests; every 8,192nd turn is a skip turn (R733, R737, R738). -/
def execRingFrameSend (port : Nat) (s : State) : Host.Outcome State Fault Refusal :=
  .next (let st := s.portSt port
    let x := s.rport port
    if !(st = 2 || st = 3) || s.mod.power == .off || s.mod.power == .standby then s
    else if x.turns % 8192 == 8191 then s.setRport port { x with turns := x.turns + 1 }
    else
      let gen := s.portGen port
      let s := if s.pwr.halted then s else s.answerInbound
      let x := s.rport port
      let naks := x.naks.take (ctlItems gen)
      let room0 := ctlItems gen - naks.length
      let items := (naks.map fun n => CtlItem.nak n.1 n.2.1) ++ x.items.take room0
      let left := (naks.filterMap fun n => if 1 < n.2.2 then some (n.1, n.2.1, n.2.2 - 1) else none) ++ x.naks.drop (ctlItems gen)
      let due := x.replays.filter fun r => r.1 + 4 ≤ x.turns
      let again := due.filterMap fun r => ((x.sent.find? fun f => f.turn == r.1).bind fun f => Map.get? f.pkts r.2)
      let room := if st = 3 then 0 else pktSlots gen - again.length
      let s := s.setRport port { x with items := x.items.drop room0, naks := left, replays := x.replays.filter fun r => !due.contains r }
      let grow (f : State → Nat → Nat → List RPkt → State × List RPkt) (q : State × List RPkt) : State × List RPkt :=
        (List.range room).foldl (fun (q : State × List RPkt) _ => f q.1 port room q.2) q
      let r := grow State.fillOwn (grow State.fillTransit (grow State.fillRsp (s, [])))
      let pkts := (again ++ r.2).zipIdx.map fun q => (firstSlot gen + q.2, q.1)
      let s := r.1
      let x := s.rport port
      s.setRport port { x with sent := lastK 16 (x.sent ++ [{ turn := x.turns, items := items, pkts := pkts }]), turns := x.turns + 1 })

/-! ### Slots received (R733, R735, R736, R751) -/

/-- An intact packet goes on: into transit on the other port with hops raised, or to those this member serves
(marked with 2 when they arrive after a departure's step 2). One of another type, one whose hops reaches 32 and, in a
dry stop, a request of this member's are discarded (R735, R751, R763). -/
def State.passOn (s : State) (p : Nat) (q : RPkt) : State :=
  let mine := if q.kind.isRsp then q.src == s.myId else q.dst == s.myId
  if q.kind = .other || (q.hops + 1 ≥ 32 && !mine) then (s.count R.rngDrop 1).giveBack p q.kind.isRsp
  else if mine then
    if s.pwr.halted && !q.kind.isRsp then (s.count R.rngDrop 1).giveBack p false
    else { s with rng := { s.rng with rx := s.rng.rx ++ [(p + 2 * s.rng.departing.isSome.toNat, q)] } }
  else
    let o := 1 - p
    let x := s.rport o
    let q := { q with hops := q.hops + 1 }
    s.setRport o (if q.kind.isRsp then { x with rsps := x.rsps ++ [q] } else { x with transit := x.transit ++ [q] })

/-- Packets held behind a damaged slot of their class go on once none earlier is missing. -/
def State.releaseHeld (s : State) (p : Nat) : State :=
  let x := s.rport p
  let free (h : Nat × Nat × RPkt) : Bool :=
    !(x.damaged.any fun d => d.2.2.2 == h.2.2.kind.isRsp && (d.1 < h.1 || (d.1 == h.1 && decide (d.2.1 < h.2.1))))
  let out := x.held.filter free
  (out.foldl (fun s h => s.passOn p h.2.2) (s.setRport p { x with held := x.held.filter fun h => !free h }))

/-- A port goes down, its queues lost with it, and trains again: event 0x0E02. Causes: 0 training lost, 1 a slot
damaged three times, 2 switches closed. -/
def State.portDown (s : State) (p cause : Nat) : State :=
  if s.portSt p = 0 then s
  else
    let x := s.rport p
    let s := s.setRport p { RPort.fresh 0 0xFF 0 0 with rsps := x.rsps, transit := x.transit }
    let s := s.setPortSt p (if cause = 2 then 0 else 1) 0
    let s := s.hubEvent 0x0E02 [(1, p), (1, evCode 0x0E02 cause)]
    { s with rng := { s.rng with loop := false, markDue := true } }.showRing

/-- RING_SLOT_RECEIVE: a packet slot arrives on a port in a turn of the neighbour's, itself or as the replay of an
earlier slot, with its crc good or bad (R735, R736). The kind of a damaged packet is taken as it was sent. -/
def execRingSlotReceive (port turn slot : Nat) (replay : Option (Nat × Nat)) (crcOk : Bool) (pkt : RPkt) (s : State) :
    Host.Outcome State Fault Refusal :=
  .next (if s.portSt port != 2 then s
    else
      let t := (replay.getD (turn, slot)).1
      let k := (replay.getD (turn, slot)).2
      let x := s.rport port
      let old := x.damaged.find? fun d => d.1 == t && d.2.1 == k
      let rest := x.damaged.filter fun d => !(d.1 == t && d.2.1 == k)
      if !crcOk then
        let times := (match old with | some d => d.2.2.1 | none => 0) + 1
        if 3 ≤ times then s.portDown port 1
        else (s.setRport port { x with damaged := rest ++ [(t, k, times, pkt.kind.isRsp)], naks := (x.naks.filter fun n => !(n.1 == t && n.2.1 == k)) ++ [(t, k, 2)] })
      else
        (s.setRport port { x with damaged := rest, held := x.held ++ [(t, k, pkt)] }).releaseHeld port)

/-- RING_LINK_NAK: the neighbour asks for a slot of the last 16 turns again; it goes 4 turns after its turn (R736). -/
def execRingLinkNak (port turn slot : Nat) (s : State) : Host.Outcome State Fault Refusal :=
  .next (let x := s.rport port
    if s.portSt port = 2 && (x.sent.any fun f => f.turn % 65536 == turn) then
      match x.sent.find? fun f => f.turn % 65536 == turn with
      | some f => if x.replays.contains (f.turn, slot) then s else s.setRport port { x with replays := x.replays ++ [(f.turn, slot)] }
      | none => s
    else s)

/-- RING_CREDIT: the neighbour returns slots of a class: 0 request, 1 response (R738). -/
def execRingCredit (port cls count : Nat) (s : State) : Host.Outcome State Fault Refusal :=
  .next (if s.portSt port != 2 then s
    else
      let x := s.rport port
      s.setRport port (if cls = 0 then { x with reqCredits := min 512 (x.reqCredits + count) }
        else { x with rspCredits := min 512 (x.rspCredits + count) }))

/-! ### Ports up and down (R731, R746, R748) -/

/-- RING_PORT_UP: a port has trained with its neighbour; a different ring name makes it foreign. -/
def execRingPortUp (port gen name id inc serial : Nat) (s : State) : Host.Outcome State Fault Refusal :=
  .next (if !s.rng.switchesOpen || s.portSt port = 2 then s
    else
      let own := s.fld R.rngIdCfg 31 16
      let x := s.rport port
      let s := s.setRport port { RPort.fresh name id inc serial with rsps := x.rsps, transit := x.transit }
      let s := (s.setPortSt port (if name = own then 2 else 3) gen).hubEvent 0x0E01 [(1, port), (1, gen), (1, id), (2, inc)]
      let s := if name = own then s else s.hubEvent 0x0E0E [(1, port), (2, name)]
      let s := { s with rng := { s.rng with markDue := true, loop := false, firstUp := some (s.rng.firstUp.getD s.mod.islandUs) } }
      let s := if s.rng.joining && 2 ≤ s.portSt 0 && 2 ≤ s.portSt 1 then { s with rng := { s.rng with joining := false } } else s
      s.showRing)

/-- RING_PORT_DOWN: an up port loses training and trains again. -/
def execRingPortDown (port : Nat) (s : State) : Host.Outcome State Fault Refusal :=
  .next (if 2 ≤ s.portSt port then s.portDown port 0 else s)

/-- RING_TRAIN_RETRY: a training attempt has failed and the port tries again; event 0x0E02 for the first (R731). -/
def execRingTrainRetry (port : Nat) (first : Bool) (s : State) : Host.Outcome State Fault Refusal :=
  .next (if s.rng.switchesOpen && s.portSt port < 2 then
      let s := s.setPortSt port 1 0
      if first then s.hubEvent 0x0E02 [(1, port), (1, evCode 0x0E02 3)] else s
    else s)

/-! ### Marks (R742 to R746, R750) -/

/-- This member's roll mark. -/
def State.ownMark (s : State) : RollMark :=
  { origin := s.myId, inc := s.myInc, serial := s.serial % 2 ^ 32, name := s.fld R.rngIdCfg 31 16, hops := 0,
    eastUp := s.portSt 0 == 2, westUp := s.portSt 1 == 2, stopped := s.pwr.halted, departing := s.rng.departing.isSome,
    genE := s.portGen 0, genW := s.portGen 1, eastNb := if s.portSt 0 = 2 then (s.rport 0).nbId else 0xFF,
    westNb := if s.portSt 1 = 2 then (s.rport 1).nbId else 0xFF }

/-- The own mark sent on each up port. -/
def State.sendMarks (s : State) : State :=
  (s.sendItem 0 (.mark s.ownMark)).sendItem 1 (.mark s.ownMark)

/-- A member leaves the map, and requests to it complete with LINK_LOST. -/
def State.dropMember (s : State) (m : Nat) : State :=
  let s := { s with rng := { s.rng with members := Map.erase s.rng.members m } }
  (s.loseWhere 3 fun t => t.pkt.dst == m).showRing

/-- ROLL_MARK: a mark arrives on a port: foreign and duplicate checks, the map, and forwarding. -/
def execRollMark (port : Nat) (mark : RollMark) (s : State) : Host.Outcome State Fault Refusal :=
  .next (if s.portSt port != 2 then s
    else if mark.name != s.fld R.rngIdCfg 31 16 then
      ((s.setPortSt port 3 (s.portGen port)).hubEvent 0x0E0E [(1, port), (2, mark.name)]).showRing
    else if mark.origin = s.myId then
      if mark.serial != s.serial % 2 ^ 32 then
        if s.rng.duplicate then s
        else { (s.hubEvent 0x0E06 [(1, mark.origin), (4, mark.serial)]) with rng := { s.rng with duplicate := true } }.showRing
      else if port = 1 then { s with rng := { s.rng with loop := true } }.showRing else s
    else if 32 ≤ mark.hops then s
    else
      let old := Map.get? s.rng.members mark.origin
      let fresh := match old with | some x => x.mark.inc != mark.inc | none => true
      let x : Member := { mark := mark, missing := match old with | some x => x.missing | none => none }
      let s := { s with rng := { s.rng with members := Map.set s.rng.members mark.origin x } }
      let s := if fresh then s.hubEvent 0x0E04 [(1, mark.origin), (2, mark.inc)] else s
      let s := s.loseWhere 2 fun t => t.sent && t.pkt.dst == mark.origin && t.pkt.dstInc != mark.inc
      let s := if mark.hops + 1 < 32 then s.sendItem (1 - port) (.mark { mark with hops := mark.hops + 1 }) else s
      s.showRing)

/-- DEPARTURE_MARK: a member departs: its transactions complete with LINK_LOST and it leaves the map; the mark is
passed on while the member was in the map. -/
def execDepartureMark (port id inc : Nat) (s : State) : Host.Outcome State Fault Refusal :=
  .next (if s.portSt port != 2 || id = s.myId then s
    else
      match Map.get? s.rng.members id with
      | none => s
      | some x => if x.mark.inc = inc then (s.dropMember id).sendItem (1 - port) (.departure id inc) else s)

/-- MEMBER_ABSENT: a member has been missing for RNG_CFG.hold ms (R744). -/
def execMemberAbsent (id : Nat) (s : State) : Host.Outcome State Fault Refusal :=
  .next (match Map.get? s.rng.members id with
    | none => s
    | some x =>
      match x.missing with
      | none => s
      | some t =>
        if t + 1000 * s.fld R.rngCfg 31 16 ≤ s.mod.islandUs then
          (s.hubEvent 0x0E05 [(1, id), (2, x.mark.inc)]).dropMember id
        else s)

/-- A doorbell executed: its mailbox written and marked, and the bound channel rung (R765). -/
def State.ringBell (s : State) (k v : Nat) : State :=
  let s := s.setPair (R.rngMboxLo k) (R.rngMboxHi k) v
  let s := s.setFlag (R.rngMboxPend (k / 32)) (k % 32) true
  let s := { s with rng := { s.rng with mboxDue := true } }
  if s.flag (R.rngMboxBind k) 31 then
    let c := s.fld (R.rngMboxBind k) 11 0
    match s.useEntry c with
    | (s, some e) => s.ringTail e.port e.func c (v % 2 ^ 32)
    | (s, none) => s
  else s

/-- An address lies in this member's own ring window (R759). -/
def State.ringOwn (s : State) (a : Nat) : Bool :=
  match ringOf a with
  | some (m, _) => m == s.myId && s.rng.switchesOpen
  | none => false

/-- A line of a transfer to or from this member's own window: served through the inbound window; where that refuses it
the engine stops as by LINK_LOST (R759, R761, R764). -/
def State.ringDmaOwn (s : State) (e : Nat) (d : RingDma) (o : Nat) (put : Bool) : State :=
  let dev := s.fld R.rngIn 8 0 * 2 ^ 30 + o
  let ok := o < s.fld R.rngIn 24 16 * 2 ^ 30 && s.inHbm dev && s.flag R.rngIn (if put then 29 else 28)
  let src := if put then d.src + 128 * d.sent else dev
  if !ok || s.poisoned src 128 then (s.lostCount s.myId 1).endRingDma e 3 d
  else
    let halves := if put && !s.flag R.rngIn 30 then 0 else d.mask
    (s.writeDevice (.engine 0) (tagRingDma e) halves (if put then dev else d.dst + 128 * d.sent) (s.deviceBytes src 128)).setRingDma e
      { d with sent := d.sent + 1, lines := d.lines + 1 }

/-- A ring DMA engine's next line, while it holds leave and has none in flight: a PUT of a line of HBM, a GET of a
remote line, or the doorbell after the last put (R764). In a departure it stops once it has none (R749). -/
def State.ringDmaNext (s : State) (e : Nat) : State :=
  match s.ringDma? e with
  | none => s
  | some d =>
    let busy := s.rng.txns.any fun t => match t.2.who with | .ringDma j _ => j == e | .ringBell j => j == e | _ => false
    if d.halting then (if busy then s else s.endRingDma e 3 d)
    else if !s.poolHas (.ringDma e) || busy then s
    else if d.len ≤ 128 * d.sent then
      match ringOf d.dst with
      | some (m, _) =>
        if d.db && d.lines = d.sent && s.ringOwn d.dst then
          (if s.writesOut (tagRingDma e) = 0 then (s.setRingDma e { d with db := false }).ringBell d.mbox d.value else s)
        else if d.db && d.lines = d.sent then
          (s.setRingDma e { d with db := false }).ringAsk (.ringBell e)
            { RPkt.mk0 .doorbell s.myId m s.myInc (s.mapInc m) d.mbox with data := d.value }
        else s
      | none => s
    else
      let remote := match ringOf d.dst with | some r => some (r, true) | none => (ringOf d.src).map fun r => (r, false)
      match remote with
      | none => s
      | some ((m, o), put) =>
        let off := o + 128 * d.sent
        if s.ringOwn d.dst || s.ringOwn d.src then s.ringDmaOwn e d off put
        else if !s.inMap m || s.rng.duplicate then (s.lostCount m 3).endRingDma e 3 d
        else if put then
          if s.poisoned (d.src + 128 * d.sent) 128 then s.endRingDma e 3 d
          else
            (s.setRingDma e { d with sent := d.sent + 1 }).ringAsk (.ringDma e d.sent)
              { RPkt.mk0 .put s.myId m s.myInc (s.mapInc m) off with mask := 15, mc := d.mask != 0, halfMask := d.mask, bytes := 2 ^ 128 - 1, data := leVal (s.deviceBytes (d.src + 128 * d.sent) 128) }
        else
          (s.setRingDma e { d with sent := d.sent + 1 }).ringAsk (.ringDma e d.sent)
            { RPkt.mk0 .get s.myId m s.myInc (s.mapInc m) off with mask := 15 }

/-- An engine that has got its leave runs: every line of a transfer to or from the own window, or the next one. -/
def State.ringDmaRun (s : State) (e : Nat) : State :=
  match s.ringDma? e with
  | none => s
  | some d =>
    if s.ringOwn d.dst || s.ringOwn d.src then (List.range (d.len / 128 + 1)).foldl (fun s _ => s.ringDmaNext e) s
    else s.ringDmaNext e

/-! ### Joining and departure (R741, R747 to R749) -/

/-- BYPASS_SWITCH_OPEN: in Ready and Run, enabled, with BYPASS_REQ# deasserted and no departure standing: the switches
open, the id is fixed, and the member joins. -/
def execBypassSwitchOpen (s : State) : Host.Outcome State Fault Refusal :=
  .next (if (s.mod.power == .ready || s.mod.power == .run) && s.flag R.rngCfg 0 && !s.mod.bypassReq && s.rng.departing.isNone &&
        !s.rng.switchesOpen && !s.flag R.fltStatus 0 then
      let id := (s.fld R.rngIdCfg 4 0 + s.mod.slotId) % 32
      let s := (s.setFld R.rngId 4 0 id).setFld R.rngId 31 16 s.store.incarnation
      let s := ((s.setFlag R.glbModPins 12 false).setFlag R.glbModPins 13 false).setPortSt 0 1 0 |>.setPortSt 1 1 0
      let rng := { s.rng with switchesOpen := true, joining := true, duplicate := false, firstUp := none, members := [], ports := [], loop := false, rx := [] }
      { s with rng := rng }.showRing
    else s)

/-- JOIN_END: 2 ms after the first port came up, the member stops joining (R748). -/
def execJoinEnd (s : State) : Host.Outcome State Fault Refusal :=
  .next (match s.rng.firstUp with
    | some t =>
      if s.rng.joining && decide (t + 2000 ≤ s.mod.islandUs) then
        { s with rng := { s.rng with joining := false, markDue := true } }.showRing
      else s
    | none => s)

/-- A departure starts (R749 steps 1 and 2), unless one stands. -/
def State.depart (s : State) (c : DepartCause) : State :=
  if s.rng.departing.isSome then s
  else if !s.rng.switchesOpen then
    { s with rng := { s.rng with departing := some c, departDone := true } }
  else
    let s := { s with rng := { s.rng with departing := some c, departDone := false, departGot := 0 } }
    let stopping (_ : Nat) (d : RingDma) : RingDma := { d with halting := true }
    let s := { s with rng := { s.rng with dma := Map.mapVals s.rng.dma stopping } }
    let s := (List.range 8).foldl State.ringDmaNext s
    let s := (s.sendItem 0 (.departure s.myId s.myInc)).sendItem 1 (.departure s.myId s.myInc)
    s.sendMarks.showRing

/-- The switches close: both ports are down and the map is empty. -/
def State.closeSwitches (s : State) : State :=
  let s := [0, 1].foldl (fun s p => if 2 ≤ s.portSt p then s.portDown p 2 else s) s
  let s := ((s.setFlag R.glbModPins 12 true).setFlag R.glbModPins 13 true).setPortSt 0 0 0 |>.setPortSt 1 0 0
  let rng := { s.rng with switchesOpen := false, joining := false, duplicate := false, ports := [], members := [], rx := [], inbound := [], expected := [], answers := [], loop := false, firstUp := none }
  { s with rng := rng }.showRing

/-- Code of a departure's cause in event 0x0E09: 0 BYPASS_REQ#, 1 RNG_CTL, 2 RNG_CFG.enable. -/
def DepartCause.code : DepartCause → Nat
  | .bypass => 0 | .op => 1 | .cfg => 2 | .fatal => 3

/-- DEPARTURE_COMPLETE: every outstanding transaction completes with LINK_LOST, the switches close, event 0x0E09 (R749
step 4). -/
def execDepartureComplete (s : State) : Host.Outcome State Fault Refusal :=
  .next (match s.rng.departing with
    | none => s
    | some c =>
      if s.rng.departDone then s
      else
        let n := s.rng.txns.length
        let s := (s.loseWhere 4 fun _ => true).closeSwitches
        { s.hubEvent 0x0E09 [(1, evCode 0x0E09 c.code), (2, s.rng.departGot), (2, n)] with rng := { s.rng with departDone := true } })

/-- A departure of a cause no longer stands. -/
def State.endDeparture (s : State) (c : DepartCause) : State :=
  if s.rng.departing = some c then { s with rng := { s.rng with departing := none, departDone := false } }.showRing else s

/-- RING_DEPART: a write of RNG_CTL with op 2. -/
def execRingDepart (s : State) : Host.Outcome State Fault Refusal := .next (s.whenRun fun s => s.depart .op)

/-- RING_REJOIN: a write of RNG_CTL with op 1. -/
def execRingRejoin (s : State) : Host.Outcome State Fault Refusal := .next (s.endDeparture .op)

/-- RNG_CFG as a write sets it: max_tries and hold of 0 set 1, a generation of 3 is ignored, reserved bits are 0. -/
def ringCfgValue (old v : Nat) : Nat :=
  let g (o : Nat) : Nat := if bits v (o + 1) o = 3 then bits old (o + 1) o else bits v (o + 1) o
  bits v 0 0 + 2 * g 1 + 8 * g 3 + 2 ^ 8 * max 1 (bits v 15 8) + 2 ^ 16 * max 1 (bits v 31 16)

/-- RING_CFG_WRITE: a write of RNG_CFG: it takes effect at the next round boundary (R771), and a 0 in enable starts a
departure, which a 1 ends (R749). -/
def execRingCfgWrite (v : Word) (s : State) : Host.Outcome State Fault Refusal :=
  let s := (s.later R.rngCfg (ringCfgValue (s.reg R.rngCfg) v.toNat)).setFld R.rngSel 3 0 0xF
  .next (if bit v.toNat 0 then s.endDeparture .cfg else if s.rng.switchesOpen then s.depart .cfg else s)

/-! ### Serving requests (R754, R755, R761, R762, R765) -/

/-- The oldest packet of a kind that waits to be served, with no earlier request of its source before it. -/
def takeRx (kind : PktKind) : List (Nat × RPkt) → List Nat → Option ((Nat × RPkt) × List (Nat × RPkt))
  | [], _ => none
  | q :: qs, seen =>
    if q.2.kind = kind && (kind.isRsp || !seen.contains q.2.src) then some (q, qs)
    else
      match takeRx kind qs (if q.2.kind.isRsp then seen else q.2.src :: seen) with
      | some (r, rest) => some (r, q :: rest)
      | none => none

/-- What a target does with a request by R754 before it executes it. -/
inductive Admit
  | stale | drop | old | run
  deriving DecidableEq, Repr

/-- The first row of R754 that matches. A departing member answers STALE to the requests received after its step 2. -/
def State.admitRing (s : State) (late : Bool) (q : RPkt) : Admit :=
  let e := Map.getD s.rng.expected (pairKey q.src q.srcInc) 0
  if s.rng.joining || late || s.rng.duplicate || q.dstInc != s.myInc then .stale
  else if s.mapInc q.src != q.srcInc || !s.inMap q.src then .drop
  else if e < q.seq then .drop
  else if q.seq < e then .old
  else .run

/-- A request answered STALE: RNG_STALE, and 0x0E08 once a round and source. -/
def State.stale (s : State) (p : Nat) (q : RPkt) : State :=
  let s := (s.count R.rngStale 1).oncePerRound 0x0E08 q.src (·.hubEvent 0x0E08 [(1, q.src), (2, q.dstInc)])
  s.respond p (s.answerTo q .stale 0 0)

/-- A request answered REFUSED: event 0x0E0D (R761). -/
def State.refuseRing (s : State) (p : Nat) (q : RPkt) (status : Nat) : State :=
  let s := s.hubEvent 0x0E0D [(1, q.src), (1, status), (8, q.offset)]
  let a := s.answerTo q .refused 0 status
  (s.recordAnswer a).respond p a

/-- The pair's expected sequence rises. -/
def State.bumpExpected (s : State) (q : RPkt) : State :=
  { s with rng := { s.rng with expected := Map.set s.rng.expected (pairKey q.src q.srcInc) (q.seq + 1) } }

/-- Device address of an inbound offset, or the status of the refusal (R761). -/
def State.inboundAddr (s : State) (q : RPkt) (ok : Bool) : Nat × Nat :=
  let a := s.fld R.rngIn 8 0 * 2 ^ 30 + q.offset
  if s.fld R.rngIn 24 16 * 2 ^ 30 ≤ q.offset || !(s.inHbm a && s.inHbm (a + 127)) then (a, 1)
  else if !ok then (a, 2) else (a, 0)

/-- An earlier request of the pair is still being performed. -/
def State.pairBusy (s : State) (q : RPkt) : Bool :=
  s.rng.inbound.any fun r => r.2.pkt.src == q.src && r.2.pkt.srcInc == q.srcInc && s.writesOut (tagRingIn r.1) != 0

/-- Bytes of the payload that a mask of 128 bits names, as segments of consecutive ones. -/
def segments (mask data : Nat) : List (Nat × List Nat) :=
  ((List.range 128).foldl (fun (acc : List (Nat × List Nat)) i =>
    if bit mask i then
      let b := data / 256 ^ i % 256
      match acc with
      | (o, l) :: rest => if o + l.length = i then (o, l ++ [b]) :: rest else (i, [b]) :: acc
      | [] => [(i, [b])]
    else acc) []).reverse

/-- A write of a request's bytes at a device address, whose answer follows once it is performed. -/
def State.inboundWrite (s : State) (p : Nat) (q : RPkt) (a halves mask : Nat) : State :=
  let i := s.rng.nextIn
  let s := { s with rng := { s.rng with nextIn := i + 1, inbound := Map.set s.rng.inbound i { pkt := q, port := p } } }
  (segments mask q.data).foldl (fun s g => s.writeDevice (.engine 0) (tagRingIn i) halves (a + g.1) g.2) s

/-- The mask of the bytes a PUT writes. -/
def RPkt.byteMask (q : RPkt) : Nat :=
  if q.bytes != 0 then q.bytes else ((setBitsOf 4 q.mask).map fun k => ones (32 * k + 31) (32 * k)).sum

/-- A request that waits is served by the rules of R754, `f` being its execution and `again` what an old one meets. -/
def State.serveRing (s : State) (kind : PktKind) (f : State → Nat → RPkt → State) (again : State → Nat → RPkt → State) : State :=
  if s.pwr.halted || !s.rng.switchesOpen then s
  else
    match takeRx kind s.rng.rx [] with
    | none => s
    | some ((pl, q), rest) =>
      let p := pl % 2
      let taken := ({ s with rng := { s.rng with rx := rest } }).giveBack p false
      match s.admitRing (2 ≤ pl) q with
      | .stale => taken.stale p q
      | .drop => taken
      | .old => again taken p q
      | .run => if (kind = .get || kind = .doorbell) && s.pairBusy q then s else f (taken.bumpExpected q) p q

/-- The recorded answer of an old request is sent again, if it is among the last 256. -/
def State.answerAgain (s : State) (p : Nat) (q : RPkt) : State :=
  match (Map.getD s.rng.answers (pairKey q.src q.srcInc) []).find? fun a => a.seq == q.seq with
  | some a => s.respond p a
  | none => s

/-- RING_PUT: an inbound PUT, performed as a WrNC, or as a multicast write where mc_ok allows. -/
def execRingPut (s : State) : Host.Outcome State Fault Refusal :=
  .next (s.serveRing .put (fun s p q =>
    match s.inboundAddr q (s.flag R.rngIn 29) with
    | (a, 0) => s.inboundWrite p q a (if q.mc && s.flag R.rngIn 30 then q.halfMask else 0) q.byteMask
    | (_, st) => s.refuseRing p q st) State.answerAgain)

/-- The line that a GET reads: its sectors, or REFUSED with status 3 for a poisoned one (R899). -/
def State.getLine (s : State) (p : Nat) (q : RPkt) : State :=
  match s.inboundAddr q (s.flag R.rngIn 28) with
  | (a, 0) =>
    if s.poisoned a 128 then s.refuseRing p q 3
    else
      let m := ((setBitsOf 4 q.mask).map fun k => ones (256 * k + 255) (256 * k)).sum
      s.respond p (s.answerTo q .getData ((leVal (s.deviceBytes a 128)).land m) 0)
  | (_, st) => s.refuseRing p q st

/-- RING_GET: an inbound GET, performed as an RdNC; an old one is read again. -/
def execRingGet (s : State) : Host.Outcome State Fault Refusal :=
  .next (s.serveRing .get (fun s p q => s.getLine p q) (fun s p q => s.getLine p q))

/-- RING_DOORBELL: an inbound DOORBELL writes its mailbox, and rings the bound channel (R765). -/
def execRingDoorbell (s : State) : Host.Outcome State Fault Refusal :=
  .next (s.serveRing .doorbell (fun s p q =>
    let s := s.ringBell (q.offset % 256) (q.data % 2 ^ 64)
    let a := s.answerTo q .dbAck 0 0
    (s.recordAnswer a).respond p a) State.answerAgain)

/-! ### Answers (R756, R757) -/

/-- The outstanding request that a response answers: same target, tag and sequence; others are discarded. -/
def State.answeredTxn (s : State) (q : RPkt) : Option (Nat × RTxn) :=
  if q.srcInc != s.myInc then none
  else s.rng.txns.find? fun t => t.2.sent && t.2.pkt.dst == q.dst && t.2.pkt.tag == q.tag && t.2.pkt.seq == q.seq

/-- The oldest response of a kind that waits is taken, and answers its request. -/
def State.takeAnswer (s : State) (kind : PktKind) (f : State → RTxn → RPkt → State) : State :=
  if s.pwr.halted then s
  else
    match takeRx kind s.rng.rx [] with
    | none => s
    | some ((p, q), rest) =>
      let s := ({ s with rng := { s.rng with rx := rest } }).giveBack (p % 2) true
      match s.answeredTxn q with
      | none => s
      | some (k, t) =>
        f { s.dropRtxn k with rng := { (s.dropRtxn k).rng with departGot := s.rng.departGot + s.rng.departing.isSome.toNat } } t q

/-- RING_PUT_ACK: a put is performed: a core's store, a line of a ring DMA engine, a sequencer's word. -/
def execRingPutAck (s : State) : Host.Outcome State Fault Refusal :=
  .next (s.takeAnswer .putAck fun s t _ =>
    match t.who with
    | .core h c sl tag line => s.answerLine { half := h, core := c, slot := sl } tag line 0
    | .ringDma e _ =>
      match s.ringDma? e with
      | some d => ((s.addFld (R.rngDmaStatus e) 20 3 1).setRingDma e { d with lines := d.lines + 1 }).ringDmaNext e
      | none => s
    | _ => s)

/-- RING_GET_DATA: data of a get: a core's load, a line that a ring DMA engine writes, a sequencer's word. -/
def execRingGetData (s : State) : Host.Outcome State Fault Refusal :=
  .next (s.takeAnswer .getData fun s t q =>
    match t.who with
    | .core h c sl tag line => s.answerLine { half := h, core := c, slot := sl } tag line q.data
    | .ringDma e n =>
      match s.ringDma? e with
      | some d => ((s.writeDevice (.engine 0) (tagRingDma e) d.mask (d.dst + 128 * n) (leBytes 128 q.data)).setRingDma e { d with lines := d.lines + 1 }).ringDmaNext e
      | none => s
    | .seq d off => s.seqData d (lineGet q.data off 4)
    | _ => s)

/-- RING_DB_ACK: a ring DMA engine's doorbell is executed. -/
def execRingDbAck (s : State) : Host.Outcome State Fault Refusal := .next (s.takeAnswer .dbAck fun s _ _ => s)

/-- RING_CREC_ACK: a census record is written. -/
def execRingCrecAck (s : State) : Host.Outcome State Fault Refusal := .next (s.takeAnswer .crecAck fun s _ _ => s)

/-- A request answered STALE or REFUSED completes with LINK_LOST (R757). -/
def State.loseAnswered (s : State) (kind : PktKind) : State :=
  if s.pwr.halted then s
  else
    match takeRx kind s.rng.rx [] with
    | none => s
    | some ((p, q), rest) =>
      let s := ({ s with rng := { s.rng with rx := rest } }).giveBack (p % 2) true
      match s.answeredTxn q with
      | none => s
      | some (k, _) => s.loseRtxn k 1

/-- RING_STALE: a STALE answer arrives. -/
def execRingStale (s : State) : Host.Outcome State Fault Refusal := .next (s.loseAnswered .stale)

/-- RING_REFUSED: a REFUSED answer arrives. -/
def execRingRefused (s : State) : Host.Outcome State Fault Refusal := .next (s.loseAnswered .refused)

/-- The timer of a request runs: a path to its target, the incarnation it names, a target that is not stopped. -/
def State.timerRuns (s : State) (t : RTxn) : Bool :=
  t.sent && (s.pathE t.pkt.dst || s.pathW t.pkt.dst) && s.mapInc t.pkt.dst == t.pkt.dstInc && !s.flag (R.rngMap t.pkt.dst) 3 &&
    !s.pwr.halted

/-- RING_RETRY_TIMER: the retry timer of the request with a tag to a target expires: every outstanding request of the
pair from it onward is to be sent again before any other, a try counted against each; past RNG_CFG.max_tries they complete with LINK_LOST
(R756, R757). -/
def execRingRetryTimer (target tag : Nat) (s : State) : Host.Outcome State Fault Refusal :=
  .next (match s.rng.txns.find? fun t => t.2.sent && t.2.pkt.dst == target && t.2.pkt.tag == tag with
    | none => s
    | some (_, t0) =>
      if !s.timerRuns t0 then s
      else
        let again := s.rng.txns.filter fun t => t.2.sent && t.2.pkt.dst == target && t.2.pkt.dstInc == t0.pkt.dstInc && decide (t0.pkt.seq ≤ t.2.pkt.seq)
        let spent := again.filter fun t => s.fld R.rngCfg 15 8 < t.2.tries + 1
        let s := spent.foldl (fun s t => s.loseRtxn t.1 5) s
        let live := again.filter fun t => !(spent.any fun o => o.1 == t.1)
        let dir := s.shortDir target
        let turn (_ : Nat) (t : RTxn) : RTxn := if t.sent && t.pkt.dst == target then { t with dir := dir } else t
        let s := { s with rng := { s.rng with txns := Map.mapVals s.rng.txns turn } }
        let s := live.foldl (fun s t =>
          let x := { t.2 with pkt := { t.2.pkt with retry := true }, tries := t.2.tries + 1, dir := dir }
          { s with rng := { s.rng with txns := Map.set s.rng.txns t.1 x } }.count R.rngRetry 1) s
        let keys := live.map (·.1)
        { s with rng := { s.rng with queue := keys ++ s.rng.queue.filter fun k => !keys.contains k } })

/-! ### Ring DMA engines (R764) -/

/-- A transfer's ranges: one side in local HBM, the other in a ring window. -/
def State.ringRanges (s : State) (d : RingDma) : Bool :=
  let hbm (a : Nat) : Bool := s.inHbm a && (d.len == 0 || s.inHbm (a + d.len - 1))
  let win (a : Nat) : Bool :=
    match ringOf a with
    | some (_, o) => o + d.len ≤ ringStep
    | none => false
  ((hbm d.src && win d.dst) || (win d.src && hbm d.dst && !d.db)) && d.src % 128 == 0 && d.dst % 128 == 0 && d.len % 128 == 0 && d.len ≤ 2 ^ 24

/-- RING_DMA_START: a write of RNG_DMA_e_CTL with go set. -/
def execRingDmaStart (engine : Nat) (v : Word) (s : State) : Host.Outcome State Fault Refusal :=
  let n := v.toNat
  let s := s.setReg (R.rngDmaCtl engine) (bits n 21 1 * 2)
  let d : RingDma := { src := s.pair (R.rngDmaSrcLo engine) (R.rngDmaSrcHi engine), dst := s.pair (R.rngDmaDstLo engine) (R.rngDmaDstHi engine), len := s.fld (R.rngDmaLen engine) 24 0, mask := s.fld (R.rngDmaMask engine) 15 0, irq := bit n 1, db := bit n 2, vector := bits n 13 3, mbox := bits n 21 14, value := s.pair (R.rngDmaDbvalLo engine) (R.rngDmaDbvalHi engine), sent := 0, lines := 0, halting := false }
  .next (if !bit n 0 || (s.ringDma? engine).isSome || !s.unitsRun then s
    else
      let s := s.setFld (R.rngDmaStatus engine) 20 3 0
      if !s.ringRanges d then s.setFld (R.rngDmaStatus engine) 2 0 4
      else
        match s.poolRequest (.ringDma engine) 4 with
        | (s, false) => s.setFld (R.rngDmaStatus engine) 2 0 5
        | (s, true) => (s.setRingDma engine d).setFld (R.rngDmaStatus engine) 2 0 1)

/-- RING_DMA_DONE: every line is acknowledged or written, and the doorbell executed: state 2, and the vector. -/
def execRingDmaDone (engine : Nat) (s : State) : Host.Outcome State Fault Refusal :=
  .next (s.whenRun fun s =>
    let s := match s.ringDma? engine with | some d => if d.db then s.ringDmaNext engine else s | none => s
    match s.ringDma? engine with
    | none => s
    | some d =>
      let busy := s.rng.txns.any fun t => match t.2.who with | .ringDma j _ => j == engine | .ringBell j => j == engine | _ => false
      if d.len ≤ 128 * d.lines && !busy && (!d.db || (ringOf d.dst).isNone) && s.writesOut (tagRingDma engine) == 0 then
        s.endRingDma engine 2 d
      else s)

end Sys2Proof.Machine
end

