-- ==== Sys2Proof/Machine/Serial.lean ====
section
/-! DEFINITION. UARTs, IrDA, LIN and JTAG (R806 to R848). MBOX accesses are in Machine/Bar0.lean. -/

namespace Sys2Proof.Machine

/-! ### Configuration (R806, R807, R819 to R821, R825, R848) -/

/-- A UART that has done nothing. -/
def Uart.idle : Uart :=
  { rx := [], tx := [], shift := none, cells := [], pulse := 0, cfg := none, told := false, overs := 0, bad := 0, badTags := 0,
    line := [], command := none, quiet := 0 }

/-- UART `u`. -/
def State.uart (s : State) (u : Nat) : Uart := Map.getD s.ser.uarts u Uart.idle

/-- UART `u` replaced. -/
def State.setUart (s : State) (u : Nat) (x : Uart) : State := { s with ser := { s.ser with uarts := Map.set s.ser.uarts u x } }

/-- Sample ticks of a bit cell, by the os field. -/
def uartOs (cfg : Nat) : Nat := [16, 8, 3].getD (bits cfg 21 20) 16

/-- Un_CFG.mode. -/
def uartMode (cfg : Nat) : Nat := bits cfg 29 28

/-- Sixteenths of an island clock to a sample tick (R806). -/
def uartDiv16 (cfg : Nat) : Nat := 16 * bits cfg 15 0 + bits cfg 19 16

/-- The configuration that a write of Un_CFG asks for, none when the write is ignored (R807, R820, R821, R825). -/
def uartCfg (u old v : Nat) : Option Nat :=
  let v := if bits v 15 0 = 0 then v + 1 else v
  let keep (v hi lo : Nat) (bad : Bool) : Nat := if bad then putBits v hi lo (bits old hi lo) else v
  let v := keep v 21 20 (bits v 21 20 == 3)
  let v := keep v 24 23 (bits v 24 23 == 3)
  let v := keep v 29 28 (uartMode v == 3 || (u == 1 && uartMode v == 1) || (u == 0 && uartMode v == 2))
  let sir := [9600, 19200, 38400, 57600, 115200].any fun r =>
    let d := uartDiv16 v
    995 * r * d ≤ 48000000 * 1000 && 48000000 * 1000 ≤ 1005 * r * d
  if uartMode v = 1 && !(bits v 21 20 == 0 && bits v 22 22 == 1 && bits v 24 23 == 0 && bits v 25 25 == 0 && sir) then none
  else if uartMode v = 2 && bits v 21 20 == 2 then none
  else some (v % 2 ^ 31)

/-- The stock configuration of a selector value that a UART has (R848). -/
def uartStock (u sel : Nat) : Option Nat :=
  match sel with
  | 0 => some 0x0841001A
  | 1 => some 0x08400001
  | 2 => if u = 0 then some 0x1841001A else none
  | 3 => if u = 1 then some 0x2844009C else none
  | _ => none

/-- The waiting configuration takes effect; setting 3 loads the stock schedule (R819, R832). -/
def State.uartApply (s : State) (u : Nat) : State :=
  let x := s.uart u
  match x.cfg with
  | none => s
  | some (sel, cfg) =>
    let s := s.setUart u { x with cfg := none }
    let s := (s.setReg (R.uSel u) sel).setReg (R.uCfg u) cfg
    if sel = 3 then
      (List.range 8).foldl (fun s k => s.setReg (R.linSlot k) (if k = 0 then 0x10A10 else if k = 1 then 0x640911 else 0)) s
    else s

/-- Both directions of a UART lie between characters, and no LIN frame is in progress on it. -/
def State.uartBetween (s : State) (u : Nat) : Bool := (s.uart u).shift.isNone && !(u == 1 && s.ser.frame.isSome)

/-- A configuration waits (R819), or takes effect at once. -/
def State.uartLater (s : State) (u sel cfg : Nat) : State :=
  let s := s.setUart u { s.uart u with cfg := some (sel, cfg) }
  if s.uartBetween u then s.uartApply u else s

/-- A write of Un_SEL. -/
def State.uartSel (s : State) (u v : Nat) : State :=
  match uartStock u (v % 16) with
  | some cfg => s.uartLater u (v % 16) cfg
  | none => s

/-- An expert write of Un_CFG. -/
def State.uartExpert (s : State) (u v : Nat) : State :=
  match uartCfg u (s.reg (R.uCfg u)) v with
  | some cfg => s.uartLater u 15 cfg
  | none => s

/-- UART_CFG_APPLY: a waiting configuration takes effect once both directions lie between characters. -/
def execUartCfgApply (uart : Nat) (s : State) : Host.Outcome State Fault Refusal :=
  .next (if s.uartBetween uart then s.uartApply uart else s)

/-! ### Receiving (R809 to R815, R818, R823) -/

/-- The phases sampled in a cell, the last of them its decision (R809). -/
def samplePhases (os : Nat) : List Nat := if os = 16 then [7, 8, 9] else if os = 8 then [3, 4, 5] else [1]

/-- A character being received: phase of the next sample, ones among the samples taken, whether the cell has a light
pulse, the sample before, and the bits decided. -/
structure RxRun where
  phase : Nat
  ones : Nat
  hit : Bool
  prev : Bool
  bits : List Bool
  deriving DecidableEq, Repr

/-- One sample tick: an edge resynchronizes (R810), a sample is taken, a cell decided (R809; in mode 1 a cell with a pulse
is 0, R823). -/
def RxRun.tick (ir : Bool) (os n : Nat) (x : RxRun) (sample : Bool) : RxRun :=
  let ps := samplePhases os
  let last := ps.getLastD 0
  if n ≤ x.bits.length then x
  else
    let edge := if ir then !sample else x.prev && !sample
    let x := if edge then { x with phase := 0, ones := 0, hit := true } else x
    let x := if ps.contains x.phase && sample then { x with ones := x.ones + 1 } else x
    let x := if x.phase = last then { x with bits := x.bits ++ [if ir then !x.hit else ps.length < 2 * x.ones] } else x
    let x := { x with prev := sample }
    if x.phase + 1 = os then { x with phase := 0, ones := 0, hit := false } else { x with phase := x.phase + 1 }

/-- Cells of a character (R808). -/
def uartCells (cfg : Nat) : Nat := 1 + 7 + bits cfg 22 22 + (if bits cfg 24 23 = 0 then 0 else 1) + 1 + bits cfg 25 25

/-- The bits of the character that begins with the first sample; none where that is no falling edge or the samples end
first. -/
def rxBits (cfg : Nat) (samples : List Bool) : Option (List Bool) :=
  let r := samples.foldl (RxRun.tick (uartMode cfg == 1) (uartOs cfg) (uartCells cfg)) { phase := 0, ones := 0, hit := false, prev := true, bits := [] }
  if samples.headD true || r.bits.length < uartCells cfg then none else some r.bits

/-- The data of decided bits with the tag of its class (R812): bit 8 fe, 9 pe, 10 brk. -/
def rxClass (cfg : Nat) (b : List Bool) : Nat :=
  let k := 7 + bits cfg 22 22
  let data := maskOf ((List.range k).filter fun i => b.getD (1 + i) false)
  let par := bits cfg 24 23
  let ones := popCount k data + (if b.getD (1 + k) false then 1 else 0)
  let stops := b.drop (1 + k + (if par = 0 then 0 else 1))
  if b.all (· == false) then 1024
  else if stops.any (· == false) then 256 + data
  else if par != 0 && ones % 2 != (if par = 1 then 0 else 1) then 512 + data
  else data

/-- R818: the vector goes out once the fill reaches the level. -/
def State.uartTell (s : State) (u : Nat) : State :=
  let x := s.uart u
  if x.rx.length < s.fld (R.uIrq u) 18 12 then s.setUart u { x with told := false }
  else if !x.told && s.flag (R.uIrq u) 31 && (s.mod.power == .ready || s.mod.power == .run) then
    (s.setUart u { x with told := true }).sendCtl (s.fld (R.uIrq u) 10 0)
  else s

/-- A character is stored, or meets a full FIFO (R813 to R815). -/
def State.uartStore (s : State) (u c : Nat) : State :=
  let x := s.uart u
  let cfg := s.reg (R.uCfg u)
  if 256 ≤ c && !bit cfg 27 then
    (s.setUart u { x with bad := x.bad + 1, badTags := x.badTags.lor (c / 256) }).addFld (R.uCount u) 31 16 1
  else if x.rx.length < 64 then (s.setUart u { x with rx := x.rx ++ [c] }).uartTell u
  else
    let x := { x with overs := x.overs + 1, rx := if bit cfg 26 then x.rx.dropLast ++ [c] else x.rx }
    ((s.setUart u x).addFld (R.uCount u) 15 0 1).setFlag (R.uEvent u) 0 true

/-- Events 0x1001 and 0x1002 of the period that ends: a round, or a millisecond in Standby (R814). -/
def State.uartPeriod (s : State) : State :=
  [0, 1].foldl (fun s u =>
    let x := s.uart u
    let s := if x.overs = 0 then s else s.slowEvent 0x1001 [(1, u), (1, s.fld (R.uCfg u) 26 26), (4, x.overs)]
    let s := if x.bad = 0 then s else s.slowEvent 0x1002 [(1, u), (1, x.badTags), (4, x.bad)]
    if x.overs = 0 && x.bad = 0 then s else s.setUart u { x with overs := 0, bad := 0, badTags := 0 }) s

/-- UART_RX_CHARACTER: a character arrives as the line's level at each sample tick from its falling edge on; in mode 1 as
light pulses, each with its tick and its length in ns (R823: from 1.0 µs a 0, below 0.5 µs ignored, between them open).
UART0's characters also make up its received line (R872). -/
def execUartRxCharacter (uart : Nat) (samples : List Bool) (pulses : List (Nat × Nat)) (s : State) : Host.Outcome State Fault Refusal :=
  let cfg := s.reg (R.uCfg uart)
  let x := s.uart uart
  let seen (i w : Nat) : Bool := 1000 ≤ w || (500 ≤ w && Config.freeValue (s.free + i) % 2 == 1)
  let lit := (pulses.zipIdx.filter fun p => seen p.2 p.1.2).map fun p => p.1.1
  let ir := uartMode cfg == 1
  let line := if ir then (List.range (32 * uartCells cfg)).map (fun t => !lit.contains t) else samples
  let s := if ir then { s with free := s.free + pulses.length } else s
  .next (if s.mod.power == .off || uartMode cfg == 2 || (ir && (x.shift.isSome || decide (s.mod.islandUs < x.quiet))) then s
    else
      match rxBits cfg line with
      | none => s
      | some b =>
        let c := rxClass cfg b
        let s := s.uartStore uart c
        if uart != 0 then s
        else
          let x := s.uart 0
          if c = 13 then s.setUart 0 { x with command := some x.line, line := [] }
          else s.setUart 0 { x with line := lastK 8 (x.line ++ [c]) })

/-- UART_DATA_READ: one entry is popped and returned with valid at 1; 0 from an empty FIFO (R816). -/
def execUartDataRead (uart : Nat) (s : State) : Host.Outcome State Fault Refusal :=
  let x := s.uart uart
  .next (match x.rx with
    | [] => { s with answer := 0 }
    | c :: cs => { (s.setUart uart { x with rx := cs }).uartTell uart with answer := c + 2048 })

/-! ### Transmitting (R808, R817, R822, R873, R874) -/

/-- The line cells of a character (R808). -/
def charCells (cfg c : Nat) : List Bool :=
  let k := 7 + bits cfg 22 22
  let data := (List.range k).map (bit c)
  let odd := popCount k c % 2 == 1
  let par := match bits cfg 24 23 with
    | 0 => []
    | 1 => [odd]
    | _ => [!odd]
  [false] ++ data ++ par ++ List.replicate (1 + bits cfg 25 25) true

/-- The two-character source name of a readout: H, a peak, or a slot. -/
def srcName (src : Nat) : List Nat := if 16 ≤ src then chars "S" ++ decimal (src - 16) else if src = 8 then chars "H " else decimal src ++ chars " "

/-- One line of a console readout: source name, index, 32 bytes (R873). -/
def readoutLine (src idx : Nat) (b : List Nat) : List Nat :=
  chars "K" ++ srcName src ++ chars " " ++ hexDigits 4 (idx % 65536) ++ chars " " ++ b.flatMap (hexDigits 2) ++ [13, 10]

/-- Lines of a slot's readout: the header's 8, then each filled region's entries, hub first. -/
def State.slotLines (s : State) (slot : Nat) : Nat := 8 + ([8, 0, 1, 2, 3, 4, 5, 6, 7].map (s.slotCount slot)).sum

/-- Line `i` of a slot's readout. -/
def State.slotLine (s : State) (slot i : Nat) : List Nat :=
  let b := snapBase slot
  if i < 8 then readoutLine (16 + slot) i (Mem.readBytes s.store.mem (b + 32 * i) 32)
  else
    let r := [8, 0, 1, 2, 3, 4, 5, 6, 7].foldl (fun (acc : Nat × Option (Nat × Nat)) d =>
      match acc.2 with
      | some _ => acc
      | none => if acc.1 < s.slotCount slot d then (acc.1, some (d, acc.1)) else (acc.1 - s.slotCount slot d, none)) (i - 8, none)
    match r.2 with
    | some (d, k) => readoutLine d k (Mem.readBytes s.store.mem (b + regionBase d + 32 * k) 32)
    | none => []

/-- The next line of the console's readout stands to be sent. -/
def State.nextLine (s : State) : State :=
  match s.crn.consoleRead with
  | none => s
  | some r =>
    if s.crn.conText != [] || r.total ≤ r.sent then s
    else
      let r' := { r with sent := r.sent + 1 }
      if 16 ≤ r.source then { s with crn := { s.crn with consoleRead := some r', conText := s.slotLine (r.source - 16) r.sent } }
      else
        let e := s.liveEntry r r.sent
        let s := if e.isNone then s.addFld R.crnStreamStatus 31 16 1 else s
        { s with crn := { s.crn with consoleRead := some r', conText := readoutLine r.source r.sent (e.getD (List.replicate 32 0)) } }

/-- An idle transmitter takes its next character: UART0's of a running readout, else the oldest of the FIFO, which frame
mode does not use (R825). -/
def State.uartLoad (s : State) (u : Nat) : State :=
  if (s.uart u).shift.isSome || uartMode (s.reg (R.uCfg u)) == 2 then s
  else
    let s := if u = 0 then s.nextLine else s
    let x := s.uart u
    match (if u = 0 then s.crn.conText else []) with
    | c :: cs => { s with crn := { s.crn with conText := cs } }.setUart u { x with shift := some c }
    | [] =>
      if u = 0 && s.crn.consoleRead.isSome then s
      else
        match x.tx with
        | c :: cs => s.setUart u { x with shift := some c, tx := cs }
        | [] => s

/-- UART_TX_CHARACTER: the character being sent is finished: its cells went out, a waiting configuration takes effect, and
the next one starts. -/
def execUartTxCharacter (uart : Nat) (s : State) : Host.Outcome State Fault Refusal :=
  let x := s.uart uart
  let cfg := s.reg (R.uCfg uart)
  .next (match x.shift with
    | none => s.uartLoad uart
    | some c =>
      let s := s.setUart uart { x with shift := none, cells := charCells cfg c, pulse := if uartMode cfg = 1 then (if bit cfg 30 then 78 * 16 else 3 * uartDiv16 cfg) else 0, quiet := s.mod.islandUs + 50 }
      (s.uartApply uart).uartLoad uart)

/-- UART_DATA_WRITE: a character is pushed, or discarded when the FIFO is full or UART1 is in frame mode (R817, R825). -/
def execUartDataWrite (uart : Nat) (v : Word) (s : State) : Host.Outcome State Fault Refusal :=
  let x := s.uart uart
  .next (if 64 ≤ x.tx.length || uartMode (s.reg (R.uCfg uart)) == 2 then
      (s.setFlag (R.uEvent uart) 1 true).hubEvent 0x1008 [(1, uart)]
    else (s.setUart uart { x with tx := x.tx ++ [v.toNat % 256] }).uartLoad uart)

/-! ### LIN (R825 to R834) -/

/-- The protected identifier (R827). -/
def linPid (id : Nat) : Nat :=
  let x (l : List Nat) : Nat := (l.filter (bit id)).length % 2
  id + 64 * x [0, 1, 2, 4] + 128 * (1 - x [1, 3, 4, 5])

/-- The checksum of bytes: the inverted sum with end-around carry (R828). -/
def linSum (l : List Nat) : Nat := 255 - l.foldl (fun a b => if 255 < a + b then a + b - 255 else a + b) 0

/-- Length of a slot's frame: 1 to 8. -/
def linLen (desc : Nat) : Nat := bits desc 9 6

/-- The checksum that a frame's data carries. -/
def linCheck (desc : Nat) (data : List Nat) : Nat :=
  linSum (if bit desc 11 then linPid (bits desc 5 0) :: data else data)

/-- Bytes of LIN_DATA_k. -/
def State.linBytes (s : State) (k : Nat) : List Nat := leBytes 4 (s.reg (R.linDataLo k)) ++ leBytes 4 (s.reg (R.linDataHi k))

/-- UART1 runs the schedule: frame mode and LIN_CTL.run. -/
def State.linRuns (s : State) : Bool := uartMode (s.reg (R.uCfg 1)) == 2 && s.flag R.linCtl 0 && s.mod.power != .off

/-- A slot is due: its period is nonzero and its time has come (R829). -/
def State.linDue (s : State) (k : Nat) : Bool :=
  s.fld (R.linSlot k) 23 16 != 0 && Map.getD s.ser.due k 0 ≤ s.mod.islandUs

/-- Every slot is due now: run is set, or the reference returns (R829, R834). -/
def State.linAllDue (s : State) : State :=
  { s with ser := { s.ser with due := (List.range 8).foldl (fun t k => Map.set t k s.mod.islandUs) s.ser.due } }

/-- LIN_SLOT_DUE: the lowest-numbered due slot starts its frame: break, delimiter, sync, protected identifier, and what a
publish slot sends (R827, R829, R830). None starts on the RC oscillator (R834). -/
def execLinSlotDue (s : State) : Host.Outcome State Fault Refusal :=
  .next (if !s.linRuns || s.ser.frame.isSome || s.flag R.glbOsc 1 then s
    else
      match (List.range 8).find? s.linDue with
      | none => s
      | some k =>
        let d := s.reg (R.linSlot k)
        let data := (s.linBytes k).take (linLen d)
        let sent := [0x55, linPid (bits d 5 0)] ++ (if bit d 10 then data ++ [linCheck d data] else [])
        let period := 10000 * bits d 23 16
        let t := Map.getD s.ser.due k 0
        let s := { s with ser := { s.ser with frame := some { slot := k, desc := d, sent := sent }, due := Map.set s.ser.due k (t + period * ((s.mod.islandUs - t) / period + 1)) } }
        let cells := List.replicate (13 + s.fld R.linCtl 3 1) false ++ [true] ++ sent.flatMap (charCells 0x400000)
        s.setUart 1 { s.uart 1 with cells := cells })

/-- The schedule stops for want of the reference (R834). -/
def State.linStopped (s : State) : State :=
  (s.setFlag R.linEvent 2 true).hubEvent 0x1004 [(1, evCode 0x1004 0)]

/-- The reference is lost: the schedule stops, after the frame in progress. -/
def State.linStop (s : State) : State :=
  if !s.linRuns then s
  else if s.ser.frame.isSome then { s with ser := { s.ser with stopping := true } }
  else s.linStopped

/-- The result of a frame (R830): bytes read back while it sent, and bytes received with their stop bits. -/
def linResult (f : LinFrame) (back : List Nat) (recv : List (Nat × Bool)) : Nat :=
  let data := (recv.map (·.1)).take (linLen f.desc)
  if (f.sent.zip back).any fun p => p.1 != p.2 then 1
  else if bit f.desc 10 then 0
  else if recv.any fun r => !r.2 then 3
  else if recv = [] then 4
  else if recv.length < linLen f.desc + 1 then 5
  else if (recv.getD (linLen f.desc) (0, true)).1 != linCheck f.desc data then 2
  else 0

/-- A frame ends with a result (R831, R833). -/
def State.linEnd (s : State) (f : LinFrame) (res : Nat) (data : List Nat) : State :=
  let k := f.slot
  let s := (s.setFld (R.linStat k) 2 0 res)
  let s := if res != 0 then
      (((s.addFld (R.linStat k) 15 8 1).setFlag R.linEvent 0 true).hubEvent 0x1003 [(1, k), (1, bits f.desc 5 0), (1, res)])
    else if bit f.desc 10 then s
    else
      let b := data ++ (s.linBytes k).drop data.length
      let s := ((s.setReg (R.linDataLo k) (leVal (b.take 4))).setReg (R.linDataHi k) (leVal (b.drop 4))).setFlag (R.linStat k) 3 true
      if k = 0 && bits f.desc 5 0 = 0x10 && leVal (data.take 2) < 200 then
        (s.setFlag R.linEvent 1 true).hubEvent 0x1005 [(2, leVal (data.take 2))]
      else s
  let stop := s.ser.stopping
  let s := { s with ser := { s.ser with frame := none, stopping := false } }
  (if stop then s.linStopped else s).uartApply 1

/-- LIN_FRAME_END: a frame ends by a byte read back wrong, by the last byte sent, or by the last byte received. -/
def execLinFrameEnd (back : List Nat) (recv : List (Nat × Bool)) (s : State) : Host.Outcome State Fault Refusal :=
  .next (match s.ser.frame with
    | none => s
    | some f =>
      if linResult f back recv = 1 || (f.sent.length ≤ back.length && (bit f.desc 10 || linLen f.desc < recv.length)) then
        s.linEnd f (linResult f back recv) ((recv.map (·.1)).take (linLen f.desc))
      else s)

/-- LIN_RESPONSE_TIMEOUT: the response timeout ends before all bytes have arrived. -/
def execLinResponseTimeout (back : List Nat) (recv : List (Nat × Bool)) (s : State) : Host.Outcome State Fault Refusal :=
  .next (match s.ser.frame with
    | none => s
    | some f =>
      if bit f.desc 10 || linLen f.desc < recv.length then s
      else s.linEnd f (linResult f back recv) [])

/-! ### JTAG (R835 to R846) -/

/-- The TAP changed. -/
def State.setTap (s : State) (t : Tap) : State := { s with ser := { s.ser with tap := t } }

/-- A half resumes. -/
def State.resumeHalf (s : State) (h : Nat) : State :=
  let s := s.setFlag R.jtgState h false
  { s with cor := { s.cor with stepOk := s.cor.stepOk.filter fun q => q.1 / 128 != h } }

/-- Every halted half and sequencer resumes, and every armed half is disarmed (R845). -/
def State.endDebug (s : State) : State :=
  let s := (List.range 16).foldl (fun s h => if s.flag R.jtgState h then s.resumeHalf h else s) s
  let s := (List.range 9).foldl (fun s d => if s.flag R.jtgState (16 + d) then s.resumeSeq d else s) s
  s.setReg R.jtgArmed 0

/-- The TAP in Test-Logic-Reset with IDCODE selected (R835). -/
def State.tapReset (s : State) : State :=
  (s.setTap { s.ser.tap with ir := 0x01, extest := false }).endDebug.setFlag R.jtgState 25 false

/-- The TAP holds an instruction. -/
def State.tapIr (s : State) (ir : Nat) : State :=
  (s.setTap { s.ser.tap with ir := ir, extest := ir == 0x03 }).setFlag R.jtgState 25 true

/-- TRST_ASSERT: TRST# resets the TAP, which ends every halt and arming. -/
def execTrstAssert (s : State) : Host.Outcome State Fault Refusal := .next s.tapReset

/-- TEST_LOGIC_RESET: five TCK rising edges with TMS high. -/
def execTestLogicReset (s : State) : Host.Outcome State Fault Refusal := .next s.tapReset

/-- JTAG_BYPASS: the 1-bit bypass register, which captures 0. -/
def execJtagBypass (s : State) : Host.Outcome State Fault Refusal := .next { s.tapIr 0xFF with answer := 0 }

/-- IDCODE of a step (R836). -/
def State.idcode (s : State) : Nat :=
  let ident := s.reg R.glbIdent
  (4 * bits ident 23 20 + bits ident 19 16) % 16 * 2 ^ 28 + 0x0A58 * 2 ^ 12 + 0x6AD * 2 + 1

/-- JTAG_IDCODE. -/
def execJtagIdcode (s : State) : Host.Outcome State Fault Refusal := .next { s.tapIr 0x01 with answer := s.idcode }

/-- ALERT# is high unless an enabled event is set (R83), or as EXTEST drives it. -/
def State.alertLevel (s : State) : Bool :=
  if s.ser.tap.extest then bit s.ser.tap.cells 6
  else (s.reg R.glbModEvent).land (s.reg R.glbModAlertEn) == 0

/-- The level of U0_TX or U1_TX: 1 while idle; within a character it is open which bit stands. -/
def State.txLevel (s : State) (u : Nat) : Bool :=
  if s.ser.tap.extest then bit s.ser.tap.cells (12 - 2 * u)
  else (s.uart u).shift.isNone || Config.freeValue (s.free + u) % 2 == 1

/-- What the boundary register captures (R837): bit 0, nearest TDO, is SLOT_ID[4]. PERST# and BYPASS_REQ# read 0 while
asserted. -/
def State.boundary (s : State) (rx0 rx1 : Bool) : Nat :=
  maskOf ([(12, s.txLevel 0), (11, rx0), (10, s.txLevel 1), (9, rx1), (8, s.mod.flowOk), (7, !s.mod.perst), (6, s.alertLevel),
    (5, !s.mod.bypassReq), (4, bit s.mod.slotSeen 0), (3, bit s.mod.slotSeen 1), (2, bit s.mod.slotSeen 2), (1, bit s.mod.slotSeen 3),
    (0, bit s.mod.slotSeen 4)].filterMap fun p => if p.2 then some p.1 else none)

/-- JTAG_SAMPLE_PRELOAD: the contacts are captured (the receive contacts' levels come with the command), the cells
preloaded. -/
def execJtagSamplePreload (rx0 rx1 : Bool) (cells : Nat) (s : State) : Host.Outcome State Fault Refusal :=
  let s' := s.tapIr 0x02
  .next { s'.setTap { s'.ser.tap with cells := cells % 2 ^ 13 } with answer := s.boundary rx0 rx1, free := s.free + 2 }

/-- JTAG_EXTEST: the output cells drive U0_TX, U1_TX and ALERT#. -/
def execJtagExtest (rx0 rx1 : Bool) (cells : Nat) (s : State) : Host.Outcome State Fault Refusal :=
  let s' := s.tapIr 0x03
  .next { s'.setTap { s'.ser.tap with cells := cells % 2 ^ 13 } with answer := s.boundary rx0 rx1, free := s.free + 2 }

/-- What DBG's capture returns: halted halves, halted sequencers, armed halves (R841). -/
def State.dbgCapture (s : State) : Nat := s.fld R.jtgState 24 0 + 2 ^ 25 * s.fld R.jtgArmed 15 0

/-- A DBG operation under way: its scan returns the capture; refused with event 0x1007 while halt_ok reads 0 (R840), else
made and recorded (R841). -/
def State.debug (s : State) (op halves seqs : Nat) (f : State → State) : State :=
  let s := { s.tapIr 0x21 with answer := s.dbgCapture }
  if s.flag R.jtgPolicy 0 then
    let s := s.setTap { s.ser.tap with done := true, refused := false }
    (f s).hubEvent 0x1006 [(1, op), (2, halves), (2, seqs)]
  else
    (s.setTap { s.ser.tap with done := true, refused := true }).hubEvent 0x1007 [(1, evCode 0x1007 1), (4, op)]

/-- DBG_ARM: BRK halts an armed half. -/
def execDbgArm (halves : Nat) (s : State) : Host.Outcome State Fault Refusal :=
  .next (s.debug 1 halves 0 fun s => s.setFld R.jtgArmed 15 0 ((s.fld R.jtgArmed 15 0).lor (halves % 65536)))

/-- DBG_DISARM. -/
def execDbgDisarm (halves : Nat) (s : State) : Host.Outcome State Fault Refusal :=
  .next (s.debug 2 halves 0 fun s => s.setFld R.jtgArmed 15 0 (s.fld R.jtgArmed 15 0 - (s.fld R.jtgArmed 15 0).land halves))

/-- DBG_HALT_HALVES (R842, R844). -/
def execDbgHaltHalves (halves : Nat) (s : State) : Host.Outcome State Fault Refusal :=
  .next (s.debug 3 halves 0 fun s => (setBitsOf 16 halves).foldl State.haltHalf s)

/-- DBG_RESUME_HALVES. -/
def execDbgResumeHalves (halves : Nat) (s : State) : Host.Outcome State Fault Refusal :=
  .next (s.debug 4 halves 0 fun s => (setBitsOf 16 halves).foldl (fun s h => if s.flag R.jtgState h then s.resumeHalf h else s) s)

/-- DBG_STEP: the named slot on every core of each halted named half may issue one instruction (R843, R844). -/
def execDbgStep (halves slot : Nat) (s : State) : Host.Outcome State Fault Refusal :=
  .next (s.debug 5 halves 0 fun s => (setBitsOf 16 halves).foldl (fun s h =>
    if !s.flag R.jtgState h then s
    else
      let t := (List.range 72).foldl (fun t c => Map.set t (coreKey h c) slot) s.cor.stepOk
      let s := { s with cor := { s.cor with stepOk := t } }
      match s.partOfHalf h with
      | some p => s.voidPart p 6
      | none => s) s)

/-- DBG_HALT_SEQUENCERS (R665). -/
def execDbgHaltSequencers (seqs : Nat) (s : State) : Host.Outcome State Fault Refusal :=
  .next (s.debug 6 0 seqs fun s => (setBitsOf 9 seqs).foldl State.haltSeq s)

/-- DBG_RESUME_SEQUENCERS. -/
def execDbgResumeSequencers (seqs : Nat) (s : State) : Host.Outcome State Fault Refusal :=
  .next (s.debug 7 0 seqs fun s => (setBitsOf 9 seqs).foldl (fun s d => if s.flag R.jtgState (16 + d) then s.resumeSeq d else s) s)

/-- JTG_POLICY_WRITE: a bit written 1 is cleared until a cold reset; clearing halt_ok ends every halt and arming. -/
def execJtgPolicyWrite (v : Word) (s : State) : Host.Outcome State Fault Refusal :=
  let s := if bit v.toNat 1 then s.setFlag R.jtgPolicy 1 false else s
  .next (if bit v.toNat 0 then (s.setFlag R.jtgPolicy 0 false).endDebug else s)

end Sys2Proof.Machine
end

