-- ==== Sys2Proof/Machine/Standby.lean ====
section
/-! DEFINITION. Changes of the limit and the end of a dry stop (R623, R645); what the cold and warm columns of R201 do,
entries to Standby and to Off, and aborted boots (R96, R98,
R176, R196, R199 to R202, R646, R647). -/

namespace Sys2Proof.Machine

/-! ### Leave asked for again (R623, R645) -/

/-- Pool requests that the pool cannot cover are refused when they are made again (R620). -/
def State.askAgain (s : State) : State :=
  let size := s.poolSize
  let refused := s.pwr.pool.filter fun r => decide (size < r.pips)
  if refused = [] then s
  else
    let s := s.setPool (s.pwr.pool.filter fun r => !decide (size < r.pips))
    refused.foldl (fun s r => s.poolRefused r.user r.pips) s

/-- DMA engines whose request for leave was refused end without it (state 5; R620, R710, R764). -/
def State.unleased (s : State) : State :=
  let asks (u : PoolUser) : Bool := s.pwr.pool.any fun r => r.user == u
  let s := (s.hst.dma.filter fun q => !asks (.hostDma q.1)).foldl (fun s q => s.endHostDma q.1 5 q.2) s
  (s.rng.dma.filter fun q => !asks (.ringDma q.1)).foldl (fun s q => s.endRingDma q.1 5 q.2) s

/-- LIMIT_CHANGE: L takes the lower of PWR_LIMIT and the conversion capacity; budgets, pool, bookings and shares
follow (R605, R623 to R626). -/
def execLimitChange (s : State) : Host.Outcome State Fault Refusal :=
  .next (if s.limitNow = s.limit then s.applyLimit else (s.applyLimit.limitChanged s.limit).unleased)

/-- DRY_STOP_END: at the round boundary after the rise, shares stand again, paused draws resume, pool requests
wait for leave, and every unit runs (R645). -/
def execDryStopEnd (s : State) : Host.Outcome State Fault Refusal :=
  .next (match s.pwr.dry with
    | some (.flow, t) =>
      if s.pwr.dryEnding then
        let s := s.showDry t
        let s := { s with pwr := { s.pwr with dry := none, dryEnding := false, halted := false } }
        let s := (s.setFld R.pwrState 14 13 0).seqSkip ((s.mod.islandUs - t) * 125)
        let rest (_ : Nat) (x : PStream) : PStream := { x with since := x.since + (s.mod.islandUs - t) }
        let s := { s with hst := { s.hst with streams := Map.mapVals s.hst.streams rest } }
        let s := (List.range 16).foldl (fun s h => s.setDraws h (pauseTo (s.shareOf h)
          ((s.drawsOf h).map fun d => if d.st == .paused then { d with st := .granted } else d))) s
        (s.hubEvent 0x0B02 [(4, s.fld R.pwrDryTime 15 0)]).askAgain.unleased
      else s
    | _ => s)

/-! ### What a reset keeps (R201) -/

/-- Registers of the island's blocks: GLB 0x200 to 0x24F, and MGT. -/
def ofIsland (a : Nat) : Bool := (0x200 ≤ a && a < 0x250) || (0x60000 ≤ a && a < 0x70000)

/-- Registers that a warm reset keeps. -/
def keptWarm (a : Nat) : Bool := ofIsland a || a == R.glbBootSel || a == R.glbBootCtl || a == R.glbResetStatus

/-- Writes of island registers that wait for a round boundary take effect: no round runs in Standby (R125). -/
def State.applyIsland (s : State) : State :=
  { (inOrder (s.delayed.filter fun q => ofIsland q.1)).foldl (fun s q => s.applyWrite q.1 q.2.toNat) s with
    delayed := s.delayed.filter fun q => !ofIsland q.1 }

/-- Registers that the hub firmware reloads from the store at every reset (R728, R259). -/
def State.reloadStore (s : State) : State :=
  (s.store.hostCfg.foldl (fun s q => s.setReg q.1 q.2) s).setReg R.imgDefault s.store.defaultImage

/-- GLB_MOD_PINS as the contacts stand. -/
def State.showPins (s : State) : State :=
  ((s.setFlag R.glbModPins 0 s.mod.flowOk).setFlag R.glbModPins 1 s.mod.bypassReq).setFld R.glbModPins 8 4 s.mod.slotId

/-- GLB_CONV and GLB_CONV_CAP (R89). -/
def State.showConv (s : State) : State :=
  (s.setReg R.glbConv s.mod.tiles).setReg R.glbConvCap (convCap s.mod.tiles)

/-- A cairn's own counts of turns start over with the beacon. -/
def Cairn.still (c : Cairn) : Cairn := { c with turn := 0, accepted := 0, dropRound := 0 }

/-- The warm column of R201, the power state included. -/
def State.warmReset (s : State) : State :=
  let s := s.applyIsland.endDebug
  let r := State.reset
  let t : State := { r with
    free := s.free, answer := s.answer, store := { s.store with promo := none }, fuse := s.fuse, ser := s.ser, host := s.host, pending := s.pending,
    regs := s.regs.filter fun q => keptWarm q.1,
    staged := s.staged.filter fun q => ofIsland q.1,
    mod := { s.mod with power := .standby, toStandby := none, readyReq := false },
    crn := { s.crn with cairns := Map.mapVals s.crn.cairns (fun _ c => c.still), snap := none, streamRead := none, latched := [], thermalStandby := false },
    pwr := { r.pwr with junction := s.pwr.junction } }
  let t := t.setFld R.glbBootStatus 15 11 (s.fld R.glbBootStatus 15 11)
  let t := ((t.setFlag R.glbModPins 12 true).setFlag R.glbModPins 13 true).setFlag R.glbResetStatus 0 false
  t.reloadStore

/-- The cold column of R201: the island's blocks too, and the cairns; what the contacts, the oscillator and the store
show stands. -/
def State.coldReset (s : State) : State :=
  let osc := s.reg R.glbOsc
  let st := s.reg R.glbPstate
  let t := s.warmReset
  let t := { t with regs := [], staged := [], crn := { t.crn with cairns := [], consoleRead := none, conText := [] }, ser := { SerialState.reset with tap := s.ser.tap } }
  let t := ((t.setReg R.glbOsc osc).setReg R.glbPstate st).reloadStore
  (t.showPins.showConv.loadPlate.setFlag R.fplStatus 0 t.crn.drawing.isSome).linAllDue

/-! ### Changes of the power state (R98) -/

/-- The module is in a power state; GLB_PSTATE shows the trigger, and the faceplate follows (R881). -/
def State.setPower (s : State) (p : PowerState) (cause : Nat) : State :=
  let s := { s with mod := { s.mod with power := p } }
  ((s.setFld R.glbPstate 1 0 p.code).setFld R.glbPstate 7 4 cause).plateChange

/-- The module's marks in the store are seen to on entering Standby (R867, R882). -/
def State.checkMarks (s : State) : State := s.tornSnapshot.tornPlate

/-- Host links that were up go down: event 0x0D02 with its cause. -/
def State.linksDown (s : State) (cause : Nat) : State :=
  [0, 1].foldl (fun s p => [0, 1].foldl (fun s e =>
    if s.linkUp p e then s.hubEvent 0x0D02 [(1, p), (1, e), (1, evCode 0x0D02 cause)] else s) s) s

/-- Ready or Run. -/
def State.isUp (s : State) : Bool := s.mod.power == .ready || s.mod.power == .run

/-- A boot that is running is aborted (R196): causes 0 PERST#, 1 FLOW_OK, 2 J1. -/
def State.abortBoot (s : State) (cause : Nat) : State :=
  if !s.boot.running then s
  else
    let step := s.fld R.glbBootStatus 3 0
    (s.warmReset.addFld R.glbBootStatus 15 11 1).hubEvent 0x010E [(1, evCode 0x010E cause), (1, step)]

/-- A reset has been performed: GLB_RESET_STATUS and event 0x0110 (R209). -/
def State.resetDone (s : State) (kind target cause : Nat) : State :=
  let s := ((s.setFld R.glbResetStatus 3 1 kind).setFld R.glbResetStatus 10 4 target).setFld R.glbResetStatus 14 11 cause
  s.hubEvent 0x0110 [(1, kind), (1, target), (1, cause), (1, 0)]

/-- A cold (1) or warm (2) reset is performed, by PERST# (cause 1) or GLB_RESET (cause 2); from Ready or Run the module
enters Standby. A reset by GLB_RESET acts as a pulse of PERST# (R199): the hold of R96 ends, and SLOT_ID is sampled. -/
def State.majorReset (s : State) (kind cause : Nat) : State :=
  let up := s.isUp
  let s := (s.linksDown 0).abortBoot 0
  let s := (if kind = 1 then s.coldReset else s.warmReset).resetDone kind 0 cause
  let s := if up then (s.setPower .standby 1).checkMarks else s
  if cause = 2 then { s with mod := { s.mod with powerLossHold := false, slotId := s.mod.slotSeen } }.showPins else s

/-- PERST# still asserted after another trigger's change acts from Standby (R98). -/
def State.perstAfter (s : State) : State := if s.mod.perst then s.majorReset 2 1 else s

/-- A dry stop takes the module to Standby (R646), and the hold of R647 begins. -/
def State.dryToStandby (s : State) : State :=
  let cause := s.fld R.pwrState 14 13
  let since := match s.pwr.dry with | some (_, t) => t | none => s.mod.islandUs
  let ms := (s.mod.islandUs - since) / 1000
  let hold := s.fld R.pwrCfg 11 4
  let warn := s.fld R.pwrCfg 19 12
  let s := s.drawn.linksDown (Config.freeValue s.free % 256)
  let s := s.warmReset.hubEvent 0x0B03 [(1, cause), (4, ms)]
  let s := { s with mod := { s.mod with dryHold := true, holdSeconds := hold, holdWarn := warn, flowHighSince := if s.mod.flowOk then some s.mod.islandUs else none } }
  (s.setPower .standby 5).checkMarks.perstAfter

/-- A power-loss stop takes the module to Standby (R94). -/
def State.lossToStandby (s : State) : State :=
  let s := s.drawn.linksDown (Config.freeValue s.free % 256)
  (s.warmReset.setPower .standby 4).checkMarks.perstAfter

/-- A change to Standby is made, or waits for the snapshot being written (R98). -/
def State.toStandby (s : State) (c : StandbyCause) : State :=
  if s.crn.snap.isSome then { s with mod := { s.mod with toStandby := some c } }
  else
    match c with
    | .perst => s.majorReset 2 1
    | .powerLoss => s.lossToStandby
    | .dryStop => s.dryToStandby

/-- The power-loss stop (R94): 0x0A0A with the threshold and the voltage, all leave revoked and the units halted, the
cairns frozen; Standby follows the snapshot, and the hold of R96 begins. It governs over a dry stop (R650). -/
def State.powerLoss (s : State) (threshold volts : Nat) : State :=
  let s := s.slowEvent 0x0A0A [(1, threshold), (2, volts)]
  let s := { s with pwr := { s.pwr with dry := none, dryEnding := false } }.haltUnits.freeze 2 0x0A0A
  let crn := { s.crn with thermalStandby := false }
  { s with crn := crn, mod := { s.mod with powerLossHold := true } }.toStandby .powerLoss

/-- The module enters Off: nothing is powered, and every hold of the island ends. -/
def State.enterOff (s : State) : State :=
  let t := s.coldReset
  let m := { t.mod with power := .off, flowOk := false, powerLossHold := false, dryHold := false, flowHighSince := none, uvWarnRun := 0, uvTripRun := 0, ovWarnRun := 0, ovTripRun := 0, offRun := 0, coldRun := 0, volts := [], pips := [] }
  { t with mod := m, regs := [], ser := .reset, crn := { t.crn with drawing := none, queued := none } }

/-- The hold of R647 is over: FLOW_OK high without a break for the hold's seconds, every half below warn. -/
def State.dryHeld (s : State) : Bool :=
  s.mod.dryHold && !((match s.mod.flowHighSince with
      | some t => t + 1000000 * s.mod.holdSeconds ≤ s.mod.islandUs
      | none => false) &&
    (List.range 16).all fun h => decide (Map.getD s.pwr.junction h 0 < s.mod.holdWarn))

/-- What a boot needs to start (R177). -/
def State.mayBoot (s : State) : Bool :=
  s.mod.power == .standby && !s.boot.running && !s.mod.perst && s.mod.flowOk && s.mod.uvWarnRun < 11 &&
    !s.mod.powerLossHold && !s.dryHeld && !s.boot.active.any (fun r => r.kind ≤ 2)

end Sys2Proof.Machine
end

