-- ==== Sys2Proof/Machine/TarnPixels.lean ====
section
/-! DEFINITION. Tarn's pixel arithmetic and Scree tiles (R778, R781 to R788). A channel of a working pixel is an FP32
word; denormals are kept and every RNE rounds once. -/

namespace Sys2Proof.Machine

/-- Bytes per pixel (R778). -/
def pixelBytes (fmt : Nat) : Nat := [4, 4, 4, 4, 8, 16].getD fmt 4

/-- Bits per channel of a Scree format. -/
def screeBits (fmt : Nat) : Nat := if fmt = 4 then 16 else 8

/-- A format of R778 that a Scree surface may hold. -/
def screeFmt (fmt : Nat) : Bool := fmt == 0 || fmt == 1 || fmt == 2 || fmt == 4

/-- The FP32 words 0 and 1. -/
def f32One : Nat := 0x3F800000

/-- RNE of a ratio of naturals. -/
def rneRatio (neg : Bool) (p q : Nat) (e : Int) : Nat :=
  let k := 160 + bitLen q - bitLen p
  (FFmt.f32.round 0 false false neg (p * 2 ^ k / q) (e - k) (p * 2 ^ k % q != 0)).1

/-- Whether `t` is at most the fifth root of `n`, one bit a step. -/
def root5Go : Nat → Nat → Nat → Nat
  | 0, _, r => r
  | k + 1, n, r => root5Go k n (if (r + 2 ^ k) ^ 5 ≤ n then r + 2 ^ k else r)

/-- RNE of f(v / 255), f the decoding function of IEC 61966-2-1 (log entry 57): v / 255 / 12.92 up to 0.04045, above it
((v / 255 + 0.055) / 1.055) to the power 12/5. -/
def srgbDecode (v : Nat) : Nat :=
  if v * 100000 ≤ 4045 * 255 then rneRatio false (v * 100) (255 * 1292) 0
  else
    let n := (1000 * v + 14025) ^ 12 * 2 ^ 400 / 269025 ^ 12
    let r := root5Go 84 n 0
    (FFmt.f32.round 0 false false false r (-80) (r ^ 5 * 269025 ^ 12 != (1000 * v + 14025) ^ 12 * 2 ^ 400)).1

/-- How 255 × g(x) compares with k + 1/2, for x = m × 2^-e and g the encoding function of IEC 61966-2-1: 12.92 x up to
0.0031308, above it 1.055 x^(5/12) - 0.055. -/
def srgbAbove (m e k : Nat) : Ordering :=
  if m * 10000000 ≤ 31308 * 2 ^ e then compare (32946 * m) ((10 * k + 5) * 2 ^ e)
  else compare (m ^ 5 * 269025 ^ 12) ((1000 * k + 14525) ^ 12 * 2 ^ (5 * e))

/-- 255 × g(x) rounded half-even, by its bits from the highest. -/
def srgbEncode (m e : Nat) : Nat :=
  [128, 64, 32, 16, 8, 4, 2, 1].foldl (fun (n : Nat) b =>
    match srgbAbove m e (n + b - 1) with
    | .gt => n + b
    | .eq => if (n + b) % 2 = 0 then n + b else n
    | .lt => n) 0

/-- A float channel: a NaN becomes 0, and an alpha is clamped to [0, 1]. -/
def floatChannel (alpha : Bool) (w : Nat) : Nat :=
  match FFmt.f32.unpack w with
  | .nan _ => 0
  | v =>
    if alpha && FFmt.f32.neg w && v.cmp (.fin false 0 0) == .lt then 0
    else if alpha && v.cmp (.fin false 1 0) == .gt then f32One
    else w

/-- R781: the FP32 channels R, G, B, A of a pixel's bytes. -/
def pixelIn (fmt : Nat) (b : List Nat) : List Nat :=
  let un (n v : Nat) : Nat := rneRatio false v (2 ^ n - 1) 0
  let x := leVal b
  match fmt with
  | 0 => b.map (un 8)
  | 1 => [b.getD 2 0, b.getD 1 0, b.getD 0 0, b.getD 3 0].map (un 8)
  | 2 => (b.take 3).map srgbDecode ++ [un 8 (b.getD 3 0)]
  | 3 => [un 10 (bits x 9 0), un 10 (bits x 19 10), un 10 (bits x 29 20), un 2 (bits x 31 30)]
  | 4 => (List.range 4).map fun c => floatChannel (c == 3) (convert 8 10 false (bits x (16 * c + 15) (16 * c))).1
  | _ => (List.range 4).map fun c => floatChannel (c == 3) (bits x (32 * c + 31) (32 * c))

/-- A NaN of Tarn's arithmetic: the spec gives no rule for the word (log entry 56). -/
def tarnWord (w : Nat) : Nat :=
  if (FFmt.f32.unpack w).isNaN then
    let k := Config.tarnNan % (2 * 0x7FFFFF)
    k / 0x7FFFFF * 2 ^ 31 + 0x7F800001 + k % 0x7FFFFF
  else w

def rneMul (a b : Nat) : Nat := tarnWord (FFmt.f32.mul 0 false a b).1
def rneAdd (a b : Nat) : Nat := tarnWord (FFmt.f32.add 0 false a b).1
def rneFma (a b c : Nat) : Nat := tarnWord (FFmt.f32.fma 0 false a b c).1

/-- R782: one layer over a working pixel. -/
def compose (straight : Bool) (op la : Nat) (d src : List Nat) : List Nat :=
  let sa := src.getD 3 0
  let a1 := rneMul sa la
  let c1 := (src.take 3).map fun c => if straight then rneMul c a1 else rneMul c la
  let dc := d.take 3
  let da := d.getD 3 0
  match op with
  | 0 =>
    let t := rneAdd f32One (if a1 < 2 ^ 31 then a1 + 2 ^ 31 else a1 - 2 ^ 31)
    (dc.zip c1).map (fun p => rneFma t p.1 p.2) ++ [rneFma t da a1]
  | 1 =>
    let a := rneAdd da a1
    (dc.zip c1).map (fun p => rneAdd p.1 p.2) ++
      [if (FFmt.f32.unpack a).cmp (.fin false 1 0) == .gt then f32One else a]
  | _ => c1 ++ [a1]

/-- d[k] / d[a] rounded once, for a positive d[a]. -/
def rneDiv (a b : Nat) : Nat :=
  match FFmt.f32.unpack a, FFmt.f32.unpack b with
  | .fin n m e, .fin _ m2 e2 => if m = 0 then n.toNat * 2 ^ 31 else rneRatio n m m2 (e - e2)
  | .inf n, .fin _ _ _ => FFmt.f32.inf n
  | .fin n _ _, .inf _ => n.toNat * 2 ^ 31
  | _, _ => tarnWord FFmt.f32.nan

/-- clamp(o) as m × 2^-e; a NaN gives 0. -/
def clamp01 (w : Nat) : Nat × Nat :=
  match FFmt.f32.unpack w with
  | .nan _ => (0, 0)
  | .inf n => (if n then 0 else 1, 0)
  | .fin n m e =>
    if n then (0, 0)
    else if (FVal.fin n m e).cmp (.fin false 1 0) == .lt then (m, (-e).toNat) else (1, 0)

/-- An n-bit unorm channel: clamp(o) × (2ⁿ - 1), rounded half-even. -/
def unormOut (n w : Nat) : Nat :=
  let (m, e) := clamp01 w
  let (k, up, _) := cutAt 0 false (m * (2 ^ n - 1)) (-(e : Int)) 0 false
  if up then k + 1 else k

/-- R783: a working pixel as the bytes of a format. -/
def pixelOut (fmt : Nat) (straight : Bool) (d : List Nat) : List Nat :=
  let da := d.getD 3 0
  let pos := (FFmt.f32.unpack da).cmp (.fin false 0 0) == .gt
  let o := if straight then (d.take 3).map (fun c => if pos then rneDiv c da else 0) ++ [da] else d
  let ch (i : Nat) : Nat := o.getD i 0
  let g (i : Nat) : Nat := let (m, e) := clamp01 (ch i); srgbEncode m e
  match fmt with
  | 0 => o.map (unormOut 8)
  | 1 => [unormOut 8 (ch 2), unormOut 8 (ch 1), unormOut 8 (ch 0), unormOut 8 (ch 3)]
  | 2 => [g 0, g 1, g 2, unormOut 8 (ch 3)]
  | 3 => leBytes 4 (unormOut 10 (ch 0) + 2 ^ 10 * unormOut 10 (ch 1) + 2 ^ 20 * unormOut 10 (ch 2) + 2 ^ 30 * unormOut 2 (ch 3))
  | 4 => o.flatMap fun w => leBytes 2 (convert 10 8 true w).1
  | _ => o.flatMap (leBytes 4)

/-! ### Scree tiles (R786 to R788) -/

/-- Sectors of a delta tile with channel widths `ws`. -/
def deltaSectors (p : Nat) (ws : List Nat) : Nat := (p + 4 + (255 * ws.sum + 7) / 8 + 31) / 32

/-- The values of a channel after pixel 0, newest first: left neighbour, or the one above at column 0. -/
def deltaGo (w b stream : Nat) : Nat → Nat → Nat → List Nat → List Nat
  | 0, _, _, vs => vs
  | k + 1, i, off, vs =>
    let z := stream / 2 ^ off % 2 ^ b
    let pred := if i % 16 = 0 then vs.getD 15 0 else vs.headD 0
    let d := if z % 2 = 0 then z / 2 else 2 ^ w - (z + 1) / 2
    deltaGo w b stream k (i + 1) (off + b) ((pred + d) % 2 ^ w :: vs)

/-- The channels of a delta tile in storage order, each 256 values. -/
def deltaRead (w stream : Nat) : Nat → List (Nat × Nat) → List (List Nat)
  | _, [] => []
  | off, (v0, b) :: cs => (deltaGo w b stream 255 1 off [v0]).reverse :: deltaRead w stream (off + 255 * b) cs

/-- The 256 pixels of four channels, as bytes. -/
def pixelsOf (w : Nat) (chs : List (List Nat)) : List (List Nat) :=
  (List.range 256).map fun i => chs.flatMap fun c => leBytes (w / 8) (c.getD i 0)

/-- The channels of 256 pixels. -/
def channelsOf (w : Nat) (px : List (List Nat)) : List (List Nat) :=
  (List.range 4).map fun c => px.map fun b => leVal ((b.drop (c * (w / 8))).take (w / 8))

/-- The values z of a channel for pixels 1 to 255. -/
def deltaZ (w : Nat) (v : List Nat) : List Nat :=
  (List.range 255).map fun j =>
    let i := j + 1
    let pred := if i % 16 = 0 then v.getD (i - 16) 0 else v.getD (i - 1) 0
    let r := (v.getD i 0 + 2 ^ w - pred) % 2 ^ w
    if r < 2 ^ (w - 1) then 2 * r else 2 * (2 ^ w - r) - 1

/-- A bit string of values of one width. -/
def packBits (b : Nat) (l : List Nat) : Nat := l.foldr (fun z n => z + 2 ^ b * n) 0

/-- The 256 pixels of a tile from its mode and data. -/
def screeDecode (fmt mode : Nat) (data : List Nat) : List (List Nat) :=
  let p := pixelBytes fmt
  let w := screeBits fmt
  match mode with
  | 0 => List.replicate 256 (List.replicate p 0)
  | 1 => List.replicate 256 (padTo p data)
  | 2 =>
    let first := (List.range 4).map fun c => leVal ((data.drop (c * (w / 8))).take (w / 8))
    pixelsOf w (deltaRead w (leVal (data.drop (p + 4))) 0 (first.zip ((data.drop p).take 4)))
  | _ => (List.range 256).map fun i => padTo p ((data.drop (i * p)).take p)

/-- Mode, sectors and data of a tile (R788). -/
def screeEncode (fmt : Nat) (px : List (List Nat)) : Nat × Nat × List Nat :=
  let p := pixelBytes fmt
  let w := screeBits fmt
  let first := px.headD []
  if px.all fun b => b.all (· == 0) then (0, 0, [])
  else if px.all (· == first) then (1, 1, padTo 32 first)
  else
    let zs := (channelsOf w px).map (deltaZ w)
    let ws := zs.map fun l => bitLen (l.foldl max 0)
    let n := deltaSectors p ws
    if n < 8 * p then
      let stream := (zs.zip ws).foldr (fun q acc => packBits q.2 q.1 + 2 ^ (255 * q.2) * acc) 0
      (2, n, padTo (32 * n) (first ++ ws ++ leBytes ((255 * ws.sum + 7) / 8) stream))
    else (3, 8 * p, px.flatten)

end Sys2Proof.Machine
end

