-- ==== Sys2Proof/Machine/Tarn.lean ====
section
/-! DEFINITION. Tarn: pass queues, checks, composition, outputs and ends (R772 to R805). -/

namespace Sys2Proof.Machine

/-! ### Queues (R772, R773) -/

/-- A refused write: event 0x0F07 with the queue, the register's offset and the value. -/
def State.refuseQueue (s : State) (q off v : Nat) : State := s.hubEvent 0x0F07 [(1, q), (4, off), (4, v)]

/-- TARN_QUEUE_TAIL: a new tail is taken unless it lies behind the present one or more than 2^log2 entries beyond the
head. -/
def execTarnQueueTail (queue : Nat) (v : Word) (s : State) : Host.Outcome State Fault Refusal :=
  let h := s.reg (R.trnQHead queue)
  let d (x : Nat) : Nat := (x + 2 ^ 32 - h) % 2 ^ 32
  .next (if d v.toNat < d (s.reg (R.trnQTail queue)) || 2 ^ s.fld (R.trnQSize queue) 3 0 < d v.toNat then
      s.refuseQueue queue (R.trnQTail queue) v.toNat
    else s.setReg (R.trnQTail queue) v.toNat)

/-- The queue whose oldest pass is next: the highest-numbered enabled one that holds one. -/
def State.nextQueue (s : State) : Option Nat :=
  [3, 2, 1, 0].find? fun q => s.flag R.trnCtl q && s.reg (R.trnQHead q) != s.reg (R.trnQTail q)

/-! ### Reading (R791, R801) -/

/-- A read of the system window is under way for Tarn. -/
def State.trnAsked (s : State) (l : Nat) : Bool :=
  s.hst.reads.any fun q => match q.2.who with | .tarn _ m => m == l | _ => false

/-- Tarn has read an uncorrectable error: status 12 and event 0x0F08 (R801); which unit the event names is not stated
(log entry 73). -/
def State.tarnPoison (s : State) (who : Nat) : State :=
  (s.drawn.hubEvent 0x0F08 [(1, Config.freeValue s.free % 256)]).tarnEnd 12 who

/-- `n` bytes for a layer (0xFF the output): from HBM at once; from the system window once its lines have come, asking
for those that have not. A window miss ends the pass with status 7, a host error with 8, poison with 12. -/
def State.trnRead (s : State) (who a n : Nat) : State × Option (List Nat) :=
  if n = 0 then (s, some [])
  else if !inSwm a then
    if s.poisoned a n then (s.tarnPoison who, none) else (s, some (s.deviceBytes a n))
  else
    let first := a / 128
    (List.range ((a + n - 1) / 128 + 1 - first)).foldl (fun (acc : State × Option (List Nat)) i =>
      let s := acc.1
      let l := first + i
      match s.trn.pass with
      | none => (s, none)
      | some p =>
        match Map.get? p.lines l with
        | some b =>
          (s, acc.2.map fun bs =>
            let lo := if i = 0 then a % 128 else 0
            bs ++ (b.drop lo).take (min (128 - lo) (n - bs.length)))
        | none =>
          if p.ended.isSome || s.trnAsked l then (s, none)
          else
            match s.swmLookup (l * 128) false with
            | (s, .ok port func pasid h) =>
              (s.hostAsk { who := .tarn who l, port := port, func := func, pasid := pasid, addr := h, len := 128 }, none)
            | (s, .miss) => ((s.windowFail 33 .miss ((l * 128 - swmLo) / 65536)).tarnEnd 7 who, none)
            | (s, .hostError pt fn) => ((s.windowFail 33 (.hostError pt fn) ((l * 128 - swmLo) / 65536)).tarnEnd 8 who, none))
      (s, some [])

/-- A read followed by what is done with its bytes. -/
def thenRead {α β : Type} (r : State × Option α) (f : State → α → State × Option β) : State × Option β :=
  match r with
  | (s, some b) => f s b
  | (s, none) => (s, none)

/-- Bytes written by Tarn: WrNCs to HBM, posted writes to the system window. -/
def State.trnWrite (s : State) (a : Nat) (bytes : List Nat) : State :=
  if bytes = [] then s
  else if !inSwm a then s.writeDevice (.engine 0) tagTarn 0 a bytes
  else
    let first := a / 128
    (List.range ((a + bytes.length - 1) / 128 + 1 - first)).foldl (fun s i =>
      let l := first + i
      let lo := max a (l * 128)
      let hi := min (a + bytes.length) (l * 128 + 128)
      match s.swmLookup lo true with
      | (s, .ok port _ _ h) => s.hostWrite port h ((bytes.drop (lo - a)).take (hi - lo))
      | (s, .miss) => (s.windowFail 33 .miss ((lo - swmLo) / 65536)).tarnEnd 7 0xFF
      | (s, .hostError pt fn) => (s.windowFail 33 (.hostError pt fn) ((lo - swmLo) / 65536)).tarnEnd 8 0xFF) s

/-! ### Checks (R774, R776, R777, R785, R790) -/

/-- The pass of an entry's 64 bytes; none where a field is out of range, an address misaligned or outside HBM and the
system window, or a reserved field set. -/
def State.parsePass (s : State) (queue count entry : Nat) (b : List Nat) : TarnPass × Bool :=
  let f := fieldAt b
  let bpp := pixelBytes (f 3 1)
  let bg := (List.range 4).map fun i => f (0x20 + 4 * i) 4
  let p : TarnPass := { queue := queue, count := count, entry := entry, kind := f 2 1, fmt := f 3 1, straight := f 4 1 == 1, stream := f 5 1, w := f 8 2, h := f 0xA 2, stride := f 0xC 4, addr := f 0x10 8, bg := bg, vector := f 0x3C 2, irq := bit (f 0x3E 1) 0, layers := [], checked := false, lines := [], tiles := 0, layer := 0, inTile := false, band := [], buf := [], table := 0, data := 0, size := 0, used := 0, sealed := false, pips := 0, granted := false, leaveSince := none, slotSince := none, cancel := false, giveUp := 0, ended := none }
  let out := match p.kind with
    | 0 => p.stride % 16 == 0 && p.w * bpp ≤ p.stride && p.addr % 16 == 0 && s.rangeOk p.addr ((p.h - 1) * p.stride + p.w * bpp)
    | 1 => p.stride == 0 && s.rangeOk p.addr 64
    | _ => p.stride == 0 && p.addr == 0
  (p, 1 ≤ f 1 1 && f 1 1 ≤ 64 && p.kind ≤ 2 && p.fmt ≤ 5 && f 4 1 ≤ 1 && (if p.kind = 2 then p.stream < 64 else p.stream == 0) &&
    1 ≤ p.w && p.w ≤ 16384 && 1 ≤ p.h && p.h ≤ 16384 && out && f 0x18 8 % 64 == 0 && s.rangeOk (f 0x18 8) (32 * f 1 1) &&
    (bg.all fun w => !(FFmt.f32.unpack w).isNaN) && p.vector < 2048 && f 0x3E 1 ≤ 1 && f 0x3F 1 == 0)

/-- Why a Scree header is refused (R790, reasons 1 to 4): `fit` is the format and size that an output must have; the
driver leaves data_used and crc of an output header to Tarn. -/
def State.screeBad (s : State) (b : List Nat) (fit : Option (Nat × Nat × Nat)) : Nat :=
  let f := fieldAt b
  let w := f 8 2
  let h := f 0xA 2
  if f 0 4 != 0x45524353 || f 4 2 != 1 || 1 < f 7 1 || (b.drop 0x2C).any (· != 0) || (fit.isNone && f 0x28 4 != crc32 (b.take 0x28)) then 1
  else if !screeFmt (f 6 1) then 2
  else if w = 0 || 16384 < w || h = 0 || 16384 < h || f 0xC 2 != (w + 15) / 16 || f 0xE 2 != (h + 15) / 16 ||
      (fit.isSome && fit != some (f 6 1, w, h)) then 3
  else if f 0x10 8 % 64 != 0 || f 0x18 8 % 128 != 0 || f 0x20 4 % 128 != 0 || !s.rangeOk (f 0x10 8) (f 0xC 2 * f 0xE 2 * 8) ||
      !(f 0x20 4 == 0 || s.rangeOk (f 0x18 8) (f 0x20 4)) then 4
  else 0

/-- A refused surface: event 0x0F04, status 5 with the layer and the reason. -/
def State.screeRefuse (s : State) (who reason : Nat) : State :=
  (s.hubEvent 0x0F04 [(1, who), (1, reason)]).tarnEnd 5 (who + 256 * reason)

/-- A layer entry's fields, and whether they are in range. -/
def State.parseLayer (s : State) (b : List Nat) : TarnLayer × Bool :=
  let f := fieldAt b
  let scree := f 0xC 1 == 1
  let l : TarnLayer := { addr := f 0 8, stride := f 8 4, scree := scree, fmt := f 0xD 1, straight := f 0xE 1 == 1, op := f 0xF 1, w := f 0x10 2, h := f 0x12 2, dx := signed 16 (f 0x14 2), dy := signed 16 (f 0x16 2), la := f 0x18 4, table := 0, data := 0, size := 0 }
  let bpp := pixelBytes l.fmt
  let src := if scree then l.stride == 0 && l.fmt == 0 && f 0xE 1 == 0 && l.w == 0 && l.h == 0 && s.rangeOk l.addr 64
    else l.fmt ≤ 5 && f 0xE 1 ≤ 1 && 1 ≤ l.w && l.w ≤ 16384 && 1 ≤ l.h && l.h ≤ 16384 && l.stride % 16 == 0 && l.w * bpp ≤ l.stride &&
      l.addr % 16 == 0 && s.rangeOk l.addr ((l.h - 1) * l.stride + l.w * bpp)
  (l, f 0xC 1 ≤ 1 && src && l.op ≤ 2 && (l.la ≤ f32One || l.la == 2 ^ 31) && f 0x1C 4 == 0)

/-- Layer `i` read and checked; its Scree header gives its size, format and alpha mode. -/
def State.checkLayer (s : State) (tbl i : Nat) : State × Option TarnLayer :=
  thenRead (s.trnRead i (tbl + 32 * i) 32) fun s b =>
    let (l, ok) := s.parseLayer b
    if !ok then (s.tarnEnd 4 i, none)
    else if !l.scree then (s, some l)
    else
      thenRead (s.trnRead i l.addr 64) fun s b =>
        let bad := s.screeBad b none
        if bad != 0 then (s.screeRefuse i bad, none)
        else
          let f := fieldAt b
          (s, some { l with fmt := f 6 1, straight := bit (f 7 1) 0, w := f 8 2, h := f 0xA 2, table := f 0x10 8, data := f 0x18 8, size := f 0x20 4 })

/-- Every layer in ascending order, then the output's Scree header: the checked pass. -/
def State.checkPass (s : State) (p : TarnPass) (tbl n : Nat) : State × Option TarnPass :=
  let r := (List.range n).foldl (fun (acc : State × Option (List TarnLayer)) i =>
    thenRead acc fun s ls => thenRead (s.checkLayer tbl i) fun s l => (s, some (ls ++ [l]))) (s, some [])
  thenRead r fun s ls =>
    let pips := 16 + (if ls.any (·.scree) then 8 else 0) + (if p.kind = 1 then 8 else 0)
    let p := match s.trn.pass with
      | some q => { q with layers := ls, checked := true, pips := pips, lines := [] }
      | none => p
    if p.kind != 1 then (s, some p)
    else
      thenRead (s.trnRead 0xFF p.addr 64) fun s b =>
        let bad := s.screeBad b (some (p.fmt, p.w, p.h))
        if bad != 0 then (s.screeRefuse 0xFF bad, none)
        else
          let f := fieldAt b
          (s, some { p with table := f 0x10 8, data := f 0x18 8, size := f 0x20 4 })

/-- The entry is read and checked, the stream bound (R793), leave asked for (R797), as far as what it reads has come. -/
def State.beginPass (s : State) (p : TarnPass) : State :=
  match s.trnRead 0xFF p.entry 64 with
  | (s, none) => s
  | (s, some b) =>
    if !(s.parsePass p.queue p.count p.entry b).2 then s.tarnEnd 3 0
    else
      match s.checkPass p (fieldAt b 0x18 8) (fieldAt b 1 1) with
      | (s, none) => s
      | (s, some p) =>
        let s := s.setPass p
        let (s, ok) := if p.kind = 2 then s.bindStream p.stream .tarn else (s, true)
        if !ok then s.tarnEnd 10 0
        else
          match s.poolRequest .tarn p.pips with
          | (s, true) =>
            -- the header's alpha flag, R789
            if p.kind = 1 then s.trnWrite (p.addr + 7) [p.straight.toNat] else s
          | (s, false) => s.tarnEnd 9 0

/-- PASS_START: at a pass boundary the next pass is taken (event 0x0F01); a pass whose checks wait for data from a host
goes on with them. -/
def execPassStart (s : State) : Host.Outcome State Fault Refusal :=
  .next (s.whenRun fun s =>
    match s.trn.pass with
    | some p => if p.checked || p.ended.isSome then s else s.beginPass p
    | none =>
      match s.nextQueue with
      | none => s
      | some q =>
        let x := s.reg (R.trnQHead q)
        let a := s.pair (R.trnQBaseLo q) (R.trnQBaseHi q) + 64 * (x % 2 ^ s.fld (R.trnQSize q) 3 0)
        let p := (s.parsePass q x a (if s.rangeOk a 64 && !inSwm a then s.deviceBytes a 64 else [])).1
        let s := (s.setPass p).hubEvent 0x0F01 [(1, q), (4, x), (1, if s.rangeOk a 64 && !inSwm a then s.deviceByte (a + 1) else 0), (1, p.kind)]
        if s.rangeOk a 64 && !inSwm a then s.beginPass p else s.tarnEnd 3 0)

/-! ### Composition (R782, R786 to R788, R792) -/

/-- The pixels of Scree tile (tx, ty) of a layer: R790's reasons 5 and 6 are found here. -/
def State.screeTile (s : State) (i : Nat) (l : TarnLayer) (tx ty : Nat) : State × Option (List (List Nat)) :=
  let p := pixelBytes l.fmt
  thenRead (s.trnRead i (l.table + 8 * (ty * ((l.w + 15) / 16) + tx)) 8) fun s e =>
    let off := 32 * fieldAt e 0 4
    let mode := fieldAt e 4 1
    let sec := fieldAt e 5 1
    if 3 < mode || (mode == 0 && sec != 0) || (mode == 1 && sec != 1) || (mode == 3 && sec != 8 * p) || (mode == 2 && sec == 0) ||
        l.size < off + 32 * sec then (s.screeRefuse i 5, none)
    else
      thenRead (s.trnRead i (l.data + off) (32 * sec)) fun s d =>
        if mode = 2 then
          let ws := (d.drop p).take 4
          if deltaSectors p ws != sec then (s.screeRefuse i 5, none)
          else if ws.any (screeBits l.fmt < ·) then (s.screeRefuse i 6, none)
          else (s, some (screeDecode l.fmt 2 d))
        else (s, some (screeDecode l.fmt mode d))

/-- The source pixels of a layer under one output tile, by output pixel in raster order; none where it covers
nothing. -/
def State.layerTile (s : State) (p : TarnPass) (i : Nat) (l : TarnLayer) (tx ty : Nat) : State × Option (List (Option (List Nat))) :=
  let bpp := pixelBytes l.fmt
  let x0 : Int := 16 * tx - l.dx
  let y0 : Int := 16 * ty - l.dy
  let inside (x y : Int) : Bool := 0 ≤ x && x < l.w && 0 ≤ y && y < l.h
  let seen (k : Nat) : Bool := 16 * tx + k % 16 < p.w && 16 * ty + k / 16 < p.h
  if !((List.range 256).any fun k => seen k && inside (x0 + (k % 16 : Nat)) (y0 + (k / 16 : Nat))) then (s, some (List.replicate 256 none))
  else if l.scree then
    let xs := ((List.range 16).filter fun (k : Nat) => 0 ≤ x0 + k && x0 + k < l.w && 16 * tx + k < p.w).map fun (k : Nat) => (x0 + k).toNat / 16
    let ys := ((List.range 16).filter fun (k : Nat) => 0 ≤ y0 + k && y0 + k < l.h && 16 * ty + k < p.h).map fun (k : Nat) => (y0 + k).toNat / 16
    let tiles := (ys.eraseDups).flatMap fun b => (xs.eraseDups).map fun a => (a, b)
    let r := tiles.foldl (fun (acc : State × Option (List ((Nat × Nat) × List (List Nat)))) t =>
      thenRead acc fun s got => thenRead (s.screeTile i l t.1 t.2) fun s px => (s, some (got ++ [(t, px)]))) (s, some [])
    thenRead r fun s got =>
      (s, some ((List.range 256).map fun k =>
        let x := x0 + (k % 16 : Nat)
        let y := y0 + (k / 16 : Nat)
        if seen k && inside x y then
          (got.find? fun g => g.1 == (x.toNat / 16, y.toNat / 16)).map fun g => g.2.getD (y.toNat % 16 * 16 + x.toNat % 16) []
        else none))
  else
    let lo := (max x0 0).toNat
    let hi := (min (min (x0 + 16) l.w) ((p.w : Int) - l.dx)).toNat
    (List.range 16).foldl (fun (acc : State × Option (List (Option (List Nat)))) (r : Nat) =>
      thenRead acc fun s got =>
        let y := y0 + r
        if !(0 ≤ y && y < l.h && 16 * ty + r < p.h) then (s, some (got ++ List.replicate 16 none))
        else
          thenRead (s.trnRead i (l.addr + y.toNat * l.stride + lo * bpp) ((hi - lo) * bpp)) fun s row =>
            (s, some (got ++ (List.range 16).map fun (c : Nat) =>
              let x := x0 + c
              if (lo : Int) ≤ x && x < hi then some ((row.drop ((x.toNat - lo) * bpp)).take bpp) else none))) (s, some [])

/-- The working pixels of an output tile: bg, then every layer in ascending order. -/
def State.composeTile (s : State) (p : TarnPass) (tx ty : Nat) : State × Option (List (List Nat)) :=
  p.layers.zipIdx.foldl (fun (acc : State × Option (List (List Nat))) li =>
    thenRead acc fun s d =>
      thenRead (match s.trn.pass with
        | some q => s.setPass { q with layer := li.2 }
        | none => s, some ()) fun s _ =>
        thenRead (s.layerTile p li.2 li.1 tx ty) fun s src =>
          (s, some ((d.zip src).map fun q =>
            match q.2 with
            | some b => compose li.1.straight li.1.op li.1.la q.1 (pixelIn li.1.fmt b)
            | none => q.1))) (s, some (List.replicate 256 p.bg))

/-- The encoded pixels of a tile written: rows of a linear surface, a Scree tile and then its entry, or the rows of a
band. -/
def State.putTile (s : State) (p : TarnPass) (tx ty : Nat) (px : List (List Nat)) : State :=
  let bpp := pixelBytes p.fmt
  let rows := min 16 (p.h - 16 * ty)
  let cols := min 16 (p.w - 16 * tx)
  let row (r : Nat) : List Nat := ((px.drop (16 * r)).take cols).flatten
  match p.kind with
  | 0 => (List.range rows).foldl (fun s r => s.trnWrite (p.addr + (16 * ty + r) * p.stride + 16 * tx * bpp) (row r)) s
  | 1 =>
    let full := px.zipIdx.map fun q => if q.2 % 16 < cols && q.2 / 16 < rows then q.1 else List.replicate bpp 0
    let (mode, sec, data) := screeEncode p.fmt full
    if p.size < p.used + 32 * sec then s.tarnEnd 6 0xFF
    else
      let s := s.trnWrite (p.data + p.used) data
      let s := s.trnWrite (p.table + 8 * (ty * ((p.w + 15) / 16) + tx)) (leBytes 4 (if mode = 0 then 0 else p.used / 32) ++ [mode, sec, 0, 0])
      match s.trn.pass with
      | some q => s.setPass { q with used := p.used + 32 * sec }
      | none => s
  | _ =>
    let old := if p.band = [] then List.replicate rows [] else p.band
    match s.trn.pass with
    | some q => s.setPass { q with band := old.zipIdx.map fun x => x.1 ++ row x.2 }
    | none => s

/-- Output tiles of a pass, and how many stand in a row. -/
def TarnPass.across (p : TarnPass) : Nat := (p.w + 15) / 16
def TarnPass.total (p : TarnPass) : Nat := p.across * ((p.h + 15) / 16)

/-- The next output tile, unless the pass has ended or its data has not come; a cancel takes effect at its end
(R802). -/
def State.nextTile (s : State) : State :=
  match s.trn.pass with
  | none => s
  | some p =>
    if p.ended.isSome || p.total ≤ p.tiles || !p.granted then s
    else
      let tx := p.tiles % p.across
      let ty := p.tiles / p.across
      match (s.setPass { p with inTile := true }).composeTile p tx ty with
      | (s, none) => s
      | (s, some d) =>
        let s := s.putTile p tx ty (d.map (pixelOut p.fmt p.straight))
        match s.trn.pass with
        | none => s
        | some q =>
          if q.ended.isSome then s
          else
            let q := { q with tiles := q.tiles + 1, layer := 0, inTile := false, lines := [] }
            let q := if q.tiles % q.across = 0 then { q with buf := q.buf ++ q.band.flatten, band := [] } else q
            let s := s.setPass q
            if q.cancel then s.tarnEnd 13 0 else s

/-- The composed rows cut into pages and published while slots are free (R793); without one Tarn waits (R799). -/
def State.publishRows : Nat → State → State
  | 0, s => s
  | fuel + 1, s =>
    match s.trn.pass with
    | none => s
    | some p =>
      let n := s.pageBytes p.stream
      let last := p.tiles == p.total && p.buf.length ≤ n
      if p.buf = [] || (p.buf.length < n && !last) || p.ended.isSome then s
      else if !s.pageRoom p.stream then
        s.tarnStall ((s.stream p.stream).r + (s.stream p.stream).lens.length)
      else State.publishRows fuel ((s.publish p.stream (p.buf.take n) last tagTarn).setPass { p with buf := p.buf.drop n })

/-- TARN_BAND_PUBLISH: the tiles of a band are composed and completed one after another, and a stream's rows are then
published. -/
def execTarnBandPublish (s : State) : Host.Outcome State Fault Refusal :=
  .next (s.whenRun fun s =>
    match s.trn.pass with
    | none => s
    | some p =>
      if !p.checked || p.ended.isSome || !p.granted then s
      else
        let s := if p.buf.length < s.pageBytes p.stream then (List.range (p.across - p.tiles % p.across)).foldl (fun s _ => s.nextTile) s else s
        if p.kind = 2 then State.publishRows (2 ^ 20) s else s)

/-! ### Ends (R792 to R796, R802, R803) -/

/-- The pass has ended with a status: entry, head, counters, vector and event 0x0F02. Where no rule gives detail it is a
free value (log entry 58). -/
def State.finishPass (s : State) (p : TarnPass) (st det : Nat) : State :=
  let s := if p.kind = 2 && (s.stream p.stream).producer == some .tarn && !(st ≤ 2 || st == 10 || st == 11) then s.abortStream p.stream 2 else s
  let open' := [3, 9, 10, 11, 12, 13].contains st
  let det := if open' then Config.freeValue s.free % 65536 else det
  let s := if open' then s.drawn else s
  let here := s.rangeOk p.entry 64 && !inSwm p.entry
  let s := if !here then s
    else
      let s := if st ≤ 2 then s else s.trnWrite (p.entry + 6) (leBytes 2 det)
      (s.trnWrite (p.entry + 0x38) (leBytes 4 p.tiles)).trnWrite p.entry [st]
  let s := s.setReg (R.trnQHead p.queue) ((p.count + 1) % 2 ^ 32)
  let s := s.count R.trnPasses 1
  let s := if 3 ≤ st then s.count R.trnFailed 1 else s
  let s := { s with trn := { pass := none, vectors := if p.irq then s.trn.vectors ++ [p.vector] else s.trn.vectors } }
  (s.poolRelease .tarn).hubEvent 0x0F02 [(1, p.queue), (4, p.count), (1, st), (2, if st ≤ 2 then 0 else det), (4, p.tiles)]

/-- PASS_END: a pass that has ended, or whose output is complete and performed, ends. A Scree output's data_used and crc
are written once every tile and entry is performed. -/
def execPassEnd (s : State) : Host.Outcome State Fault Refusal :=
  .next (s.whenRun fun s =>
    match s.trn.pass with
    | none => s
    | some p =>
      match p.ended with
      | some (st, det) => s.finishPass p st det
      | none =>
        if !p.checked || p.tiles != p.total || p.buf != [] then s
        else if p.kind = 2 then
          match (s.stream p.stream).told with
          | 1 => s.finishPass p 1 0
          | 2 => s.finishPass p 2 0
          | _ => s
        else if s.writesOut tagTarn != 0 then s
        else if p.kind = 1 && !p.sealed then
          match (s.setPass { p with sealed := true }).trnRead 0xFF p.addr 64 with
          | (s, some b) =>
            let h := (b.take 7) ++ [p.straight.toNat] ++ (b.drop 8).take 0x1C ++ leBytes 4 p.used
            s.trnWrite (p.addr + 0x24) (leBytes 4 p.used ++ leBytes 4 (crc32 h))
          | (s, none) =>
            match s.trn.pass with
            | some q => s.setPass { q with sealed := false }
            | none => s
        else s.finishPass p 1 0)

/-- TARN_GIVE_UP: the stream has been incomplete for give_up ms while Tarn waits for a slot (R795). -/
def execTarnGiveUp (s : State) : Host.Outcome State Fault Refusal :=
  .next (s.whenRun fun s =>
    match s.trn.pass with
    | none => s
    | some p =>
      let x := s.stream p.stream
      if p.slotSince.isSome && p.ended.isNone && x.st = 2 && x.producer = some .tarn && p.giveUp != 0 && decide (x.since + 1000 * p.giveUp ≤ s.mod.islandUs) then
        (((s.tarnEnd 11 0).abortStream p.stream 2)).hubEvent 0x0F06 [(1, p.stream), (4, x.r + x.lens.length)]
      else s)

/-- TARN_CANCEL: the running pass ends with status 13, inside a tile at that tile's end. -/
def execTarnCancel (s : State) : Host.Outcome State Fault Refusal :=
  .next (match s.trn.pass with
    | none => s
    | some p => if p.inTile then s.setPass { p with cancel := true } else s.tarnEnd 13 0)

/-- A function-level reset of the control function ends the running pass at once and empties every queue (R803). -/
def State.tarnFlr (s : State) : State :=
  let s := match s.trn.pass with
    | none => s
    | some p =>
      let s := { s with trn := { s.trn with pass := none } }
      let s := if p.kind = 2 && (s.stream p.stream).producer == some .tarn then s.abortStream p.stream 1 else s
      s.poolRelease .tarn
  (List.range 4).foldl (fun s q => s.setReg (R.trnQHead q) (s.reg (R.trnQTail q))) s

end Sys2Proof.Machine
end

