-- ==== Sys2Proof/Machine/Reset.lean ====
section
/-! DEFINITION. Resets: requests, partition, sequencer and function-level resets (R198 to R209, R217, R218, R601, R686,
R695, R803, R845). -/

namespace Sys2Proof.Machine

/-! ### Requests (R200, R207, R217, R218) -/

/-- Place of a kind in the order of R200, the widest first. -/
def resetRank (kind : Nat) : Nat := [9, 0, 1, 3, 4, 2].getD kind 9

/-- GLB_RESET_STATUS.busy. -/
def State.showBusy (s : State) : State :=
  s.setFlag R.glbResetStatus 0 (!s.boot.active.isEmpty || !s.boot.deferred.isEmpty)

/-- The resets in progress replaced. -/
def State.setActive (s : State) (l : List ResetReq) : State := { s with boot := { s.boot with active := l } }.showBusy

/-- A sequencer enters its reset; with the hub's, dispatch and admission stop (R204). -/
def State.seqEnters (s : State) (d : Nat) : State :=
  let s := if d = 8 then { s with jobs := { s.jobs with paused := true } } else s
  s.setPhase d 4

/-- A reset begins; a sequencer or partition reset requested in a swap is deferred (R207). -/
def State.startReset (s : State) (r : ResetReq) : State :=
  if (r.kind = 3 || r.kind = 5) && s.inSwap then
    { s with boot := { s.boot with deferred := s.boot.deferred ++ [r] } }.showBusy
  else
    let s := s.setActive (s.boot.active ++ [r])
    if r.kind = 5 then s.seqEnters r.target else s

/-- Deferred resets begin when the swap ends (R207). -/
def State.startDeferred (s : State) : State :=
  let l := s.boot.deferred
  (l.foldl State.startReset { s with boot := { s.boot with deferred := [] } }).showBusy

/-- A request covers a reset in progress (R200): a cold or warm one every other, a peak sequencer's the partitions that
hold a half of its peak. -/
def State.covers (s : State) (kind target : Nat) (r : ResetReq) : Bool :=
  kind ≤ 2 || (kind == 5 && r.kind == 3 && (match s.partRec r.target with
    | some p => p.halves.any fun h => h / 2 == target
    | none => false))

/-- A GLB_RESET write: refused with a bad key or range, or while a reset of the same or a wider kind is in progress;
otherwise the resets that it covers are taken over. -/
def State.resetRequest (s : State) (kind key target limit : Nat) (f : State → State) : State :=
  let busy := (s.boot.active ++ s.boot.deferred).any fun r => resetRank r.kind ≤ resetRank kind
  if key != 0xA5C3 || limit ≤ target || busy then s.hubEvent 0x0110 [(1, kind), (1, target), (1, 2), (1, 1)]
  else
    let keep (l : List ResetReq) : List ResetReq := l.filter fun r => !s.covers kind target r
    f { s with boot := { s.boot with active := keep s.boot.active, deferred := keep s.boot.deferred } }

/-! ### Cold and warm -/

/-- RESET_COLD: GLB_RESET with kind 1: the cairns freeze first, and the reset follows their snapshot (R202). -/
def execResetCold (key : Nat) (s : State) : Host.Outcome State Fault Refusal :=
  .next (s.resetRequest 1 key 0 1 fun s =>
    (s.setActive [{ kind := 1, target := 0, port := 0, cause := 2, done := false }]).freeze 3 0x0110)

/-- RESET_WARM: GLB_RESET with kind 2: at once, or after the snapshot being written (R98). -/
def execResetWarm (key : Nat) (s : State) : Host.Outcome State Fault Refusal :=
  .next (s.resetRequest 2 key 0 1 fun s =>
    if s.crn.snap.isSome then s.setActive [{ kind := 2, target := 0, port := 0, cause := 2, done := false }]
    else s.majorReset 2 2)

/-! ### Partition resets (R203) -/

/-- The effects of a partition reset; the halves of the partition resume and are disarmed first (R845). A partition that
the image lacks is not reset. -/
def State.partReset (s : State) (p cause : Nat) (detail : List Nat) : State :=
  match s.partRec p with
  | none => s
  | some r =>
    let s := r.halves.foldl (fun s h => (s.resumeHalf h).setFlag R.jtgArmed h false) s
    (s.resetPart p 2 detail).resetDone 3 p cause

/-- RESET_PARTITION: GLB_RESET with kind 3. -/
def execResetPartition (key target : Nat) (s : State) : Host.Outcome State Fault Refusal :=
  .next (s.resetRequest 3 key target 16 fun s => s.startReset { kind := 3, target := target, port := 0, cause := 2, done := false })

/-- The partition reset of `p` in progress. -/
def State.partActive (s : State) (p : Nat) : Option ResetReq := s.boot.active.find? fun r => r.kind == 3 && r.target == p

/-- HUB_PARTITION_RESET: the hub command that carries out a partition reset in progress. -/
def execHubPartitionReset (part : Nat) (s : State) : Host.Outcome State Fault Refusal :=
  .next (s.whenSeq 8 fun s =>
    match s.partActive part with
    | none => s
    | some r =>
      if r.done then s
      else (s.setActive (s.boot.active.map fun x => if x = r then { x with done := true } else x)).partReset part r.cause (resetDetail 3 r.cause))

/-- PARTITION_RESET_COMPLETE: the reset's effects stand, and it is over. -/
def execPartitionResetComplete (part : Nat) (s : State) : Host.Outcome State Fault Refusal :=
  .next (s.whenRun fun s =>
    match s.partActive part with
    | none => s
    | some r =>
      let s := if r.done then s else s.partReset part r.cause (resetDetail 3 r.cause)
      s.setActive (s.boot.active.filter fun x => x != r))

/-! ### Sequencer resets (R204, R672, R677) -/

/-- RESET_SEQUENCER: GLB_RESET with kind 5. -/
def execResetSequencer (key target : Nat) (s : State) : Host.Outcome State Fault Refusal :=
  .next (s.resetRequest 5 key target 9 fun s => s.startReset { kind := 5, target := target, port := 0, cause := 2, done := false })

/-- The SEQ block of a sequencer reset: its settings, counters and fault; what its control store holds stands in
SEQ_VERSION, and the hub's FLT registers and the levels of patches are kept (log entry 60). -/
def State.clearSeqRegs (s : State) (d : Nat) : State :=
  [R.seqSel d, R.seqCfg d, R.seqCmdCount d, R.seqCmdMax d, R.seqEcc d, R.seqFault d, R.seqQueue d].foldl
    (fun s a => s.setReg a (regReset a).toNat) s

/-- SEQUENCER_RESET_COMPLETE: the partitions of a peak are reset; the control store is reloaded; the hub's sequencer
starts its incomplete intake command again. -/
def execSequencerResetComplete (seq : Nat) (s : State) : Host.Outcome State Fault Refusal :=
  .next (match s.boot.active.find? fun r => r.kind == 5 && r.target == seq with
    | none => s
    | some r =>
      let parts := (s.partTable.filter fun p => p.halves.any fun h => h / 2 == seq).map (·.part)
      let s := if seq = 8 then s else parts.foldl (fun s p => s.partReset p r.cause (resetDetail 5 r.cause)) s
      let x := s.seqSt seq
      let queue := if seq = 8 then (if (s.seqPhase seq != 0 && x.serving == 0 && x.cmd.any (· != 0)) then [x.cmd] else []) ++ x.queue else []
      let inbox := if seq = 8 then x.inbox else []
      let s := ((s.clearSeqRegs seq).setFlag R.jtgState (16 + seq) false).loadSeq seq
      let s := (s.setSeq seq { s.seqSt seq with queue := queue, inbox := inbox }).switchedSeq seq
      let s := if seq = 8 then { s with jobs := { s.jobs with paused := false } } else s
      let s := { s with flt := { s.flt with seqReset := Map.set s.flt.seqReset seq (s.rnd.round + 1) } }
      (s.setActive (s.boot.active.filter fun x => x != r)).resetDone 5 seq r.cause)

/-! ### Function-level resets (R205, R206, R601, R695, R724, R803) -/

/-- The flush of R601 for a channel: as op 4, with no record posted. Partitions that its jobs hold are reset. -/
def State.silentFlush (s : State) (c cause : Nat) (e : ChanEntry) : State :=
  let l := s.chanJobs c
  let s := l.foldl (fun s q =>
    let s := if s.holderOf q.2.part = some q.1 then
        let hs := match s.partRec q.2.part with | some r => r.halves | none => []
        let s := hs.foldl (fun s h => (s.resumeHalf h).setFlag R.jtgArmed h false) s
        (s.resetHalves hs).resetDone 3 q.2.part cause
      else s
    s.dropJob q.1) s
  let x := s.chan c
  let s := s.setChan c { x with flushItems := 0, flushTorn := 0 }
  let s := (List.range (dist32 x.head x.tail)).foldl (fun s _ => s.flushItem c x.tail e) s
  let y := s.chan c
  let s := s.setChan c { y with st := .disabled, recs := [], irqDue := false, nextSeq := 0, flushOp := 0, flushTail := none, wbHead := y.head }
  (s.hubEvent 0x0908 [(2, c), (2, l.length), (4, y.flushItems), (4, y.flushTorn), (1, 4)]).showFlush

/-- The channels of a function are flushed. -/
def State.flushFunc (s : State) (port func cause : Nat) : State :=
  let cs := Map.keysWhere s.jobs.channels fun _ x => x.st != .disabled && x.st != .badEntry
  cs.foldl (fun s c =>
    match s.useEntry c with
    | (s, some e) => if e.port = port && e.func = func then s.silentFlush c cause e else s
    | (s, none) => s) s

/-- A function-level reset of one function begins (R205, R206). -/
def State.flrBegin (s : State) (cause port func : Nat) : State :=
  let r : ResetReq := { kind := 4, target := func, port := port, cause := cause, done := false }
  let s := s.setActive (s.boot.active.filter (fun x => !(x.kind == 4 && x.target == func && x.port == port)) ++ [r])
  let s := s.flushFunc port func cause
  let s := (List.range 64).foldl (fun s k => if s.streamOwner k = some (port, func) then s.abortStream k 1 else s) s
  let s := if s.ctlPort = port && s.ctlFunc = func then
      (List.range 8).foldl (fun s e => match s.ringDma? e with | some d => s.endRingDma e 3 d | none => s) s.tarnFlr
    else s
  { s with hst := { s.hst with funcs := Map.erase s.hst.funcs (funcKey port func) } }

/-- The functions of an endpoint that exist. -/
def State.funcsOf (s : State) (port ep : Nat) : List Nat :=
  (Map.keysWhere s.hst.funcs fun k _ => k / 64 == port && s.endpointOf port (k % 64) == ep).map (· % 64)

/-- A function-level reset: of a PF, also of every VF of its endpoint (R695). -/
def State.flr (s : State) (cause port func : Nat) : State :=
  if s.isPf port func then
    let vfs := (s.funcsOf port (s.endpointOf port func)).filter (· != func)
    (func :: vfs).foldl (fun s f => s.flrBegin cause port f) s
  else s.flrBegin cause port func

/-- Function-level resets of every function of an endpoint. -/
def State.flrAll (s : State) (cause port ep : Nat) : State :=
  (s.funcsOf port ep).foldl (fun s f => s.flrBegin cause port f) s

/-- RESET_FUNCTION_LEVEL: GLB_RESET with kind 4. -/
def execResetFunctionLevel (key target port : Nat) (s : State) : Host.Outcome State Fault Refusal :=
  .next (s.resetRequest 4 key target 64 fun s => s.flr 2 (port % 2) target)

/-- FLR_CONFIG: Function Level Reset in a function's configuration space. -/
def execFlrConfig (port func : Nat) (s : State) : Host.Outcome State Fault Refusal := .next (s.flr 4 port func)

/-- FLR_COMPLETE: a function-level reset is over; `enabled` and `msix` are what the host then sets up in the function's
configuration space (log entry 62). -/
def execFlrComplete (port func : Nat) (enabled msix : Bool) (s : State) : Host.Outcome State Fault Refusal :=
  .next (match s.boot.active.find? fun r => r.kind == 4 && r.target == func && r.port == port with
    | none => s
    | some r =>
      let s := (s.setActive (s.boot.active.filter fun x => x != r)).resetDone 4 func r.cause
      if enabled then s.setFunc port func { enabled := true, msix := msix, table := [], pend := [] } else s)

/-- An endpoint's link is down: HPT_LINK shows it, and event 0x0D02. -/
def State.linkFalls (s : State) (port ep cause : Nat) : State :=
  if s.linkUp port ep then
    (s.setFld (R.hptLink port) (8 * ep + 7) (8 * ep) 0).hubEvent 0x0D02 [(1, port), (1, ep), (1, evCode 0x0D02 cause)]
  else s

/-- HOST_HOT_RESET: a hot reset, or a link disable, on an endpoint resets its every function (R198, R686). -/
def execHostHotReset (port ep : Nat) (disable : Bool) (s : State) : Host.Outcome State Fault Refusal :=
  .next ((s.flrAll 3 port ep).linkFalls port ep (if disable then 2 else 1))

/-- VF_ENABLE_CLEAR: every VF of an endpoint is reset (R695). -/
def execVfEnableClear (port ep : Nat) (s : State) : Host.Outcome State Fault Refusal :=
  .next (((s.funcsOf port ep).filter fun f => !s.isPf port f).foldl (fun s f => s.flrBegin 4 port f) s)

end Sys2Proof.Machine
end

