-- ==== Sys2Proof/Machine/Image.lean ====
section
/-! DEFINITION. Structure images: layout, the loader's checks, stock images, loads and commits (R219 to R244, R258, R259,
R921). -/

namespace Sys2Proof.Machine

/-! ### Sections (R219 to R221) -/

/-- A directory entry (R220). -/
structure Sect where
  type : Nat
  rest : Nat
  off : Nat
  len : Nat
  count : Nat
  deriving DecidableEq, Repr

/-- The sections that an image's directory names. -/
def imageSects (b : List Nat) : List Sect :=
  (List.range (le b 0x18 2)).map fun i =>
    let o := 0x40 + 16 * i
    { type := le b o 2, rest := le b (o + 2) 2, off := le b (o + 4) 4, len := le b (o + 8) 4, count := le b (o + 12) 4 }

/-- The section of a type. -/
def sectOf (l : List Sect) (t : Nat) : Option Sect := l.find? fun x => x.type == t

/-- Bytes of a record of a section; 0 for the preset profiles. -/
def recordSize (version type : Nat) : Nat :=
  match type with
  | 1 => 32 | 2 => 132 | 3 => 8 | 4 => if version = 1 then 16 else 32 | 5 => 8 | 6 => 8 | 8 => 112 | _ => 0

/-- Records that a section may hold (R221). -/
def recordCount (type n : Nat) : Bool :=
  match type with
  | 1 => 1 ≤ n && n ≤ 16
  | 2 => n == 68
  | 3 => 1 ≤ n && n ≤ 832
  | 4 => n ≤ 256
  | 5 => n == 1 | 6 => n == 1 | 8 => n == 1
  | 7 => 1 ≤ n && n ≤ 15
  | _ => false

/-- Offsets of `n` preset profiles that follow one another from an offset, and their end (R228). -/
def profileAt (b : List Nat) : Nat → Nat → List Nat × Nat
  | 0, o => ([], o)
  | n + 1, o =>
    let r := profileAt b n (o + 8 + 8 * le b (o + 2) 2)
    (o :: r.1, r.2)

/-- A section's length is that of its records. -/
def sectLenOk (b : List Nat) (version : Nat) (x : Sect) : Bool :=
  if x.type = 7 then (profileAt b x.count x.off).2 == x.off + x.len else x.len == x.count * recordSize version x.type

/-- The directory is sound (check 0x04). -/
def directoryOk (b : List Nat) : Bool :=
  let n := le b 0x18 2
  let len := le b 8 4
  let version := le b 4 2
  let l := imageSects b
  let once (t : Nat) (required : Bool) : Bool :=
    let k := (l.filter fun x => x.type == t).length
    k ≤ 1 && (!required || k == 1)
  6 ≤ n && n ≤ 8 && 0x40 + 16 * n ≤ len &&
  l.all (fun x => x.off % 8 == 0 && 0x40 + 16 * n ≤ x.off && x.off + x.len ≤ len && 1 ≤ x.type && x.type ≤ 8 && recordCount x.type x.count) &&
  (l.zipIdx).all (fun p => !((l.take p.2).any fun y => overlaps p.1.off p.1.len y.off y.len)) &&
  [1, 2, 3, 5, 6, 8].all (fun t => once t true) && once 4 false && once 7 false &&
  l.all (sectLenOk b version) && !(version == 1 && l.any fun x => x.type == 7) &&
  (match sectOf l 8 with
   | some x => l.all (fun y => y.type == 8 || y.off < x.off) && x.off + x.len == len
   | none => false)

/-! ### Records -/

/-- Whether some bytes are all zero. -/
def zeros (b : List Nat) (o n : Nat) : Bool := (cut b o n).all (· == 0)

/-- Offsets of a section's records. -/
def recordsOf (b : List Nat) (t : Nat) : List Nat :=
  match sectOf (imageSects b) t with
  | some x => if t = 7 then (profileAt b x.count x.off).1 else (List.range x.count).map fun i => x.off + i * recordSize (le b 4 2) t
  | none => []

/-- A partition record (R222). -/
def PartRec.parse (b : List Nat) (o : Nat) : PartRec :=
  { part := le b o 1, halves := cut b (o + 8) (le b (o + 1) 1), budget := le b (o + 2) 2, digest := le b (o + 4) 4 }

/-- Stream channels of a col (R71). -/
def colChannels (c : Nat) : Nat := if c < 6 then 96 else 32

/-- A region record of either version (R232). -/
def Region.parse (version : Nat) (b : List Nat) (o : Nat) : Region :=
  if version = 1 then { base := le b o 8, size := le b (o + 8) 4 * 0x200000, attr := le b (o + 12) 2, homePart := le b (o + 14) 1 }
  else { base := le b o 8, size := le b (o + 8) 8, attr := le b (o + 16) 2, homePart := le b (o + 18) 1 }

/-- A preset profile (R228). -/
def Profile.parse (b : List Nat) (o : Nat) : Profile :=
  { number := le b o 1, entries := (entriesAt b (o + 8) 8 (le b (o + 2) 2)).map TurnEntry.parse }

/-- An image read from its bytes; `sigOk` says whether its signature verifies. -/
def Image.parse (b : List Nat) (sigOk : Bool) : Image :=
  let first (t : Nat) : Nat := (recordsOf b t).headD 0
  { version := le b 4 2, id := le b 0x10 8, parts := (recordsOf b 1).map (PartRec.parse b),
    streams := (recordsOf b 3).map fun o => { col := le b o 1, channel := le b (o + 1) 1, engine := le b (o + 2) 1, part := le b (o + 3) 1 },
    regions := (recordsOf b 4).map (Region.parse (le b 4 2) b), maxCount := le b (first 5) 1 == 1, ucodeLevel := le b (first 6) 2,
    profiles := (recordsOf b 7).map (Profile.parse b), sigKind := le b (first 8) 1, sigOk := sigOk, turnSet := 15 }

/-- The turn tables of an image's bytes: hop, link, direction and entries. -/
def imageTables (b : List Nat) : List (Nat × Nat × Nat × List Nat) :=
  (recordsOf b 2).map fun o => (le b o 1, le b (o + 1) 1, le b (o + 2) 1, cut b (o + 4) 128)

/-- A turn-table entry is encoded under R136. -/
def entryOk (e : Nat) : Bool := e < 128 && (bits e 6 4 ≤ 4 || bits e 6 4 == 7)

/-! ### Check 0x06, by section -/

/-- Every field of a section's records is in range, every reserved one zero. -/
def sectFieldsOk (b : List Nat) (t : Nat) : Bool :=
  let v := le b 4 2
  let rs := recordsOf b t
  match t with
  | 1 => rs.all fun o =>
      let n := le b (o + 1) 1
      le b o 1 ≤ 15 && 1 ≤ n && n ≤ 16 && 1 ≤ le b (o + 2) 2 && le b (o + 2) 2 ≤ 2800 && (cut b (o + 8) n).all (· < 16) &&
        (cut b (o + 8 + n) (16 - n)).all (· == 0xFF) && zeros b (o + 24) 8
  | 2 =>
    let l := imageTables b
    (rs.all fun o => zeros b (o + 3) 1) && (l.all fun q => q.2.2.2.all entryOk) &&
      hopDirs.all fun d => (l.filter fun q => q.1 == d.1 && q.2.1 == d.2.1 && q.2.2.1 == d.2.2).length == 1
  | 3 => rs.all fun o => le b o 1 ≤ 13 && le b (o + 1) 1 < colChannels (le b o 1) && le b (o + 2) 1 ≤ 5 && zeros b (o + 4) 4
  | 4 => rs.all fun o =>
      let r := Region.parse v b o
      let a := r.attr
      r.base % 0x200000 == 0 && r.size % 0x200000 == 0 && bits a 15 6 == 0 && bits a 3 2 ≤ 1 && bits a 5 4 ≤ 2 &&
        !(bit a 1 && (!bit a 0 || v == 1)) && (bits a 3 2 == 1 || r.homePart == 0) &&
        (if v = 1 then zeros b (o + 15) 1 else zeros b (o + 19) 13)
  | 5 => rs.all fun o => le b o 1 ≤ 1 && zeros b (o + 1) 7
  | 6 => rs.all fun o => zeros b (o + 2) 6
  | 7 => (rs.all fun o =>
      let n := le b (o + 2) 2
      1 ≤ le b o 1 && le b o 1 ≤ 15 && zeros b (o + 1) 1 && 1 ≤ n && n ≤ 256 && zeros b (o + 4) 4 && (entriesAt b (o + 8) 8 n).all turnOk) &&
      (rs.zipIdx).all fun q => !((rs.take q.2).any fun p => le b p 1 == le b q.1 1)
  | 8 => rs.all fun o => zeros b (o + 1) 15 && (le b o 1 != 0 || zeros b (o + 16) 96)
  | _ => true

/-- The section where check 0x06 stops, looked through by ascending type: none, or some type, 0 for header and
directory. -/
def fieldsFault (b : List Nat) : Option Nat :=
  if !zeros b 0x1A 38 || (imageSects b).any (fun x => x.rest != 0) then some 0
  else [1, 2, 3, 4, 5, 6, 7, 8].find? fun t => !sectFieldsOk b t

/-! ### Shapes (R224 to R226) -/

/-- The logical number of a die in a partition; 0xFF outside it. -/
def PartRec.logical (p : PartRec) (die : Nat) : Nat := (p.peaks.findIdx? (· == die)).getD 0xFF

/-- The shape record (R225). -/
def PartRec.shape (p : PartRec) : List Nat :=
  let ends (c : Nat) : List Nat :=
    let a := p.logical (colEnds c).1
    let b := p.logical (colEnds c).2
    [min a b, max a b]
  let cols (base n : Nat) : List Nat := ((List.range n).map (base + ·)).filter p.usesCol
  let bridges := cols 0 6
  let subs := cols 6 4
  let hubs := cols 10 4
  [p.halves.length] ++ p.halves.map (fun h => p.logical (h / 2) * 2 + h % 2) ++
    [bridges.length] ++ bridges.flatMap ends ++ [subs.length] ++ subs.flatMap ends ++
    [hubs.length] ++ hubs.map (fun c => p.logical (colEnds c).1) ++
    p.peaks.map fun k => if hubPeak k = k then 0 else 1

/-- Every route of R148 between two peaks of the partition stays on its peaks (R226). -/
def PartRec.connected (p : PartRec) : Bool :=
  p.peaks.all fun a => p.peaks.all fun b => (peakRoute a b).all fun c =>
    p.peaks.contains (colEnds c).1 && p.peaks.contains (colEnds c).2

/-- Check 0x07. -/
def Image.partsOk (im : Image) : Bool :=
  let nums := im.parts.map (·.part)
  let halves := im.parts.flatMap (·.halves)
  nums.eraseDups.length == nums.length && halves.eraseDups.length == halves.length &&
    im.parts.all fun p => p.connected && p.digest == crc32 p.shape

/-- Check 0x08: no partition needs a peak that is not up with its stack, a failed half (R891), or a col that is down,
degraded or failed (R554). -/
def State.hardwareOk (s : State) (im : Image) : Bool :=
  im.parts.all fun p =>
    p.halves.all (fun h => s.peakSt (h / 2) == 4 && !s.flag R.fltFailed h && !bit s.flt.stacksFailed (h / 2)) &&
      (List.range 14).all fun c => !p.usesCol c || (s.col c).st == 2 || (s.col c).st == 3

/-- A number names a partition of the image. -/
def Image.has (im : Image) (p : Nat) : Bool := im.parts.any fun r => r.part == p

/-- Check 0x0A. -/
def Image.streamsOk (im : Image) : Bool :=
  let keys := im.streams.map fun x => x.col * 256 + x.channel
  im.streams.all (fun x => x.part == 0xFF || im.has x.part) && keys.eraseDups.length == keys.length &&
    im.parts.all fun p => (List.range 14).all fun c =>
      !p.usesCol c || [0, 5].all fun e => im.streams.any fun x => x.col == c && x.engine == e && (x.part == 0xFF || x.part == p.part)

/-- Check 0x0B. -/
def Image.regionsOk (im : Image) : Bool :=
  im.regions.all (fun r => 0x200000 ≤ r.size && (spanOf r.base).isSome && spanOf r.base == spanOf (r.base + r.size - 1) &&
    (bits r.attr 3 2 == 0 || im.has r.homePart)) &&
  (im.regions.zipIdx).all fun q => !((im.regions.take q.2).any fun p => overlaps q.1.base q.1.size p.base p.size)

/-! ### Signatures (R236) -/

/-- The signature of kind 1 in an image's bytes verifies against the image key. -/
def State.imageSigned (s : State) (b : List Nat) : Bool :=
  match sectOf (imageSects b) 8 with
  | some x => s.boot.imageKey != [] && ecdsaVerify s.boot.imageKey (cut b (x.off + 16) 96) (b.take 0x0C ++ [0, 0, 0, 0] ++ cut b 0x10 (x.off - 0x10))
  | none => false

/-- Usdun's signatures verify: the image key is Usdun's (R924). -/
def State.usdunSigned (s : State) : Bool := s.boot.imageKey != [] && sha384 s.boot.imageKey == Config.usdunDigest

/-- Check 0x05. -/
def State.signOk (s : State) (im : Image) : Bool :=
  if im.sigKind = 0 then s.flag R.imgPolicy 0 else im.sigKind == 1 && im.sigOk

/-! ### Stock images (R258, R921) -/

/-- The engine of a channel in the stock images. -/
def stockEngine (col ch : Nat) : Nat :=
  let l := if col < 6 then [32, 48, 64, 80, 88] else [12, 16, 22, 26, 28]
  (l.filter fun x => x ≤ ch).length

/-- A turn entry of a stock profile. -/
def te (hop cls turns link : Nat) : TurnEntry := { hop := hop, cls := cls, turns := turns, link := link }

/-- Partition n of a stock image, with its digest. -/
def stockPart (n : Nat) (halves : List Nat) (budget : Nat) : PartRec :=
  let p : PartRec := { part := n, halves := halves, budget := budget, digest := 0 }
  { p with digest := crc32 p.shape }

/-- Partitions of a stock image. -/
def stockParts (i : Nat) : List PartRec :=
  match i with
  | 0 => (List.range 12).map (fun n => stockPart n [n] 100) ++ [stockPart 12 [12, 13] 400, stockPart 13 [14, 15] 400]
  | 1 => [stockPart 0 (List.range 16) 2000]
  | 2 => (List.range 8).map fun n => stockPart n [2 * n, 2 * n + 1] 250
  | _ => (List.range 16).map fun n => stockPart n [n] 125

/-- Profiles of a stock image. A partition that takes the farm profile has one logical peak. -/
def stockProfiles (i : Nat) : List Profile :=
  match i with
  | 0 =>
    [{ number := 1, entries := [te 0 1 12 0, te 0 2 6 0, te 4 2 24 0, te 4 1 12 0] },
     { number := 2, entries := [te 0 1 24 0, te 0 2 12 0, te 4 2 48 0, te 4 1 24 0, te 4 4 12 0] }]
  | 1 =>
    [{ number := 1, entries := ((List.range 8).flatMap fun k => [te 0 1 24 k, te 0 4 24 k, te 4 2 48 k, te 4 4 12 k]) ++
        (List.range 6).flatMap fun j => [te 1 4 24 j, te 1 3 12 j] },
     { number := 2, entries := ((List.range 8).map fun k => te 4 2 48 k) ++ [te 5 2 48 0, te 5 2 48 1] }]
  | _ => [{ number := 1, entries := [te 0 1 2 0, te 0 2 2 0, te 4 2 2 0, te 4 1 2 0] }]

/-- A stock image. -/
def stockImage (i : Nat) (signed : Bool) : Image :=
  { version := 2, id := 0x53544B000000 + i, parts := stockParts i,
    streams := (List.range 14).flatMap fun c => (List.range (colChannels c)).map fun ch =>
      { col := c, channel := ch, engine := stockEngine c ch, part := 0xFF },
    regions := if i = 1 then (List.range 8).map fun n =>
      { base := n * 0x900000000 + 0x400000000, size := 0x400000000, attr := 3, homePart := 0 } else [],
    maxCount := false, ucodeLevel := 0, profiles := stockProfiles i, sigKind := 1, sigOk := signed, turnSet := min i 2 }

/-! ### Loads (R237 to R240) -/

/-- What a loader finds: a stock image, or the bytes of another, or nothing it can read. -/
inductive Source
  | stock (i : Nat)
  | bytes (b : List Nat)
  | none
  deriving DecidableEq, Repr

/-- Length of an image in range (R219). -/
def lengthOk (n : Nat) : Bool := n % 8 == 0 && 256 ≤ n && n ≤ 0x80000

/-- The source of a load, as far as check 0x01 goes. -/
def State.loadSource (s : State) (r : LoadReq) : State × Source :=
  if r.fromStore then
    if r.index < 4 then (s, .stock r.index)
    else
      match Map.get? s.store.images r.index with
      | some b => (s, if lengthOk (le b 8 4) && le b 8 4 ≤ b.length then .bytes (b.take (le b 8 4)) else .none)
      | none => (s, .none)
  else
    match s.hubRead r.addr 64 with
    | (s, none) => (s, .none)
    | (s, some h) =>
      if !lengthOk (le h 8 4) then (s, .none)
      else
        match s.hubRead r.addr (le h 8 4) with
        | (s, some b) => (s, .bytes b)
        | (s, none) => (s, .none)

/-- The checks 0x02 to 0x07, 0x09 to 0x0B of an image's bytes: the first that fails, and its section. With `hw`, 0x05,
0x08 and 0x0C are made as at a load. -/
def State.bytesFault (s : State) (b : List Nat) (hw : Bool) : Nat × Nat :=
  let im := Image.parse b (le b ((recordsOf b 8).headD 0) 1 == 1 && s.imageSigned b)
  if !(le b 0 4 == 0x44574C46 && (le b 4 2 == 1 || le b 4 2 == 2) && le b 6 2 == 64) then (0x02, 0)
  else if le b 0x0C 4 != crc32 (b.take 0x0C ++ [0, 0, 0, 0] ++ b.drop 0x10) then (0x03, 0)
  else if !directoryOk b then (0x04, 0)
  else if !s.signOk im then (0x05, 8)
  else
    match fieldsFault b with
    | some t => (0x06, t)
    | none =>
      if !im.partsOk then (0x07, 1)
      else if hw && !s.hardwareOk im then (0x08, 1)
      else if (imageTables b).any fun q => q.2.2.2.any (fun e => match ttOwner e with | some (p, _) => !im.has p | none => false) then (0x09, 2)
      else if !im.streamsOk then (0x0A, 3)
      else if !im.regionsOk then (0x0B, 4)
      else if hw && s.patchLevel < im.ucodeLevel then (0x0C, 6)
      else (0, 0)

/-- The checks of a stock image that can fail. -/
def State.stockFault (s : State) (im : Image) : Nat × Nat :=
  if !s.signOk im then (0x05, 8) else if !s.hardwareOk im then (0x08, 1) else if s.patchLevel < im.ucodeLevel then (0x0C, 6) else (0, 0)

/-- A swap is scheduled or in progress. -/
def State.swapStands (s : State) : Bool := s.img.swap.isSome

/-- The tables of an image written into the bank that does not govern; records that name no link direction go nowhere. -/
def State.writeTables (s : State) (b : List Nat) : State :=
  ((imageTables b).filter fun q => hopDirs.contains (q.1, q.2.1, q.2.2.1)).foldl (fun s q =>
    s.setTable (1 - s.bank) q.1 q.2.1 q.2.2.1 q.2.2.2) s

/-- A load asked for: it replaces the pending image. -/
def State.startLoad (s : State) (r : LoadReq) : State :=
  if s.flag R.imgStatus 0 || s.swapStands then s.drawn.hubEvent 0x0203 [(1, 0x10), (1, 0), (4, Config.freeValue s.free)]
  else
    let s := { s with img := { s.img with load := some r, pending := none, firstCommit := false } }
    ((s.setFlag R.imgStatus 0 true).setFlag R.imgStatus 1 false).setFlag R.imgStatus 3 false

/-- IMAGE_LOAD: a write of IMG_LOAD with go set. -/
def execImageLoad (src index : Nat) (s : State) : Host.Outcome State Fault Refusal :=
  .next (s.startLoad { fromStore := src % 2 == 1, index := index % 16, addr := s.pair R.imgSrcLo R.imgSrcHi / 64 * 64 })

/-- The result of a load or of a commit's checks. -/
def State.imageResult (s : State) (r : Nat × Nat) : State :=
  ((s.setFlag R.imgStatus 0 false).setFld R.imgStatus 15 8 r.1).setFld R.imgStatus 23 16 r.2

/-- A load ends: the tables are written, and the image is pending when no check fails. The byte offset that event 0x0203
gives is not stated (log entry 65). -/
def State.finishLoad (s : State) (r : LoadReq) : State × (Nat × Nat) :=
  let s := { s with img := { s.img with load := none } }
  let done (s : State) (im : Image) (f : Nat × Nat) : State × (Nat × Nat) :=
    if f.1 = 0 then
      let s := ({ s with img := { s.img with pending := some im } }.imageResult f).setFlag R.imgStatus 1 true
      (s.hubEvent 0x0202 [(1, r.fromStore.toNat), (8, im.id)], f)
    else ((s.imageResult f).drawn.hubEvent 0x0203 [(1, f.1), (1, f.2), (4, Config.freeValue s.free)], f)
  match s.loadSource r with
  | (s, .none) => done s (stockImage 0 false) (0x01, 0)
  | (s, .stock i) =>
    let im := stockImage i s.usdunSigned
    done (s.writeStockSet (1 - s.bank) im.turnSet im.partNumbers) im (s.stockFault im)
  | (s, .bytes b) =>
    let f := s.bytesFault b true
    let im := Image.parse b (le b ((recordsOf b 8).headD 0) 1 == 1 && s.imageSigned b)
    done (if 1 ≤ f.1 && f.1 ≤ 4 then s else s.writeTables b) im f

/-- IMAGE_LOAD_DONE: the loader has read the image and made its checks. -/
def execImageLoadDone (s : State) : Host.Outcome State Fault Refusal :=
  .next (s.whenRun fun s =>
    match s.img.load with
    | some r => (s.finishLoad r).1
    | none => s)

/-! ### Commits (R242 to R244) -/

/-- Each partition's share on each hop, class, link and direction in a bank. -/
def State.sharesOf (s : State) (bank p : Nat) : List Nat :=
  hopDirs.flatMap fun d => (List.range 5).map fun c =>
    ((List.range 128).filter fun t => ttOwner (s.ttEntry bank d.1 d.2.1 d.2.2 t) == some (p, c)).length

/-- A partition of the committed image is unchanged by the pending one (R33). -/
def State.unchanged (s : State) (old new : Image) (p : PartRec) : Bool :=
  (old.parts.any fun q => q.part == p.part) &&
    (new.parts.any fun q => q.part == p.part && q.halves == p.halves && q.budget == p.budget) &&
    s.sharesOf s.bank p.part == s.sharesOf (1 - s.bank) p.part

/-- Halves of a partition of an image. -/
def Image.halvesOf (im : Image) (p : Nat) : List Nat := match im.parts.find? fun r => r.part == p with | some r => r.halves | none => []

/-- The region section stands: identical records, every partition that homes one with the same halves (check 0x12). -/
def regionsStand (old new : Image) : Bool :=
  old.regions == new.regions && old.regions.all fun r => bits r.attr 3 2 == 0 || old.halvesOf r.homePart == new.halvesOf r.homePart

/-- The stream records of a partition. -/
def Image.streamsOf (im : Image) (p : Nat) : List ColStream := im.streams.filter fun x => x.part == p

/-- The first commit check that fails, and its section. -/
def State.commitFault (s : State) (im : Image) : Nat × Nat :=
  if !s.signOk im then (0x05, 8)
  else if !s.hardwareOk im then (0x08, 1)
  else if s.patchLevel < im.ucodeLevel then (0x0C, 6)
  else if s.limit < im.budgets then (0x0D, 1)
  else if s.swapStands then (0x10, 0)
  else
    match s.img.committed with
    | none => (0, 0)
    | some old =>
      let kept := old.parts.filter (s.unchanged old im)
      if old.maxCount != im.maxCount then (0x11, 5)
      else if !regionsStand old im && !kept.isEmpty then (0x12, 4)
      else if kept.any fun p => old.streamsOf p.part != im.streamsOf p.part then (0x13, 3)
      else (0, 0)

/-- Lines of some regions. -/
def inRegions (l : List Region) (line : Nat) : Bool := l.any fun r => r.base ≤ line * 128 && line * 128 < r.base + r.size

/-- Every line that meets `f` written back and invalidated in every slice and L1, and its copies discarded (R251). -/
def State.cleanse (s : State) (f : Nat → Bool) : State :=
  let s := State.settle 64 s
  let s := s.mem.l1.foldl (fun s q =>
    let s := (q.2.lines.filter fun x => f x.line).foldl (fun s x => (s.writeHome x.line x.dirty x.data).forget q.1 x.line) s
    let c := s.l1 q.1
    s.setL1 q.1 { c with lines := c.lines.filter fun x => !f x.line, wake := c.wake.filter fun w => !f w.line }) s
  let s := s.mem.sets.foldl (fun s q => (q.2.filter fun w => !w.guest && f w.line).foldl (fun s w => s.writeStack w.line w.dirty w.data) s) s
  let t := s.mem.sets.filterMap fun q =>
    let l := q.2.filter fun w => !f w.line
    if l.isEmpty then none else some (q.1, l)
  let s := { s with mem := { s.mem with sets := t } }
  (List.range 16).foldl (fun s h => s.setFld (R.ucGuest h) 17 0 (s.guestCount h)) s

/-- Budgets, core maps and RWL fields follow a committed image; RND_TT_SEL reads its turn set (R243, R252, R265). -/
def State.takeImage (s : State) (edited : Bool) : State :=
  let set := match s.img.committed with | some im => im.turnSet | none => 0
  let s := if edited then s else s.setFld R.rndTtSel 3 0 set
  let s := s.applyLimit.recompute
  let st := ((s.setFlag R.imgStatus 1 s.img.pending.isSome).setFlag R.imgStatus 2 true).setFlag R.imgStatus 3 false
  ((List.range 16).filter fun h => st.dieOn (h / 2) && ((st.partOfHalf h).bind st.holderOf).isNone).foldl (fun s h => s.applyMap h 1) st

/-- The first commit takes effect (R243): epoch 1, the bank of the pending tables, event 0x0204. Lines of the image's
regions leave the caches first, since their homes and kinds change (log entry 66). -/
def State.commitFirst (s : State) : State :=
  match s.img.pending with
  | none => { s with img := { s.img with firstCommit := false } }
  | some im =>
    let s := s.cleanse (inRegions im.regions)
    let edited := s.flag R.imgStatus 3
    let s := { s with img := { s.img with committed := some im, pending := none, firstCommit := false, absent := 0 } }
    let s := ((s.setFlag R.rndEpoch 17 (s.bank == 0)).setFld R.rndEpoch 7 0 1).setFld R.rndEpoch 15 8 1
    (s.takeImage edited).hubEvent 0x0204 [(8, im.id), (1, 1)]

/-- A commit: its checks, then the first commit, at the next round boundary, or a shift change, which SHIFT_SCHEDULE
schedules. -/
def State.commit (s : State) : State :=
  match s.img.pending with
  | none =>
    let code := s.fld R.imgStatus 15 8
    if code = 0 then s.drawn.hubEvent 0x0205 [(1, Config.freeValue s.free)] else s.hubEvent 0x0205 [(1, code)]
  | some im =>
    let f := s.commitFault im
    let s := s.imageResult f
    if f.1 != 0 then s.hubEvent 0x0205 [(1, f.1)]
    else if s.img.committed.isNone then
      let s := { s with img := { s.img with firstCommit := true } }
      if s.rnd.running then s else s.commitFirst
    else
      { s with img := { s.img with swap := some { start := 0, changed := 0, acked := 0, mustAck := 0, live := false, opened := 0, cleansed := false, cleansedPeaks := 0, cleanseAt := 0, cut := false } } }

/-- IMAGE_COMMIT: a write of IMG_COMMIT; any other key is ignored. -/
def execImageCommit (key : Nat) (s : State) : Host.Outcome State Fault Refusal :=
  .next (if key % 65536 = 0xC0A7 then s.whenRun State.commit else s)

/-- A write of IMG_SEL: 0 to 3 load the stock image named; the others are ignored (R40, R42, R258). -/
def State.selectImage (s : State) (v : Nat) : State :=
  if 4 ≤ v % 16 then s
  else if s.locked then s.rwlIgnored R.imgSel
  else
    let t := s.startLoad { fromStore := true, index := v % 16, addr := 0 }
    if s.flag R.imgStatus 0 || s.swapStands then t else t.setFld R.imgSel 3 0 (v % 16)

/-- IMAGE_SEL_WRITE: a write of IMG_SEL. -/
def execImageSelWrite (v : Word) (s : State) : Host.Outcome State Fault Refusal := .next (s.selectImage v.toNat)

/-- A write of IMG_DEFAULT: recorded in the store's directory, unless it names an empty slot (R259). -/
def State.writeDefault (s : State) (v : Nat) : State :=
  let i := v % 16
  if i < 4 || (Map.get? s.store.images i).isSome then
    { s with store := { s.store with defaultImage := i } }.setReg R.imgDefault i
  else s

/-- IMAGE_DEFAULT_WRITE: a write of IMG_DEFAULT. -/
def execImageDefaultWrite (v : Word) (s : State) : Host.Outcome State Fault Refusal := .next (s.writeDefault v.toNat)

end Sys2Proof.Machine
end

