-- ==== Sys2Proof/Machine/Shift.lean ====
section
/-! DEFINITION. Shift changes: the schedule, the epoch mark, the swap, openings, the cleanse and the end (R33 to R36, R245
to R256, R890). -/

namespace Sys2Proof.Machine

/-- The swap that stands, changed. -/
def State.setSwap (s : State) (w : Swap) : State := { s with img := { s.img with swap := some w } }

/-- A swap that stands with the two images it concerns. -/
def State.shift (s : State) : Option (Swap × Image × Image) :=
  match s.img.swap, s.img.committed, s.img.pending with
  | some w, some old, some new => some (w, old, new)
  | _, _, _ => none

/-- SHIFT_SCHEDULE: the hub command of a shift commit: the next epoch, round S, the changed partitions (R245); the epoch
mark goes to every peak sequencer that is up (R246). -/
def execShiftSchedule (s : State) : Host.Outcome State Fault Refusal :=
  .next (s.whenSeq 8 fun s =>
    match s.shift with
    | none => s
    | some (w, old, new) =>
      if w.start != 0 then s
      else
        let next := (s.fld R.rndEpoch 7 0 + 1) % 256
        let start := s.rnd.round + s.fld R.imgShiftCfg 9 0
        let changed := maskOf ((old.parts.filter fun p => !s.unchanged old new p).map (·.part))
        let up := maskOf ((List.range 8).filter s.dieOn)
        let s := s.setSwap { w with start := start, changed := changed, mustAck := up }
        let s := (s.setFld R.rndEpoch 15 8 next).setPair R.rndSwapRoundLo R.rndSwapRoundHi start
        (s.setReg R.imgChanged changed).hubEvent 0x0206 [(8, start), (1, next), (2, changed)])

/-- EPOCH_MARK_ACK: a peak sequencer serves the epoch mark, and acknowledges it in time (R246, R664). -/
def execEpochMarkAck (seq : Nat) (s : State) : Host.Outcome State Fault Refusal :=
  .next (s.serve seq 2 fun s =>
    match s.img.swap with
    | some w => if s.rnd.round + 4 ≤ w.start && !w.live then s.setSwap { w with acked := putBit w.acked seq true } else s
    | none => s)

/-- The sequencers whose acknowledgement is missing. -/
def Swap.missing (w : Swap) : List Nat := (List.range 8).filter fun d => bit w.mustAck d && !bit w.acked d

/-- SHIFT_ABANDON: at S - 4 an acknowledgement is missing: the shift change is abandoned (R246). Event 0x020A names the
first sequencer missing. -/
def execShiftAbandon (s : State) : Host.Outcome State Fault Refusal :=
  .next (s.whenRun fun s =>
    match s.img.swap with
    | none => s
    | some w =>
      match w.missing with
      | [] => s
      | d :: _ =>
        if w.live || w.start = 0 || s.rnd.round + 4 < w.start then s
        else
          let s := { s with img := { s.img with swap := none } }
          let s := (s.setFld R.rndEpoch 15 8 (s.fld R.rndEpoch 7 0)).setPair R.rndSwapRoundLo R.rndSwapRoundHi 0
          (s.setFld R.imgStatus 15 8 0x14).hubEvent 0x020A [(1, d)])

/-- Live partitions' budgets and holds follow (R610, R611). -/
def State.reshare (s : State) : State := s.recompute.leaveHolds

/-- SWAP_START: at the boundary of round S both banks are live (R247). -/
def execSwapStart (s : State) : Host.Outcome State Fault Refusal :=
  .next (s.whenRun fun s =>
    match s.img.swap with
    | none => s
    | some w =>
      if w.live || w.start = 0 || s.rnd.round < w.start || !s.atBoundary || !w.missing.isEmpty then s
      else ((s.setSwap { w with live := true }).setFlag R.rndEpoch 16 true).reshare)

/-! ### Openings (R249, R250) -/

/-- A partition of the old image is held or idle (R247). -/
def State.oldRests (s : State) (w : Swap) (p : Nat) : Bool := bit w.changed p && (bit w.opened p || s.heldOrIdle p)

/-- The regions that a cleanse concerns: those whose records differ, and those that a partition homes whose halves differ
(R251). -/
def changedRegions (old new : Image) : List Region :=
  let moved (r : Region) : Bool := bits r.attr 3 2 != 0 && old.halvesOf r.homePart != new.halvesOf r.homePart
  (old.regions.filter fun r => !new.regions.contains r || moved r) ++ new.regions.filter fun r => !old.regions.contains r

/-- The conditions of R249 on a partition of the new image. -/
def State.mayOpen (s : State) (w : Swap) (old new : Image) (p : PartRec) : Bool :=
  let clear (q : Nat) : Bool := !(old.has q) || s.oldRests w q
  p.halves.all (fun h => old.parts.all fun q => !q.halves.contains h || s.oldRests w q.part) &&
  hopDirs.all (fun d => (List.range 128).all fun t =>
    match ttOwner (s.ttEntry (1 - s.bank) d.1 d.2.1 d.2.2 t), ttOwner (s.ttEntry s.bank d.1 d.2.1 d.2.2 t) with
    | some (q, _), some (o, _) => q != p.part || clear o
    | _, _ => true) &&
  (new.streamsOf p.part).all (fun x => old.streams.all fun y => !(y.col == x.col && y.channel == x.channel) || clear y.part) &&
  regionsStand old new &&
  decide (p.budget + ((new.parts.filter fun q => bit w.opened q.part).map (·.budget)).sum +
    ((old.parts.filter fun q => !s.oldRests w q.part).map (·.budget)).sum ≤ s.limit)

/-- The jobs that meet `f`, none of them running or ended, are read again: admission judges them against the new image,
with their age and priority (R35). -/
def State.readmit (s : State) (f : Job → Bool) : State :=
  let again (x : Job) : Job :=
    if x.st != .running && x.st != .ended && f x then { x with st := .read } else x
  { s with jobs := { s.jobs with jobs := Map.mapVals s.jobs.jobs fun _ x => again x } }

/-- A partition opens (R250). -/
def State.openPart (s : State) (w : Swap) (p : Nat) : State :=
  let s := s.setSwap { w with opened := putBit w.opened p true }
  let s := (s.setFlag R.imgChanged (16 + p) true).readmit fun x => x.part == p
  s.hubEvent 0x0208 [(1, p), (8, s.rnd.round), (1, 0)]

/-- PARTITION_OPEN: at a round boundary of the swap a partition of the new image opens, if R249 lets it. -/
def execPartitionOpen (part : Nat) (s : State) : Host.Outcome State Fault Refusal :=
  .next (s.whenSeq 8 fun s =>
    match s.shift with
    | none => s
    | some (w, old, new) =>
      match new.parts.find? fun p => p.part == part with
      | none => s
      | some p =>
        if w.live && s.atBoundary && !bit w.opened part && s.mayOpen w old new p then (s.openPart w part).reshare else s)

/-! ### The cleanse and the end (R251, R252, R255, R256) -/

/-- A message of a changed partition's old epoch waits at a hop. -/
def State.oldMessages (s : State) (w : Swap) : Bool :=
  s.rnd.waiting.any fun q => q.2.any fun m => bit w.changed m.2.part && m.2.epoch % 2 == s.fld R.rndEpoch 7 0 % 2

/-- The condition of R251. -/
def State.mayCleanse (s : State) (w : Swap) (old : Image) : Bool :=
  w.live && old.parts.all (fun p => !bit w.changed p.part || s.oldRests w p.part) && !s.oldMessages w

/-- CLEANSE: a peak's command: the lines of changed regions are written back and invalidated; with the last peak that is
up the cleanse is complete. -/
def execCleanse (peak : Nat) (s : State) : Host.Outcome State Fault Refusal :=
  .next (s.whenSeq peak fun s =>
    match s.shift with
    | none => s
    | some (w, old, new) =>
      let l := changedRegions old new
      if !s.mayCleanse w old || w.cleansed || l.isEmpty || !s.dieOn peak then s
      else
        let first := if w.cleansedPeaks = 0 then s.rnd.round else w.cleanseAt
        let w := { w with cleansedPeaks := putBit w.cleansedPeaks peak true, cleanseAt := first }
        let s := s.cleanse (inRegions l)
        if (List.range 8).all fun d => !s.dieOn d || bit w.cleansedPeaks d then
          (s.setSwap { w with cleansed := true }).hubEvent 0x020C [(2, l.length), (4, s.rnd.round - first)]
        else s.setSwap w)

/-- A partition uses a half or stack reported failed, or a col that is degraded or failed (R256, R554). -/
def State.partBroken (s : State) (p : PartRec) : Bool :=
  p.halves.any (fun h => s.flag R.fltFailed h || bit s.flt.stacksFailed (h / 2)) ||
    (List.range 14).any fun c => p.usesCol c && ((s.col c).st == 4 || (s.col c).st == 5)

/-- Every fence is lifted (R890). -/
def State.liftFences (s : State) (epoch : Nat) : State :=
  let s := (List.range 16).foldl (fun s p => if s.flag R.fltFenced p then s.hubEvent 0x1204 [(1, p), (1, epoch)] else s) s
  s.setReg R.fltFenced 0

/-- SWAP_END: at the first boundary after the cleanse the new image governs all; jobs that hold no partition are readmitted
(R35), and the deferred resets begin (R207). -/
def execSwapEnd (s : State) : Host.Outcome State Fault Refusal :=
  .next (s.whenRun fun s =>
    match s.shift with
    | none => s
    | some (w, old, new) =>
      if !s.atBoundary || !s.mayCleanse w old || !(w.cleansed || (changedRegions old new).isEmpty) then s
      else
        let epoch := s.fld R.rndEpoch 15 8
        let broken := (new.parts.filter fun p => !bit w.opened p.part && s.partBroken p).map (·.part)
        let edited := s.flag R.imgStatus 3
        let img := { s.img with committed := some new, pending := none, swap := none, absent := maskOf broken }
        let flt := { s.flt with fenceAtEnd := s.flt.fenceAtEnd.filter fun q => !bit w.changed q.1 }
        let s := { s with img := img, flt := flt }
        let s := ((s.setFld R.rndEpoch 7 0 epoch).setFlag R.rndEpoch 17 (s.bank == 0)).setFlag R.rndEpoch 16 false
        let s := (new.parts.filter fun p => !bit w.opened p.part).foldl (fun s p =>
          let failed := broken.contains p.part
          (if failed then s else s.setFlag R.imgChanged (16 + p.part) true).hubEvent 0x0208
            [(1, p.part), (8, s.rnd.round), (1, failed.toNat)]) s
        let s := ((s.takeImage edited).leaveHolds.readmit fun _ => true).liftFences epoch
        (s.hubEvent 0x0209 [(8, s.rnd.round), (1, epoch)]).startDeferred)

/-- SWAP_MAX_ROUNDS: the swap has lasted max_rounds: changed partitions that still run are reset (R255). The cause that
such a reset carries is not stated (log entry 49). -/
def execSwapMaxRounds (s : State) : Host.Outcome State Fault Refusal :=
  .next (s.whenRun fun s =>
    match s.img.swap with
    | none => s
    | some w =>
      let lim := s.fld R.imgShiftCfg 31 10
      if lim = 0 || !w.live || w.cut || s.rnd.round < w.start + lim then s
      else
        let s := s.setSwap { w with cut := true }
        let cause := Config.freeValue s.free % 16
        ((List.range 16).filter fun p => bit w.changed p && !s.oldRests w p).foldl (fun s p =>
          (s.hubEvent 0x020B [(1, p)]).partReset p cause (resetDetail 3 cause)) s.drawn)

end Sys2Proof.Machine
end

