-- ==== Sys2Proof/Machine/Boot.lean ====
section
/-! DEFINITION. The boot steps, bringing up peaks, and promotions into store slots (R177 to R193, R210 to R215, R239, R553,
R634, R671, R728, R741). -/

namespace Sys2Proof.Machine

/-! ### The boot's own state -/

/-- GLB_BOOT_STATUS.step. -/
def State.bootStep (s : State) : Nat := s.fld R.glbBootStatus 3 0
def State.toStep (s : State) (n : Nat) : State := s.setFld R.glbBootStatus 3 0 n

/-- A boot step is made while its number stands in GLB_BOOT_STATUS. -/
def State.atStep (s : State) (n : Nat) (f : State → State) : State := if s.boot.running && s.bootStep = n then f s else s

/-- BOOT_START: the conditions of R177 hold: event 0x0102, GLB_BOOT_CTL is read (R216), and the incarnation moves on (R741). -/
def execBootStart (s : State) : Host.Outcome State Fault Refusal :=
  .next (if !s.mayBoot then s
    else
      let s := s.hubEvent 0x0102 [(1, s.mod.slotId), (1, s.fld R.glbResetStatus 14 11)]
      let inc := if (s.store.incarnation + 1) % 65536 = 0 then 1 else (s.store.incarnation + 1) % 65536
      let boot : BootState := { BootState.reset with running := true, startUs := s.mod.islandUs, ctl := s.reg R.glbBootCtl }
      ({ s with boot := boot, store := { s.store with incarnation := inc } }.setFld R.glbBootStatus 10 4 0).toStep 1)

/-! ### Step 1: firmware (R182 to R186, R213) -/

/-- Slots torn in a promotion lose their magic, and their marks are cleared (R213). -/
def State.healSlots (s : State) : State :=
  { s with store := { s.store with mem := s.store.pendingMark.foldl (fun m a => Mem.writeLE m a 4 0) s.store.mem, pendingMark := [] } }

/-- The better of the slots of a kind that are usable, 0 for none: the higher version, A of equals. -/
def State.bestSlot (s : State) (kind : Nat) (ok : Nat → Bool) : Nat :=
  if ok 1 && ok 2 then (if s.slotVersion kind 1 < s.slotVersion kind 2 then 2 else 1)
  else if ok 1 then 1 else if ok 2 then 2 else 0

/-- The key that a slot's header carries. -/
def State.slotKey (s : State) (kind slot : Nat) : List Nat := Mem.readBytes s.store.mem (slotBase kind slot + 0xA0) 96

/-- The image key after a recovery boot: that of the lowest-addressed slot whose key has the fused digest (R236). -/
def State.recoveryKey (s : State) : List Nat :=
  match [(1, 1), (1, 2), (2, 1), (2, 2)].find? fun q => sha384 (s.slotKey q.1 q.2) == s.fuse.keyDigest with
  | some q => s.slotKey q.1 q.2
  | none => []

/-- A recovery boot (R186); reasons 1 no valid slot, 2 the named slot is not valid, 3 fw_slot names the ROM (log entry 67). -/
def State.recovery (s : State) (reason : Nat) : State :=
  let s := { s with boot := { s.boot with recoveryReason := reason, imageKey := s.recoveryKey } }
  ((s.setFlag R.glbBootStatus 5 true).setReg R.glbFwVer 0).hubEvent 0x010F [(1, evCode 0x010F reason)]

/-- BOOT_STEP_FIRMWARE: the ROM verifies the firmware slots and selects one, or makes a recovery boot. -/
def execBootStepFirmware (s : State) : Host.Outcome State Fault Refusal :=
  .next (s.atStep 1 fun s =>
    let s := s.healSlots
    let sel := bits s.boot.ctl 1 0
    let tried : List Nat := if sel = 0 then [1, 2] else if sel = 3 then [] else [sel]
    let bad := (tried.map fun k => (k, s.slotBad 1 k)).filter fun q => q.2 != 0
    let s := bad.foldl (fun s q => s.hubEvent 0x0103 [(1, q.1), (1, q.2)]) s
    let k := s.bestSlot 1 fun k => tried.contains k && !(bad.any fun q => q.1 == k)
    let s :=
      if k = 0 then s.recovery (if sel = 3 then 3 else if sel = 0 then 1 else 2)
      else
        let s := { s with boot := { s.boot with imageKey := s.slotKey 1 k } }
        ((s.setFld R.glbBootStatus 8 7 k).setReg R.glbFwVer (s.slotVersion 1 k)).hubEvent 0x0104 [(1, k), (4, s.slotVersion 1 k)]
    s.toStep 2)

/-! ### Step 2: the hub (R180, R187, R671, R728) -/

/-- What is wrong with a microcode slot: its header and body under R182, then the checks of R671. -/
def State.patchBad (s : State) (k : Nat) : Nat := if s.slotBad 2 k != 0 then s.slotBad 2 k else (s.slotPatch k).2

/-- The microcode slot is selected; ROM microcode where none is usable, or in a recovery boot (R186, R187). -/
def State.selectPatch (s : State) : State :=
  let sel := bits s.boot.ctl 3 2
  let tried : List Nat := if s.boot.recoveryReason != 0 || sel = 3 then [] else if sel = 0 then [1, 2] else [sel]
  let bad := (tried.map fun k => (k, s.patchBad k)).filter fun q => q.2 != 0
  let s := bad.foldl (fun s q => s.hubEvent 0x010B [(1, q.1), (1, q.2)]) s
  let k := s.bestSlot 2 fun k => tried.contains k && !(bad.any fun q => q.1 == k)
  let p := if k = 0 then none else some (s.slotPatch k).1
  let level := match p with | some p => p.level | none => 0
  ({ s with seq := { s.seq with inForce := p } }.setFld R.glbBootStatus 10 9 k).setReg R.seqLevel level

/-- The settings of the host ports in force from this boot (R728). -/
def State.latchPorts (s : State) : State :=
  let f (i : Nat) : Nat := s.reg (R.hptPortCfg i)
  { s with hst := { s.hst with split := [(0, bit (f 0) 0), (1, bit (f 1) 0)], vfbar := [(0, bits (f 0) 6 4), (1, bits (f 1) 6 4)] } }

/-- BOOT_STEP_HUB: the hub die is powered, its sequencer loads its microcode, and the beacon starts in round 0; it needs
the reference oscillator (R118, R119). -/
def execBootStepHub (s : State) : Host.Outcome State Fault Refusal :=
  .next (s.atStep 2 fun s =>
    if s.flag R.glbOsc 1 then s
    else
      let s := s.selectPatch.latchPorts.applyLimit.recompute.loadSeq 8
      { s with rnd := { s.rnd with round := 0, turn := 0, running := true } }.toStep 3)

/-! ### Steps 3 to 5: cols and peaks (R188 to R191, R553) -/

/-- The cols and peaks of the waves, and the cols of step 5. -/
def waveCols (w : Nat) : List Nat := if w = 1 then [10, 11, 12, 13] else [0, 2, 3, 5]
def wavePeaks (w : Nat) : List Nat := if w = 1 then [1, 2, 5, 6] else [0, 3, 4, 7]
def crossCols : List Nat := [1, 4, 6, 7, 8, 9]

/-- A col trains with the groups that pass; a col left down is event 0x0109. -/
def State.bootCol (s : State) (passed : List (Nat × Nat)) (c : Nat) : State :=
  let s := s.trainCol c (Map.getD passed c 0)
  if (s.col c).carries then s else s.hubEvent 0x0109 [(1, c)]

/-- What keeps a peak from being reached: a col of its route, or the row neighbour on it (R189). -/
def State.blocked (s : State) (p : Nat) : Option Nat :=
  match (hubRoute p).find? fun c => !(s.col c).carries with
  | some c => some c
  | none => if hubPeak p != p && s.peakSt (hubPeak p) != 4 then some (hubPeak p) else none

/-- A peak is powered, unless it is excluded or unreachable (R189, R190). -/
def State.powerPeak (s : State) (p : Nat) : State :=
  if !bit (bits s.boot.ctl 19 12) p then s.setPeakSt p 8
  else
    match s.blocked p with
    | some c => (s.setPeakSt p 7).hubEvent 0x0108 [(1, p), (1, c)]
    | none => { s with boot := { s.boot with attempts := Map.set s.boot.attempts p 1 } }.setPeakSt p 1

/-- The peaks of a wave have been powered, or have all come to an end: up, failed, unreachable or excluded. -/
def State.waveBegun (s : State) (w : Nat) : Bool := (wavePeaks w).any fun p => s.peakSt p != 0 || (Map.get? s.boot.attempts p).isSome
def State.waveOver (s : State) (w : Nat) : Bool := (wavePeaks w).all fun p => [4, 6, 7, 8].contains (s.peakSt p)

/-- A wave: its cols train, then its peaks are powered. -/
def State.wave (s : State) (w : Nat) (passed : List (Nat × Nat)) : State :=
  (wavePeaks w).foldl State.powerPeak ((waveCols w).foldl (fun s c => s.bootCol passed c) s)

/-- BOOT_STEP_WAVE_1: H1, H2, H5, H6 and P1, P2, P5, P6. -/
def execBootStepWave1 (passed : List (Nat × Nat)) (s : State) : Host.Outcome State Fault Refusal :=
  .next (s.atStep 3 fun s => if s.waveBegun 1 then s else s.wave 1 passed)

/-- BOOT_STEP_WAVE_2: B01, B23, B45, B67 and P0, P3, P4, P7, once wave 1 is over. -/
def execBootStepWave2 (passed : List (Nat × Nat)) (s : State) : Host.Outcome State Fault Refusal :=
  .next (s.atStep 3 fun s => if s.waveBegun 1 && s.waveOver 1 then (s.wave 2 passed).toStep 4 else s)

/-- BOOT_STEP_CROSS_COLS: B12, B56 and the substrate cols, once wave 2 is over. -/
def execBootStepCrossCols (passed : List (Nat × Nat)) (s : State) : Host.Outcome State Fault Refusal :=
  .next (s.atStep 4 fun s => if s.waveOver 2 then (crossCols.foldl (fun s c => s.bootCol passed c) s).toStep 6 else s)

/-- A peak is powered and not yet up. -/
def State.coming (s : State) (p : Nat) : Bool := s.boot.running && [1, 2, 3, 5].contains (s.peakSt p)

/-- Power-ons of a peak in this boot. -/
def State.tries (s : State) (p : Nat) : Nat := Map.getD s.boot.attempts p 0

/-- V_cal of a half appended to the log of the last 64 boots (R634). -/
def State.logVcal (s : State) (h : Nat) : State :=
  { s with store := { s.store with vcalLog := Map.set s.store.vcalLog h (lastK 64 (Map.getD s.store.vcalLog h [] ++ [s.fld (R.govRail h) 9 0])) } }

/-- PEAK_REPORT_UP: a peak has its self-test behind it and its microcode loaded (R187, R188). -/
def execPeakReportUp (peak : Nat) (test : SelfTest) (s : State) : Host.Outcome State Fault Refusal :=
  .next (if !s.coming peak then s
    else
      let s := if s.peakSt peak = 3 then s else s.selfTested peak test
      let s := ((s.setPeakSt peak 4).loadSeq peak).setFlag R.glbBootStatus (16 + peak) true
      (s.logVcal (2 * peak)).logVcal (2 * peak + 1))

/-- PEAK_LAGGING: a peak is not up 40 ms after its first power-on: it is powered off. -/
def execPeakLagging (peak : Nat) (s : State) : Host.Outcome State Fault Refusal :=
  .next (if s.coming peak && s.tries peak == 1 then
      (s.hubEvent 0x0105 [(1, peak), (1, s.peakSt peak)]).setPeakSt peak 0 else s)

/-- PEAK_SECOND_ATTEMPT: a lagging peak is powered on a second time. -/
def execPeakSecondAttempt (peak : Nat) (s : State) : Host.Outcome State Fault Refusal :=
  .next (if s.boot.running && s.peakSt peak == 0 && s.tries peak == 1 then
      ({ s with boot := { s.boot with attempts := Map.set s.boot.attempts peak 2 } }.setPeakSt peak 5).hubEvent 0x0106 [(1, peak)]
    else s)

/-- PEAK_FAILED: a peak is not up 40 ms after its second power-on. -/
def execPeakFailed (peak : Nat) (s : State) : Host.Outcome State Fault Refusal :=
  .next (if s.coming peak && s.tries peak == 2 then
      (s.hubEvent 0x0107 [(1, peak), (1, s.peakSt peak)]).setPeakSt peak 6 else s)

/-! ### Steps 6 to 8 (R191 to R193) -/

/-- BOOT_STEP_HBM: the stacks of the peaks that are up train; a peak whose stack fails is in state 9. -/
def execBootStepHbm (trained : Nat) (s : State) : Host.Outcome State Fault Refusal :=
  .next (s.atStep 6 fun s =>
    let s := ((List.range 8).filter fun p => s.peakSt p == 4).foldl (fun s p =>
      if bit trained p then s.setFld (R.ucHbmState p) 1 0 1
      else ((s.setFld (R.ucHbmState p) 1 0 3).setPeakSt p 9).hubEvent 0x010A [(1, p)]) s
    s.toStep 7)

/-- BOOT_STEP_CACHE: every slice, directory and L1 is cleared, and the core maps are computed (R266). -/
def execBootStepCache (s : State) : Host.Outcome State Fault Refusal :=
  .next (s.atStep 7 fun s =>
    let s := { s with mem := { s.mem with l1 := [], sets := [], dir := [] } }
    let s := (List.range 16).foldl (fun s h => s.setFld (R.ucGuest h) 17 0 0) s
    let s := ((List.range 16).filter fun h => s.dieOn (h / 2)).foldl (fun s h =>
      (s.applyMap h 0).setFlag (R.ucStatus h) 0 true) s
    s.toStep 8)

/-- The image of the boot loaded and committed; the reason where it is refused. -/
def State.bootImage (s : State) (index : Nat) : State × Nat :=
  let (s, f) := s.finishLoad { fromStore := true, index := index, addr := 0 }
  if f.1 != 0 then (s, f.1)
  else
    match s.img.pending with
    | none => (s, 0)
    | some im =>
      let f := s.commitFault im
      let s := s.imageResult f
      if f.1 != 0 then (s.hubEvent 0x0205 [(1, f.1)], f.1) else (s.commitFirst, 0)

/-- BOOT_STEP_IMAGE: the image that GLB_BOOT_CTL named at the boot's start is committed, where there is one; the boot is
complete, and the module enters Ready (R181, R186, R192, R193). -/
def execBootStepImage (s : State) : Host.Outcome State Fault Refusal :=
  .next (s.atStep 8 fun s =>
    let n := bits s.boot.ctl 11 4
    let index := if n = 0xFE then s.store.defaultImage else n
    let s :=
      if n = 0xFF || s.boot.recoveryReason != 0 then s
      else
        match s.bootImage index with
        | (s, 0) => s
        | (s, reason) => s.hubEvent 0x010C [(1, index), (1, reason)]
    let ms := (s.mod.islandUs - s.boot.startUs) / 1000
    let s := (s.setFlag R.glbBootStatus 6 s.img.committed.isNone).setReg R.glbBootTime (min ms 65535)
    let s := (s.hubEvent 0x010D [(2, ms), (1, s.fld R.glbBootStatus 23 16)]).setFlag R.glbBootStatus 4 true
    ({ s with boot := { s.boot with running := false } }.toStep 9).setPower .ready 2)

/-! ### Promotions (R210 to R215, R239) -/

/-- GLB_PROMOTE_STATUS with a result and a slot, and event 0x0111. -/
def State.promoResult (s : State) (kind slot r : Nat) : State :=
  ((s.setFld R.glbPromoteStatus 7 4 r).setFld R.glbPromoteStatus 9 8 slot).hubEvent 0x0111 [(1, kind), (1, slot), (1, r)]

/-- A write of GLB_PROMOTE starts a promotion in Ready or Run; one is refused while another runs. -/
def State.promote (s : State) (kind index : Nat) : State :=
  if !s.isUp then s
  else if s.store.promo.isSome then (s.setFld R.glbPromoteStatus 7 4 7).hubEvent 0x0111 [(1, kind), (1, 0), (1, 7)]
  else { s with store := { s.store with promo := some { kind := kind, index := index, slot := 0, result := none } } }.setFlag R.glbPromoteStatus 0 true

/-- PROMOTE_FIRMWARE: GLB_PROMOTE with kind 1. -/
def execPromoteFirmware (s : State) : Host.Outcome State Fault Refusal := .next (s.promote 1 0)

/-- PROMOTE_MICROCODE: GLB_PROMOTE with kind 2. -/
def execPromoteMicrocode (s : State) : Host.Outcome State Fault Refusal := .next (s.promote 2 0)

/-- PROMOTE_IMAGE: GLB_PROMOTE with kind 3 and a store index. -/
def execPromoteImage (index : Nat) (s : State) : Host.Outcome State Fault Refusal := .next (s.promote 3 (index % 256))

/-- The slot that the boot did not use; slot A when it used none (R212, log entry 68). -/
def State.unusedSlot (s : State) (kind : Nat) : Nat :=
  if s.fld R.glbBootStatus (if kind = 1 then 8 else 10) (if kind = 1 then 7 else 9) = 1 then 2 else 1

/-- The result of the checks of a staged object (R182, R211, R239). -/
def State.promoCheck (s : State) (p : Promo) : Nat :=
  let a := s.fld R.glbPromoteSrc 25 0
  let n := s.fld R.glbPromoteLen 23 0
  if a % 64 != 0 || a < 0x01500000 || 0x02100000 < a + n then 8
  else
    let b := Mem.readBytes s.store.mem a n
    if p.kind = 3 then
      (if p.index < 4 || !lengthOk (le b 8 4) || n < le b 8 4 || (s.bytesFault (b.take (le b 8 4)) false).1 != 0 then 6 else 0)
    else if n < 256 || n < le b 0x0C 4 + 256 then 1
    else slotFault s.fuse.keyDigest p.kind (slotSize p.kind) b

/-- STORE_PROMOTION: the hub command that checks the staged object and, where it passes, writes it: a slot under its
write-pending mark, magic zeroed and body first (R212). -/
def execStorePromotion (s : State) : Host.Outcome State Fault Refusal :=
  .next (s.whenSeq 8 fun s =>
    match s.store.promo with
    | none => s
    | some p =>
      if p.result.isSome then s
      else
        let r := s.promoCheck p
        let a := s.fld R.glbPromoteSrc 25 0
        let b := Mem.readBytes s.store.mem a (s.fld R.glbPromoteLen 23 0)
        if r != 0 then { s with store := { s.store with promo := some { p with result := some r } } }
        else if p.kind = 3 then
          { s with store := { s.store with promo := some { p with result := some 0 }, images := Map.set s.store.images p.index (b.take (le b 8 4)) } }
        else
          let k := s.unusedSlot p.kind
          let base := slotBase p.kind k
          let m := Mem.writeBytes (Mem.writeLE s.store.mem base 4 0) (base + 256) (cut b 256 (le b 0x0C 4))
          { s with store := { s.store with promo := some { p with slot := k, result := some 0 }, mem := m, pendingMark := insertAsc base s.store.pendingMark } })

/-- PROMOTE_DONE: the slot's header is written last and its mark cleared; the result, and event 0x0111. -/
def execPromoteDone (s : State) : Host.Outcome State Fault Refusal :=
  .next (s.whenRun fun s =>
    match s.store.promo with
    | none => s
    | some p =>
      match p.result with
      | none => s
      | some r =>
        let st := { s.store with promo := none }
        let st :=
          if p.slot = 0 then st
          else
            let base := slotBase p.kind p.slot
            { st with mem := Mem.writeBytes st.mem base (Mem.readBytes st.mem (s.fld R.glbPromoteSrc 25 0) 256), pendingMark := st.pendingMark.filter (· != base) }
        ({ s with store := st }.setFlag R.glbPromoteStatus 0 false).promoResult p.kind p.slot r)

end Sys2Proof.Machine
end

