-- ==== Sys2Proof/Machine/Census.lean ====
section
/-! DEFINITION. The ring census (R766 to R770). -/

namespace Sys2Proof.Machine

/-- The result buffer. -/
def State.censusBuf (s : State) : Nat := s.pair R.rngCensusBufLo R.rngCensusBufHi

/-- Flags [2:0] of a census' header: complete, partial, reissued; bit 3: ring closed at its start. -/
def Census.flags (c : Census) (ended : Bool) : Nat :=
  (ended && !c.reissued).toNat + 2 * (ended && c.reissued).toNat + 4 * c.reissued.toNat + 8 * c.closedAtStart.toNat

/-- The result header written into the buffer (R770). -/
def State.censusHeader (s : State) (c : Census) (ended : Bool) (endRound : Nat) : State :=
  let b := leBytes 2 c.sweep ++ leBytes 1 (c.flags ended) ++ leBytes 1 (popCount 32 c.got) ++ leBytes 4 c.east ++ leBytes 4 c.west ++
    leBytes 4 0 ++ leBytes 8 c.start ++ leBytes 8 endRound ++ List.replicate 32 0
  if s.inHbm s.censusBuf then s.writeDevice (.engine 0) tagCensus 0 s.censusBuf b else s

/-- The census replaced. -/
def State.setCensus (s : State) (c : Option Census) : State := { s with rng := { s.rng with census := c } }

/-- The 64-byte record of this member (R770). -/
def State.censusRecord (s : State) (reverse : Bool) : List Nat :=
  let port (p : Nat) : Nat := s.portSt p + 4 * s.portGen p
  let hot := (List.range 16).foldl (fun m h => max m (s.fld (R.govTemp h) 7 0)) 0
  leBytes 1 s.myId ++ leBytes 1 (reverse.toNat + 2 * s.pwr.halted.toNat) ++ leBytes 2 s.myInc ++ leBytes 4 s.serial ++
  leBytes 1 (s.fld R.glbPstate 1 0) ++ leBytes 1 (port 0 + 16 * port 1) ++ leBytes 2 (s.fld R.glbInputP 13 0) ++
  leBytes 3 (s.fld R.glbTemp 23 0) ++ leBytes 1 hot ++ leBytes 4 (s.reg R.rngLost) ++ leBytes 4 (s.reg R.rngRetry) ++
  leBytes 8 (match s.img.committed with | some im => im.id | none => 0) ++ leBytes 8 s.rnd.round ++ List.replicate 24 0

/-- The originator's own record of a token is put at its slot of the buffer (R768, log entry 99). -/
def State.ownRecord (s : State) (reverse : Bool) : State :=
  let a := s.censusBuf + 64 + 64 * s.myId
  if s.inHbm a then s.writeDevice (.engine 0) tagCensus 0 a (s.censusRecord reverse) else s

/-- A sweep starts (R767): the header and the own record, then the token east; ignored while one runs or outside a ring. -/
def State.startCensus (s : State) : State :=
  if s.rng.census.isSome || !s.maySend then s
  else
    let n := (s.rng.sweep + 1) % 65536
    let c : Census := { sweep := n, closedAtStart := s.fld R.rngState 2 0 == 3, reissued := false, reverse := false, east := 2 ^ s.myId, west := 0, got := 2 ^ s.myId, start := s.rnd.round, returned := none }
    let s := { s with rng := { s.rng with census := some c, sweep := n } }
    let s := (s.setFld R.rngCensusStatus 1 0 1).setFld R.rngCensusStatus 31 16 n
    ((s.censusHeader c false 0).ownRecord false).sendItem 0 (.token { origin := s.myId, sweep := n, reverse := false, returning := false, visited := 0, inc := s.myInc })

/-- CENSUS_GO: a write of 1 to RNG_CENSUS_CTL.go. -/
def execCensusGo (s : State) : Host.Outcome State Fault Refusal := .next (s.whenRun State.startCensus)

/-- A sweep ends: the header with its flags, and event 0x0E0A (R769). -/
def State.endCensus (s : State) (c : Census) : State :=
  let s := s.censusHeader c true s.rnd.round
  let s := (s.setFld R.rngCensusStatus 1 0 0).setFld R.rngCensusStatus 4 2 (c.flags true % 8)
  (s.setCensus none).hubEvent 0x0E0A [(2, c.sweep), (1, c.flags true), (1, popCount 32 c.got)]

/-- A sweep whose eastward token is back and whose records, the own one beside those visited, have all arrived is
complete. -/
def State.checkCensus (s : State) : State :=
  match s.rng.census with
  | some c =>
    match c.returned with
    | some v => if !c.reissued && v < popCount 32 c.east then s.endCensus c else s
    | none => s
  | none => s

/-- The token is sent west with reverse set, once, the own record again with it: event 0x0E0B. Causes: 0 the token came back returning, 1 timeout. -/
def State.reissueCensus (s : State) (c : Census) (cause : Nat) : State :=
  let s := (s.setCensus (some { c with reissued := true, reverse := true, west := putBit c.west s.myId true })).ownRecord true
  let s := (s.setFld R.rngCensusStatus 1 0 2).hubEvent 0x0E0B [(2, c.sweep), (1, evCode 0x0E0B cause)]
  s.sendItem 1 (.token { origin := s.myId, sweep := c.sweep, reverse := true, returning := false, visited := 0, inc := s.myInc })

/-- The token of another member: a record for it, and onward; or back where the onward port is down or foreign (R768).
A member that may send no request passes it on without a record (log entry 55). -/
def State.passToken (s : State) (port : Nat) (t : Token) : State :=
  if t.returning then s.sendItem (1 - port) (.token t)
  else
    let able := s.rng.switchesOpen && !s.rng.joining && !s.rng.duplicate && s.rng.departing.isNone
    let t1 := if able then { t with visited := t.visited + 1 } else t
    let s := if able then
        s.ringAsk .census { RPkt.mk0 .crec s.myId t.origin s.myInc t.inc s.myId with data := leVal (s.censusRecord t.reverse) }
      else s
    if s.portSt (1 - port) = 2 then s.sendItem (1 - port) (.token t1) else s.sendItem port (.token { t1 with returning := true })

/-- CENSUS_TOKEN: a token arrives on a port. -/
def execCensusToken (port : Nat) (token : Token) (s : State) : Host.Outcome State Fault Refusal :=
  .next (if s.portSt port != 2 then s
    else if token.origin != s.myId then s.passToken port token
    else
      match s.rng.census with
      | none => s
      | some c =>
        if token.inc != s.myInc || token.sweep != c.sweep then s
        else if token.reverse then s.endCensus c
        else if c.reissued then s
        else if token.returning then s.reissueCensus c 0
        else if port = 1 then (s.setCensus (some { c with returned := some token.visited })).checkCensus
        else s)

/-- CENSUS_TIMEOUT: no token within RNG_CENSUS_CFG.timeout µs of the send: the sweep is reissued, or ends. -/
def execCensusTimeout (s : State) : Host.Outcome State Fault Refusal :=
  .next (match s.rng.census with
    | none => s
    | some c => if s.pwr.halted then s else if c.reissued then s.endCensus c else s.reissueCensus c 1)

/-- RING_CREC: an inbound CREC is written at its record slot of the result buffer, outside the inbound window (R768). -/
def execRingCrec (s : State) : Host.Outcome State Fault Refusal :=
  .next (s.serveRing .crec (fun s p q =>
    let id := q.offset % 32
    let a := s.censusBuf + 64 + 64 * id
    let s := if s.inHbm a then s.inboundWrite p q a 0 (2 ^ 64 - 1) else
      (s.recordAnswer (s.answerTo q .crecAck 0 0)).respond p (s.answerTo q .crecAck 0 0)
    match s.rng.census with
    | some c =>
      let back := bit (q.data / 256) 0
      let c := { c with got := putBit c.got id true, east := if back then c.east else putBit c.east id true, west := if back then putBit c.west id true else c.west }
      (s.setCensus (some c)).checkCensus
    | none => s) State.answerAgain)

end Sys2Proof.Machine
end

