-- ==== Sys2Proof/Machine/Links.lean ====
section
/-! DEFINITION. Host links, grants of the pool, and the end of a snapshot (R98, R202, R619, R646, R683, R687, R688, R728,
R864, R881). -/

namespace Sys2Proof.Machine

/-! ### Links (R683 to R688, R694, R728) -/

/-- The full width of an endpoint's link. -/
def State.fullLanes (s : State) (port : Nat) : Nat := if s.splitPort port then 8 else 16

/-- Number of a link in HPT_PORT_CTL. -/
def linkNo (port ep : Nat) : Nat := 2 * port + ep

/-- LINK_UP: a link finishes training at a rate (0 6.0, 1 5.0, 2 4.0) and width, in Ready or Run; `funcs` are the functions
that the host then enumerates and enables, each with its MSI-X Enable. After a retraining the link has stayed up. -/
def execLinkUp (port ep rate lanes : Nat) (funcs : List (Nat × Bool)) (s : State) : Host.Outcome State Fault Refusal :=
  let max := s.fld (R.hptPortCfg port) 2 1
  let again := bit s.hst.retrain (linkNo port ep)
  .next (if !s.isUp || 2 ≤ port || 2 ≤ ep || (ep = 1 && !s.splitPort port) || (s.linkUp port ep && !again) || rate < max || 2 < rate ||
      lanes = 0 || s.fullLanes port < lanes then s
    else
      let up := s.linkUp port ep
      let s := { s with hst := { s.hst with retrain := putBit s.hst.retrain (linkNo port ep) false } }
      let s := s.setFld (R.hptLink port) (8 * ep + 7) (8 * ep) (1 + 2 * rate + 8 * lanes)
      let s :=
        if up then s
        else
          let s := s.hubEvent 0x0D01 [(1, port), (1, ep), (1, rate), (1, lanes)]
          (funcs.filter fun q => q.1 < 64 && s.endpointOf port q.1 == ep).foldl (fun s q =>
            s.setFunc port q.1 { enabled := true, msix := q.2, table := [], pend := [] }) s
      if max < rate || lanes < s.fullLanes port then s.hubEvent 0x0D03 [(1, port), (1, ep), (1, rate), (1, lanes)] else s)

/-- LINK_DOWN: a link drops unrequested: every function of its endpoint is reset, and the link trains again (R687). The
cause that event 0x0110 then carries is not stated. -/
def execLinkDown (port ep : Nat) (s : State) : Host.Outcome State Fault Refusal :=
  .next (if s.linkUp port ep then
      let s := (s.drawn.linkFalls port ep 3).flrAll (Config.freeValue s.free % 16) port ep
      { s with hst := { s.hst with retrain := putBit s.hst.retrain (linkNo port ep) false } }
    else s)

/-- LINK_RETRAIN: a write of HPT_PORT_CTL: the links named that are up train again. -/
def execLinkRetrain (v : Word) (s : State) : Host.Outcome State Fault Refusal :=
  let m := maskOf ((List.range 4).filter fun i => bit v.toNat i && s.linkUp (i / 2) (i % 2))
  .next { s with hst := { s.hst with retrain := s.hst.retrain ||| m } }

/-! ### The pool (R619) -/

/-- A user that has got its leave goes on. -/
def State.poolGo (s : State) : PoolUser → State
  | .hostDma k => s.hostDmaRun k
  | .ringDma e => s.ringDmaRun e
  | .tarn => s

/-- POOL_GRANT: the oldest waiting request is granted, and its user runs. -/
def execPoolGrant (s : State) : Host.Outcome State Fault Refusal :=
  .next (s.whenRun fun s =>
    match takeFirst (fun r => !r.granted) s.pwr.pool with
    | none => s
    | some (r, _) =>
      let s := s.poolGrantNext
      if s.poolHas r.user then s.poolGo r.user else s)

/-! ### Snapshots (R98, R202, R864, R881) -/

/-- What waited for the snapshot: a reset by GLB_RESET, or a change to Standby (R98, R202, R646). -/
def State.afterSnapshot (s : State) : State :=
  match s.boot.active.find? fun r => r.kind == 1 || r.kind == 2 with
  | some r =>
    let s := s.majorReset r.kind 2
    { s with mod := { s.mod with toStandby := none } }.perstAfter
  | none =>
    match s.mod.toStandby with
    | some .perst => s.majorReset 2 1
    | some .powerLoss => s.lossToStandby
    | some .dryStop => s.dryToStandby
    | none => if s.crn.thermalStandby then s.dryToStandby else s

/-- SNAPSHOT_COMPLETE: the snapshot is in its slot, and the cairns thaw; after a fatal fault or a stop the faceplate shows
its code. -/
def execSnapshotComplete (s : State) : Host.Outcome State Fault Refusal :=
  .next (match s.crn.snap with
    | none => s
    | some sn =>
      let s := (s.writeSnapshot sn).thaw sn
      let s := if sn.triggers % 8 = 0 then s else (s.setReg R.fplFatal sn.code).plateCause 1
      s.afterSnapshot)

end Sys2Proof.Machine
end

