-- ==== Sys2Proof/Machine/CoreCtl.lean ====
section
/-! DEFINITION. The control instructions: branches and divergence (R283 to R287), EXIT, barriers (R311 to
R313), BRK (R320) and TRAP. -/

namespace Sys2Proof.Machine

/-- The lanes of a mask without those of another. -/
def maskMinus (m n : Nat) : Nat := maskOf ((setBitsOf 32 m).filter fun l => !bit n l)

/-- The group diverges over two or more paths (mask and pc, in the order they run): the reconvergence entry,
then one entry for each path beyond the first, the last pushed deepest (R283, R285). A full stack of 32
entries raises DIV_OVF and event 0x0405 and changes neither stack nor mask (R287). -/
def State.diverge (s : State) (g : GroupRef) (x : Group) (r : Nat) (paths : List (Nat × Nat)) : State :=
  match paths with
  | [] => s.setGroup g x
  | (m, t) :: rest =>
    if 32 < x.stack.length + paths.length then
      if x.unconf.isEmpty then
        (s.halfEvent g.half 0x0405 [(1, g.half), (1, g.core), (1, g.slot), (4, x.pc)]).raise g x 0x03 0 x.mask
      else s
    else
      s.setGroup g { x with
        stack := rest.map (fun p => (p.1, p.2, r)) ++ (x.mask, r, x.rpc) :: x.stack,
        mask := m, pc := t, rpc := r }

/-- The path-pending mark of R316. -/
def Group.markPath (x : Group) (b : Bool) : Group := { x with pathPending := x.pathPending || b }

/-- BRA: the guard is the branch condition; target w1[31:0], reconvergence point w1[63:32] (R283). -/
def execBra (g : GroupRef) (f : CoreFields) (s : State) : Host.Outcome State Fault Refusal :=
  let p := { OpSpec.alu .unused .unused .unused .unused (f.mod == 0) with fmt := .b }
  .next (s.issue g f p [] fun s _ x0 =>
    let x := x0.markPath (x0.pendPreds.contains f.pred)
    let taken := maskOf (x.acting f)
    let fall := maskMinus x.mask taken
    let t := f.w1 % 2 ^ 32
    let r := f.w1 / 2 ^ 32
    if taken = 0 then s.setGroup g { x with pc := x.pc + f.len }
    else if fall = 0 then s.setGroup g { x with pc := t }
    else s.diverge g x r [(fall, x.pc + f.len), (taken, t)])

/-- The distinct targets of some lanes, ascending, each with its mask. -/
def targets (tgt : Nat → Nat) (lanes : List Nat) : List (Nat × Nat) :=
  let t := lanes.foldl (fun (m : Table Nat) l => Map.set m (tgt l) (putBit (Map.getD m (tgt l) 0) l true)) []
  t.map fun p => (p.2, p.1)

/-- BRI: the per-thread target is register a; each distinct target runs in ascending address order (R285).
Threads whose guard is false take the fall-through path, which runs first (R297, R284). -/
def execBri (g : GroupRef) (f : CoreFields) (s : State) : Host.Outcome State Fault Refusal :=
  let p := { OpSpec.alu .unused (.regs 1) .unused .unused (f.mod == 0) with fmt := .bri }
  .next (s.issue g f p [] fun s _ x0 =>
    let x := x0.markPath (x0.pendRegs.contains f.a)
    let act := x.acting f
    let fall := maskMinus x.mask (maskOf act)
    let ts := targets (fun l => x.reg l f.a) act
    let r := f.w1 / 2 ^ 32
    let paths := (if fall = 0 then [] else [(fall, x.pc + f.len)]) ++ ts
    match paths with
    | [(_, t)] => s.setGroup g { x with pc := t }
    | _ => s.diverge g x r paths)

/-- EXIT: acting threads leave the mask and every stack entry; a group whose mask becomes zero pops at once
(R286). -/
def execExit (g : GroupRef) (f : CoreFields) (s : State) : Host.Outcome State Fault Refusal :=
  let p := { OpSpec.alu .unused .unused .unused .unused (f.mod == 0) with commit := true }
  .next (s.issue g f p [] fun s _ x =>
    let out := maskOf (x.acting f)
    let y := { x with
      mask := maskMinus x.mask out, exited := x.exited ||| out, pc := x.pc + f.len,
      stack := x.stack.map fun e => (maskMinus e.1 out, e.2) }
    s.setGroup g (if y.mask = 0 then Group.pop 33 y else y))

/-- The groups of the block whose first slot is `b`, by slot. -/
def State.blockGroups (s : State) (half core b : Nat) : List (Nat × Group) :=
  (s.core half core).groups.filter fun q => q.2.block == b

/-- BAR: the group arrives at barrier imm11[3:0] (R311, R312). -/
def execBar (g : GroupRef) (f : CoreFields) (s : State) : Host.Outcome State Fault Refusal :=
  let p := { OpSpec.alu .unused .unused .unused .unused (f.mod == 0 && decide (f.imm < 16)) with
             commit := true, noGuard := true, imm := true }
  .next (s.issue g f p [] fun s b x =>
    if x.mask = maskMinus (2 ^ 32 - 1) x.exited then
      let s := s.setGroup g { x with pc := x.pc + f.len, wait := .barrier f.imm }
      s.setBlk g x.block { b with
        arrived := Map.set b.arrived f.imm (Map.getD b.arrived f.imm [] ++ [x.gidx]) }
    else s.raise g x 0x09 0 x.mask)

/-- Barrier `k` of the block whose first slot is `b` completes when every group of the block that has not
exited has arrived at it (R311, R313). -/
def execBarComplete (half core b k : Nat) (s : State) : Host.Outcome State Fault Refusal :=
  let gs := (s.blockGroups half core b).filter fun q => !q.2.done
  .next (if s.unitsRun && !gs.isEmpty && gs.all fun q => q.2.wait == .barrier k then
      let c := s.core half core
      s.setCore half core { c with
        groups := Map.mapVals c.groups fun _ x => if x.block == b && !x.done then { x with wait := .ready } else x,
        blocks := Map.modify c.blocks b fun x => { x with arrived := Map.erase x.arrived k } }
    else s)

/-- BRK: halts the half where the phase began with brk_halt and the session armed the half, with event
0x0408; otherwise BREAK (R320). -/
def execBrk (g : GroupRef) (f : CoreFields) (s : State) : Host.Outcome State Fault Refusal :=
  let p := { OpSpec.alu .unused .unused .unused .unused (f.mod == 0) with commit := true }
  .next (s.issue g f p [] fun s b x =>
    if x.acting f = [] then s.setGroup g { x with pc := x.pc + f.len }
    else if b.brkHalt && s.flag R.jtgArmed g.half then
      ((s.setGroup g { x with pc := x.pc + f.len }).haltHalf g.half).halfEvent g.half 0x0408
        [(1, g.half), (1, g.core), (1, g.slot), (4, x.pc)]
    else s.raise g x 0x0A 0 (maskOf (x.acting f)))

/-- TRAP: raises USER with code imm11. -/
def execTrap (g : GroupRef) (f : CoreFields) (s : State) : Host.Outcome State Fault Refusal :=
  let p := { OpSpec.alu .unused .unused .unused .unused (f.mod == 0) with commit := true, imm := true }
  .next (s.issue g f p [] fun s _ x =>
    if x.acting f = [] then s.setGroup g { x with pc := x.pc + f.len }
    else s.raise g x 0x0B f.imm (maskOf (x.acting f)))

end Sys2Proof.Machine
end

