-- ==== Sys2Proof/Machine/Trap.lean ====
section
/-! DEFINITION. Traps reported (R323 to R327), resumable faults reported, resumed and aborted (R355 to R363), and
the end of a block (R274, R377). -/

namespace Sys2Proof.Machine

/-! ### Traps -/

/-- The groups of a partition that stand at a trap and have no unconfirmed load, in the order of R325: logical
half, logical core, slot. -/
def State.trapped (s : State) (p : Nat) : List (Nat × GroupRef × Group × TrapInfo) :=
  match s.partRec p with
  | none => []
  | some r => (r.halves.zipIdx).flatMap fun h =>
      (s.groupsOf h.1).filterMap fun q =>
        match q.2.trap with
        | some t => if q.2.wait == .trap && q.2.unconf.isEmpty then some (h.2, q.1, q.2, t) else none
        | none => none

/-- TRAP_REPORT: the first of the traps raised in the earliest turn is reported; the others of that turn are
counted in their halves. The partition is reset and its job ends by trap (R324, R325, R327). -/
def execTrapReport (part : Nat) (s : State) : Host.Outcome State Fault Refusal :=
  .next (s.whenRun fun s =>
    let all := s.trapped part
    let first := all.foldl (fun m q => min m q.2.2.2.turn) (all.map (·.2.2.2.turn)).sum
    match all.filter fun q => q.2.2.2.turn == first with
    | [] => s
    | (lh, g, x, t) :: others =>
      let h := g.half
      let v := s.reg (R.corTrapInfo h)
      let s := s.setReg (R.corTrapInfo h) (putBits (putBits (putBits v 7 0 t.code) 18 8 t.user) 24 19 g.slot)
      let s := ((s.setReg (R.corTrapPc h) x.pc).setReg (R.corTrapLanes h) t.lanes).setReg (R.corTrapCore h) g.core
      let s := others.foldl (fun s q => s.addFld (R.corTrapInfo q.2.1.half) 31 25 1) s
      let s := s.halfEvent h 0x0407 [(1, part), (1, h), (1, g.core), (1, g.slot), (4, x.pc), (1, t.code)]
      let s := if s.flag R.crnCfg 1 then s.freeze 6 0x0407 else s
      s.resetPart part 3 ([t.code, lh, g.slot, 0] ++ leBytes 2 g.core ++ leBytes 2 t.user ++ leBytes 4 x.pc ++ leBytes 4 t.lanes))

/-- TRAP_CLEAR: a write of 1 to COR_TRAP_CLR.clear clears the half's trap registers. -/
def execTrapClear (half : Nat) (s : State) : Host.Outcome State Fault Refusal :=
  .next ((((s.setReg (R.corTrapInfo half) 0).setReg (R.corTrapPc half) 0).setReg (R.corTrapLanes half) 0).setReg
    (R.corTrapCore half) 0)

/-! ### Resumable faults -/

/-- Code of a memory instruction in COR_MFLT_INFO. -/
def MemKind.instr : MemKind → Nat
  | .ld => 0 | .st => 1 | .ldc => 2 | .gather => 3 | .atom => 0

/-- A group stopped on a resumable fault. -/
def Group.stopped (x : Group) : Bool := match x.wait with | .fault _ => true | _ => false

/-- The stopped groups of a half. -/
def State.stoppedOf (s : State) (h : Nat) : List (GroupRef × Group) := (s.groupsOf h).filter fun q => q.2.stopped

/-- COR_MFLT_STOP.groups follows the groups stopped now. -/
def State.showStopped (s : State) (h : Nat) : State := s.setFld (R.corMfltStop h) 12 0 (s.stoppedOf h).length

/-- R359: partition reset of the half's partition with the record of COR_MFLT_INFO; event 0x040B. -/
def State.abortMem (s : State) (h how : Nat) : State :=
  let i := s.reg (R.corMfltInfo h)
  let a := s.pair (R.corMfltAddrLo h) (R.corMfltAddrHi h)
  let d := [bits i 3 1, s.logicalHalf h, bits i 11 6, bits i 16 12] ++ leBytes 2 (bits i 27 21) ++ [bits i 20 17, 0] ++ leBytes 8 a
  let s := s.halfEvent h 0x040B [(1, h), (1, bits i 3 1), (1, how)]
  match s.partOfHalf h with
  | some p => (s.resetPart p 4 d).showStopped h
  | none => s

/-- The channel's memory-fault notice, where its entry asks for notices (R357, R596). -/
def State.memNotice (s : State) (h : Nat) (detail : List Nat) : State :=
  match (s.partOfHalf h).bind s.holderOf with
  | none => s
  | some j =>
    match s.job? j with
    | none => s
    | some x =>
      match (s.chan x.channel).entry with
      | some e => if e.notices then s.addRec x.channel (x.record j 1 0 0 s.rnd.round detail) else s
      | none => s

/-- RESUMABLE_FAULT_REPORT: a stopped group with no unconfirmed load is reported once: COR_MFLT_INFO and
COR_MFLT_ADDR, or the count of COR_MFLT_STOP; event 0x0409 and a notice (R356, R357), and R359 at once while
abort_now is 1 (R360). -/
def execResumableFaultReport (g : GroupRef) (s : State) : Host.Outcome State Fault Refusal :=
  .next (s.whenRun fun s =>
    match s.group? g with
    | none => s
    | some x =>
      match x.wait, x.memop with
      | .fault c, some op =>
        if x.faultRound != 0 || !x.unconf.isEmpty then s
        else
          match op.pieces.find? fun p => p.faultCode != 0 with
          | none => s
          | some p0 =>
            let h := g.half
            let low := (op.pieces.filter fun p => p.faultCode != 0).foldl (fun (b : Piece) p =>
              if p.lane < b.lane || (p.lane = b.lane && p.elem < b.elem) then p else b) p0
            let elem := if op.kind = MemKind.gather then Map.getD x.gprog low.lane 0 else 0
            let ms := s.fld (R.corMemCfg (h / 2)) 15 0
            let s := s.setGroup g { x with faultRound := s.mod.islandUs + 1, faultTimeout := ms }
            let s := if s.flag (R.corMfltInfo h) 0 then s.addFld (R.corMfltStop h) 31 16 1
              else (s.setReg (R.corMfltInfo h) (1 + 2 * c + 16 * op.kind.instr + 64 * g.slot + 2 ^ 12 * low.lane +
                2 ^ 17 * (elem % 16) + 2 ^ 21 * g.core)).setPair (R.corMfltAddrLo h) (R.corMfltAddrHi h) (low.addr % 2 ^ 48)
            let s := s.halfEvent h 0x0409 [(1, h), (1, g.core), (1, g.slot), (1, low.lane), (1, elem), (1, c), (8, low.addr)]
            let s := (s.memNotice h ([c, s.logicalHalf h, g.slot, low.lane] ++ leBytes 2 g.core ++ [elem, 0] ++
              leBytes 8 low.addr)).showStopped h
            if s.flag (R.corMemCfg (h / 2)) 16 then s.abortMem h 1 else s
      | _, _ => s)

/-- A stopped instruction made ready to be performed again: LD, LDC and ST for all their lanes, a gather from
GPROG on (R358). -/
def MemOp.again (op : MemOp) : MemOp := { op with pieces := op.pieces.map fun p => { p with st := .idle } }

/-- The steps that a reissued instruction costs, as at its first issue (R334). -/
def State.chargeAgain (s : State) (h : Nat) (op : Option MemOp) : State :=
  match op with
  | none => s
  | some op => ((op.pieces.map (·.elem)).eraseDups).foldl (fun s i => s.chargeSectors h (op.pieces.filter fun p => p.elem == i)) s

/-- MFLT_RESUME: every stopped group of the half reissues its instruction and the fault registers are cleared
(R358); ignored while none is stopped (R361). -/
def execMfltResume (half : Nat) (s : State) : Host.Outcome State Fault Refusal :=
  .next (s.whenRun fun s =>
    match s.stoppedOf half with
    | [] => s
    | l =>
      let s := ((s.setReg (R.corMfltInfo half) 0).setPair (R.corMfltAddrLo half) (R.corMfltAddrHi half) 0).setReg
        (R.corMfltStop half) 0
      let s := s.halfEvent half 0x040A [(1, half), (4, l.length)]
      (l.foldl (fun s q =>
        ((s.chargeAgain half q.2.memop).setGroup q.1 { q.2 with wait := .memory, memop := q.2.memop.map MemOp.again, faultRound := 0 }).tryMem q.1) s).showStopped half)

/-- MFLT_ABORT: a write of 1 to COR_MFLT_CTL.abort (R359); ignored while no group of the half is stopped. -/
def execMfltAbort (half : Nat) (s : State) : Host.Outcome State Fault Refusal :=
  .next (s.whenRun fun s => if s.stoppedOf half = [] then s else s.abortMem half 0)

/-- MFLT_TIMEOUT: a reported fault has stood unresumed for the time in force at its report (R359, R368). -/
def execMfltTimeout (half : Nat) (s : State) : Host.Outcome State Fault Refusal :=
  .next (s.whenRun fun s =>
    if (s.stoppedOf half).any fun q => q.2.faultRound != 0 && q.2.faultTimeout != 0 &&
        decide (q.2.faultRound - 1 + q.2.faultTimeout * 1000 ≤ s.mod.islandUs) then s.abortMem half 1
    else s)

/-! ### Blocks -/

/-- Stores of some groups of a core that are still to be performed at device scope count for no group any more; the
phase's drain waits for them (R59). -/
def State.orphanStores (s : State) (k : Nat) (gone : List Nat) : State :=
  let orphan (c : L1) : L1 := { c with opens := c.opens.map fun q => (q.1, q.2.map fun i => if gone.contains i then 64 else i) }
  { s with mem := { s.mem with l1 := Map.modify s.mem.l1 k orphan } }

/-- BLOCK_END: every thread of the block has exited and every tile it submitted has completed; its slots,
registers and local store are free, and the core's draw ends with its last block (R274, R377, R614). -/
def execBlockEnd (half core b : Nat) (s : State) : Host.Outcome State Fault Refusal :=
  .next (s.whenRun fun s =>
    let gs := s.blockGroups half core b
    match Map.get? (s.core half core).blocks b with
    | none => s
    | some _ =>
      if gs.all fun q => q.2.done && q.2.tilesOut == 0 && q.2.unconf.isEmpty then
        let c := s.core half core
        let c := { c with groups := c.groups.filter fun q => q.2.block != b, blocks := Map.erase c.blocks b }
        let s := s.setCore half core c
        let s := if gs.all (fun q => q.2.storesOut == 0) then s
          else match s.physOf half core with | some p => s.orphanStores (coreKey half p) (gs.map (·.1)) | none => s
        if c.blocks = [] then s.releaseDraw half core else s
      else s)

end Sys2Proof.Machine
end

