-- ==== Sys2Proof/Machine/Fault.lean ====
section
/-! DEFINITION. Faults: their detection, the notices that the hub sequencer serves, fault stops and fences, fault records,
and the fatal state (R460, R885 to R913). -/

namespace Sys2Proof.Machine

/-! ### Detection (R458, R460, R886, R892, R906) -/

/-- The notice of a fault of a half's unit. -/
def State.halfNotice (s : State) (kind code h index : Nat) : Notice :=
  { kind := kind, code := code, die := h / 2, unit := h % 2 + 2 * index, parts := s.partsHolding (· == h), round := s.rnd.round, half := h, line := 0 }

/-- The notice of a fault of a stack. -/
def State.stackNotice (s : State) (peak code : Nat) : Notice :=
  { kind := 6, code := code, die := peak, unit := 2 * peak, parts := s.partsHolding (fun h => h / 2 == peak), round := s.rnd.round, half := 2 * peak, line := 0 }

/-- An uncorrectable error of a slice or stack is counted in its round; more than 16 are a fault (R892, R906). -/
def State.countError (s : State) (key : Nat) (n : Notice) : State :=
  let k := Map.getD s.mem.errors key 0 + 1
  let s := { s with mem := { s.mem with errors := Map.set s.mem.errors key k } }
  if k = 17 then s.notice n else s

/-- An uncorrectable error of a stack's sector: event 0x0604, and the line is poisoned (R460, R898). -/
def State.stackError (s : State) (peak channel addr : Nat) : State :=
  let s := (s.event peak 0 0x0604 [(1, peak), (1, channel), (8, addr)]).poisonLine (addr / 128)
  s.countError (16 + peak) (s.stackNotice peak 0x0604)

/-- UNIT_FAULT_DETECT: a unit detects a hardware fault: its event, and a notice to the hub sequencer. -/
def execUnitFaultDetect (fault : HwFault) (s : State) : Host.Outcome State Fault Refusal :=
  .next (s.whenRun fun s =>
    match fault with
    | .coreStore h k =>
      (s.halfEvent h 0x0402 [(1, h), (1, k), (1, (s.logicalOf h k).getD 0xFF), (8, s.rnd.round)]).notice (s.halfNotice 1 0x0402 h k)
    | .arrayError h u => (s.halfEvent h 0x0504 [(1, h), (1, u)]).notice (s.halfNotice 2 0x0504 h 0)
    | .sliceCorrected h line way =>
      (s.addFld (R.ucEcc h) 15 0 1).oncePerRound 0x0601 h (·.halfEvent h 0x0601 [(1, h), (2, line % 12288), (1, way)])
    | .sliceSector h line sector way =>
      let s := (s.halfEvent h 0x0602 [(1, h), (2, line % 12288), (1, way), (1, sector)]).poisonLine line
      s.countError h { s.halfNotice 12 0x0602 h 0 with parts := 0 }
    | .stackSector p c a => s.stackError p c a
    | .stackTraining p =>
      let s := s.drawn
      s.notice (s.stackNotice p (Config.freeValue (s.free - 1) % 65536))
    | .tagError h line way =>
      let s := s.drawn.halfEvent h 0x0602 [(1, h), (2, line % 12288), (1, way), (1, Config.freeValue s.free % 256)]
      s.notice { s.halfNotice 12 0x0602 h 0 with parts := 0 }
    | .tarn unit =>
      (s.hubEvent 0x0F08 [(1, unit)]).notice
        { kind := 11, code := 0x0F08, die := 8, unit := 0, parts := 0, round := s.rnd.round, half := 16, line := 0 }
    | .resetLate d =>
      if s.boot.active.any fun r => r.kind == 5 && r.target == d then
        let s := s.drawn
        s.notice { kind := 12, code := Config.freeValue (s.free - 1) % 65536, die := d, unit := 0, parts := 0, round := s.rnd.round, half := if d = 8 then 16 else 2 * d, line := 0 }
      else s)

/-- PATROL_SCRUB: a pass over a stack's span, with the addresses whose errors on-die ECC corrected and the
addresses whose errors it could not correct, each with its pseudo-channel: counted, recorded, the latter
poisoned (R456, R459, R460, R898). -/
def execPatrolScrub (peak : Nat) (fixed bad : List (Nat × Nat)) (s : State) : Host.Outcome State Fault Refusal :=
  .next (s.whenRun fun s =>
    if s.fld (R.ucCfg (2 * peak)) 15 8 = 0 || !s.stackUp peak then s
    else
      let s := s.addFld (R.ucEcc (2 * peak)) 31 16 fixed.length
      let s := match fixed with
        | e :: _ => s.oncePerRound 0x0603 peak (·.event peak 0 0x0603 [(1, peak), (1, e.1), (8, e.2)])
        | [] => s
      bad.foldl (fun s e => s.stackError peak e.1 e.2) s)

/-! ### Records (R909 to R911) -/

/-- FLT_STATUS.queued. -/
def State.showRecords (s : State) : State := s.setFld R.fltStatus 6 1 s.flt.records.length

/-- A fault record (R910): flags 1 fatal, 2 fenced, 4 replayed. -/
def Notice.record (n : Notice) (flags : Nat) : List Nat :=
  leBytes 2 n.code ++ [n.kind, flags, n.die, n.unit % 256] ++ leBytes 2 n.parts ++ leBytes 8 n.round

/-- A record is added, or discarded when 32 are kept. -/
def State.addRecord (s : State) (n : Notice) (flags : Nat) : State :=
  let s := s.addFld R.fltStatus 31 16 1
  if 32 ≤ s.flt.records.length then (s.setFlag R.fltStatus 7 true).hubEvent 0x1209 [(1, n.kind)]
  else { s with flt := { s.flt with records := s.flt.records ++ [n.record flags], added := true } }.showRecords

/-- FAULT_RECORD_POP: a read of FLT_REC_0: the oldest record leaves the FIFO, and its four words are latched. -/
def execFaultRecordPop (s : State) : Host.Outcome State Fault Refusal :=
  let s := match s.flt.records with
    | r :: rs => { s with flt := { s.flt with records := rs, latched := r } }.showRecords
    | [] => s
  .next { s with answer := leVal (s.flt.latched.take 4) }

/-! ### Fault stops (R889, R890, R909) -/

/-- The partitions of a mask. -/
def partsOf (m : Nat) : List Nat := (List.range 16).filter (bit m)

/-- A fault stop of a partition: the effects of R203, with status 5 in the record; a trap that waits for its report is
counted in its half (R909). -/
def State.faultStop (s : State) (p : Nat) (n : Notice) : State :=
  match s.partRec p with
  | none => s
  | some r =>
    let s := (s.trapped p).foldl (fun s q => s.addFld (R.corTrapInfo q.2.1.half) 31 25 1) s
    let s := r.halves.foldl (fun s h => (s.resumeHalf h).setFlag R.jtgArmed h false) s
    s.resetPart p 5 (faultDetail n)

/-- Fault stops of a fault's partitions. -/
def State.stopParts (s : State) (n : Notice) : State := (partsOf n.parts).foldl (fun s p => s.faultStop p n) s

/-- Fault stops, then fences. -/
def State.stopFence (s : State) (n : Notice) : State := (partsOf n.parts).foldl (fun s p => s.fence p n) (s.stopParts n)

/-- A half is marked failed (FLT_FAILED). -/
def State.failHalf (s : State) (h : Nat) : State := s.setFlag R.fltFailed h true

/-! ### Cores (R893 to R897) -/

/-- The first present good core after logical core `l` (R894). -/
def State.redirectOf (s : State) (h l : Nat) : Option Nat :=
  let n := s.fld (R.corCount h) 6 0
  ((List.range (n - 1)).map fun i => (l + 1 + i) % n).find? fun c => (s.physOf h c).any (s.coreGood h)

/-- The groups and blocks of a core are lost, with what its window holds and its draw. -/
def State.loseCore (s : State) (h l : Nat) : State :=
  let c := s.core h l
  let gone := Map.keysWhere s.mem.loads fun _ x => x.half == h && x.core == l
  let conf := Map.mapVals s.mem.conf fun _ (x : ConfEntry) => { x with loads := x.loads.filter fun k => !gone.contains k }
  let s := { s with mem := { s.mem with loads := s.mem.loads.filter fun q => !gone.contains q.1, conf := conf } }
  (s.setCore h l { c with groups := [], blocks := [] }).releaseDraw h l

/-- The tiles of the running phase that a failed logical core loses or still has to run move to the target, each with
event 0x1202. Answers whether there is a target. -/
def State.replayTiles (s : State) (h l j : Nat) : State × Bool :=
  match s.redirectOf h l, s.phaseJob j with
  | some t, some x =>
    let lost := (s.core h l).blocks.map fun q => q.2.tidx
    let s := s.loseCore h l
    match s.jobPhase x with
    | none => (s, true)
    | some (_, b, p) =>
      let launched := x.launched.filter fun i => !lost.contains i
      let y := { x with launched := launched }
      let move := (s.waitingTiles y h (s.logicalHalf h) l (phaseTiles b p)).map (·.1)
      let moved := move.foldl (fun m i => Map.set m i t) x.moved
      let s := (s.modJob j fun x => { x with launched := launched, moved := moved }).voidJob j 2
      (((move.filter lost.contains) ++ move.filter fun i => !lost.contains i).foldl (fun s i =>
        s.halfEvent h 0x1202 [(1, x.part), (2, i), (1, t)]) s, true)
  | none, some _ => (s, false)
  | _, none => (s.loseCore h l, true)

/-- A core has failed: replay and redirection, a fault stop where FLT_CFG.replay is 0, or the end of the half (R893, R896,
R897). Answers the record's flags. -/
def State.coreFault (s : State) (n : Notice) : State × Nat :=
  let h := n.half
  let k := n.unit / 2
  let l := (s.logicalOf h k).getD 0xFF
  let s := { s with cor := { s.cor with failed := Map.set s.cor.failed h (putBit (Map.getD s.cor.failed h 0) k true) } }
  let s := s.remapHalf h
  if s.computeMap h = [] then ((s.failHalf h).stopFence n, 2)
  else
    match (s.partOfHalf h).bind s.holderOf with
    | none => (s, 0)
    | some j =>
      if !bit n.cfg 0 then (s.stopParts n, 0)
      else if l = 0xFF then (s.voidJob j 2, 0)
      else
        match s.replayTiles h l j with
        | (s, true) => (s.voidJob j 2, 4)
        | (s, false) => (s.stopParts n, 0)

/-! ### Stacks, cols and sequencers -/

/-- A stack fails: its span leaves the HBM range, and its lines leave every slice and L1 without being written. -/
def State.failStack (s : State) (peak : Nat) : State :=
  let lost (line : Nat) : Bool := spanOf (line * 128) == some peak
  let s := State.settle 64 s
  let l1 := Map.mapVals s.mem.l1 fun _ (c : L1) => { c with lines := c.lines.filter fun x => !lost x.line }
  let sets := s.mem.sets.filterMap fun q =>
    let l := q.2.filter fun w => !lost w.line
    if l.isEmpty then none else some (q.1, l)
  let dir := s.mem.dir.filterMap fun q =>
    let l := q.2.filter fun e => !lost e.line
    if l.isEmpty then none else some (q.1, l)
  let s := { s with mem := { s.mem with l1 := l1, sets := sets, dir := dir }, flt := { s.flt with stacksFailed := putBit s.flt.stacksFailed peak true } }
  (List.range 16).foldl (fun s h => s.setFld (R.ucGuest h) 17 0 (s.guestCount h)) (s.setFld (R.ucHbmState peak) 1 0 3)

/-- A degraded col (R901): the running jobs go on with their bounds void, and the fence waits for their end; at once where
none runs, or with degrade_end. -/
def State.degraded (s : State) (n : Notice) : State × Nat :=
  if bit n.cfg 16 then (s.stopFence n, 2)
  else
    let now := (partsOf n.parts).filter fun p => (s.holderOf p).isNone
    let s := (partsOf n.parts).foldl (fun s p =>
      if (s.holderOf p).isSome then
        { s.voidPart p 2 with flt := { s.flt with fenceAtEnd := Map.set s.flt.fenceAtEnd p n } }
      else s.fence p n) s
    (s, if now.isEmpty then 0 else 2)

/-- A col that has stalled fails (cause 2), and what it cut off is accounted for (R902). -/
def State.colFault (s : State) (n : Notice) : State :=
  let c := n.unit / 2
  let s := if n.code = 0x0302 && !bit s.flt.colsFailed c then
      let (s, parts) := s.dropCol c 2
      s.cutFault c parts
    else s
  s.endCuts

/-- A sequencer faults again within `repeat` rounds of the end of its reset (R905). -/
def State.faultsAgain (s : State) (n : Notice) (d : Nat) : Bool :=
  match Map.get? s.flt.seqReset d with
  | some r => decide (n.round + 1 ≤ r + bits n.cfg 15 4)
  | none => false

/-! ### Fatal faults (R907, R908) -/

/-- The fatal state: 0x1205, the freeze, FLT_STATUS and FLT_FATAL, units halted and stacks at rest, the ring departure,
the record and FLT_VEC at once. The faceplate follows the snapshot (R881). -/
def State.fatal (s : State) (n : Notice) : State :=
  let s := (s.hubEvent 0x1205 [(2, n.code)]).freeze 0 n.code
  let s := (s.setFlag R.fltStatus 0 true).setReg R.fltFatal n.code
  let s := { s with pwr := { s.pwr with dryEnding := false } }.haltUnits.depart .fatal
  let s := { s with flt := { s.flt with added := false } }.addRecord n 1
  if s.flag R.fltVec 31 then s.sendCtl (s.fld R.fltVec 10 0) else s

/-- The hub requests a sequencer reset with cause 5, unless one stands. -/
def State.faultReset (s : State) (d : Nat) : State :=
  if (s.boot.active ++ s.boot.deferred).any fun r => r.kind == 5 && r.target == d then s
  else s.startReset { kind := 5, target := d, port := 0, cause := 5, done := false }

/-! ### Notices (R886, R888, R892) -/

/-- The action of a unit fault, and the flags of its record. -/
def State.faultAction (s : State) (n : Notice) : State × Nat :=
  if n.kind = 1 then s.coreFault n
  else if n.kind = 2 || n.kind = 3 then ((s.failHalf n.half).stopFence n, 2)
  else if n.kind = 4 then ((s.stopParts n).poisonLine n.line, 0)
  else if n.kind = 5 then (s.stopParts n, 0)
  else if n.kind = 6 then ((s.failStack n.die).stopFence n, 2)
  else if n.kind = 7 then s.degraded n
  else if n.kind = 8 then (if n.line = 1 then ((s.colFault n).stopParts n, 0) else ((s.colFault n).stopFence n, 2))
  else if n.kind = 9 then ((s.stopParts n).faultReset n.die, 0)
  else if n.kind = 10 then (s.faultReset 8, 0)
  else ((s.setFlag R.fltFailed 16 true).tarnEnd 12 0, 0)

/-- The service of a notice: condition 2 fails for the jobs it affects (R29, R31); a fatal fault, or a sequencer's that comes again, ends in the fatal state; any other has its
action and its record. -/
def State.serveFault (s : State) (n : Notice) : State :=
  if n.kind = 12 || ((n.kind = 9 || n.kind = 10) && s.faultsAgain n n.die) then s.fatal n
  else
    let r := ((partsOf n.parts).foldl (fun s p => s.voidPart p 2) s).faultAction n
    r.1.addRecord n r.2

/-- The order in which notices that wait together are served (R888). -/
def Notice.before (a b : Notice) : Bool :=
  let k (n : Notice) : List Nat := [if n.kind = 12 then 0 else 1, n.round, n.die, n.kind]
  decide (k a < k b)

/-- The first of some notices. -/
def firstNotice : List Notice → Option Notice
  | [] => none
  | n :: ns =>
    match firstNotice ns with
    | none => some n
    | some m => if m.before n then some m else some n

/-- A notice that waits no longer. -/
def State.takeNotice (s : State) (n : Notice) : State := { s with flt := { s.flt with notices := s.flt.notices.erase n } }

/-- FAULT_NOTICE: the hub sequencer serves the first notice that waits. A fatal fault, and a fault of the hub sequencer
itself, act without it. Notices wait through a dry stop (R909). -/
def execFaultNotice (s : State) : Host.Outcome State Fault Refusal :=
  .next (match firstNotice (s.flt.notices.filter fun n => n.kind == 12 || n.kind == 10) with
    | some n => s.whenRun fun s => (s.takeNotice n).serveFault n
    | none =>
      s.whenRun fun s => s.serve 8 1 fun s =>
        match firstNotice s.flt.notices with
        | some n => (s.takeNotice n).serveFault n
        | none => s)

end Sys2Proof.Machine
end

