-- ==== Sys2Proof/Machine/Module.lean ====
section
/-! DEFINITION. The module: J1, PERST#, FLOW_OK, the ring bypass request, power states, converter tiles, the reference
oscillator, operating limits, the store's window and the input thresholds (R80 to R125). -/

namespace Sys2Proof.Machine

/-! ### J1 (R93, R94, R96, R98) -/

/-- A run of samples beyond a threshold. -/
def runOn (beyond : Bool) (n : Nat) : Nat := if beyond then n + 1 else 0

/-- A sample joins those of the last millisecond. -/
def sampled (v : Nat) (l : List Nat) : List Nat := (v :: l).take 1000

/-- The runs of samples beyond the thresholds of GLB_INLIM_THR (25 × 10 mV each), and below 30 V. -/
def State.countRuns (s : State) (volts pips : Nat) : State :=
  let thr (i : Nat) : Nat := 25 * s.fld R.glbInlimThr (8 * i + 7) (8 * i)
  let m := s.mod
  { s with mod := { m with
    islandUs := m.islandUs + 1, volts := sampled volts m.volts, pips := sampled pips m.pips,
    uvWarnRun := runOn (volts < thr 0) m.uvWarnRun, uvTripRun := runOn (volts < thr 1) m.uvTripRun,
    ovWarnRun := runOn (thr 2 < volts) m.ovWarnRun, ovTripRun := runOn (thr 3 < volts) m.ovTripRun,
    offRun := runOn (volts < 3000) m.offRun } }

/-- What J1 staying beyond a threshold brings: the event bits at each sample from the eleventh on; at the eleventh, in
Ready or Run a power-loss stop, in Standby event 0x0A0A and the end of a boot. -/
def State.j1Acts (s : State) (volts : Nat) : State :=
  let m := s.mod
  let runs := [m.uvWarnRun, m.uvTripRun, m.ovWarnRun, m.ovTripRun]
  let s := (runs.zipIdx).foldl (fun s r => if 11 ≤ r.1 then s.setFlag R.glbModEvent (2 + r.2) true else s) s
  let trip := if 11 ≤ m.uvTripRun then some 0 else if 11 ≤ m.ovTripRun then some 1 else none
  if s.isUp then
    match trip with
    | some t => if s.mod.toStandby = some .powerLoss then s else s.powerLoss t volts
    | none => s
  else
    let now := (if m.uvTripRun = 11 then [0] else []) ++ (if m.ovTripRun = 11 then [1] else [])
    let s := now.foldl (fun s t => s.hubEvent 0x0A0A [(1, t), (2, volts)]) s
    if m.uvWarnRun = 11 || !now.isEmpty then s.abortBoot 2 else s

/-- J1_SAMPLE: the sample of one microsecond: the voltage in 10 mV units and the power in pips. -/
def execJ1Sample (volts pips : Nat) (s : State) : Host.Outcome State Fault Refusal :=
  .next (if s.mod.power == .off then { s with mod := { s.mod with coldRun := runOn (decide (4200 ≤ volts)) s.mod.coldRun, volts := [volts], pips := [pips] } }
    else
      let s := s.countRuns volts pips
      if 11 ≤ s.mod.offRun then s.enterOff
      else
        let s := s.j1Acts volts
        if s.mod.power == .standby && s.mod.islandUs % 1000 == 0 then s.uartPeriod else s)

/-- ENTER_STANDBY_FROM_OFF: J1 has stood at or above 42.0 V for 10 ms: the island performs a cold reset of every block,
samples SLOT_ID and sees to the store's marks (R98, R176). -/
def execEnterStandbyFromOff (slot : Nat) (s : State) : Host.Outcome State Fault Refusal :=
  .next (if s.mod.power != .off || s.mod.coldRun < 10001 then s
    else
      let v := s.mod.volts.headD 0
      let m := { s.mod with islandUs := 0, slotId := slot, slotSeen := slot, coldRun := 0, volts := [], pips := [] }
      let s := { s with mod := m, regs := [] }.coldReset
      let s := (s.setPower .standby 0).resetDone 1 0 0
      (s.hubEvent 0x0101 [(2, v)]).checkMarks)

/-! ### PERST# (R80, R98) -/

/-- PERST_ASSERT: a warm reset; from Ready or Run the module enters Standby. A power-loss stop that has begun goes
first. -/
def execPerstAssert (s : State) : Host.Outcome State Fault Refusal :=
  let s := { s with mod := { s.mod with perst := true } }
  .next (if s.mod.power == .off || s.mod.toStandby == some .powerLoss then s
    else if s.isUp then s.toStandby .perst else s.majorReset 2 1)

/-- PERST_DEASSERT: SLOT_ID is sampled, and the hold of R96 ends. -/
def execPerstDeassert (slot : Nat) (s : State) : Host.Outcome State Fault Refusal :=
  let hold := s.mod.powerLossHold && !s.mod.perst
  let s := { s with mod := { s.mod with perst := false, slotSeen := slot, powerLossHold := hold } }
  .next (if s.mod.power == .off then s else { s with mod := { s.mod with slotId := slot } }.showPins)

/-- SLOT_ID_COMPARE: the contacts differ from the sampled value (R81). -/
def execSlotIdCompare (slot : Nat) (s : State) : Host.Outcome State Fault Refusal :=
  let s := { s with mod := { s.mod with slotSeen := slot } }
  .next (if s.mod.power == .off || slot = s.mod.slotId then s else s.setFlag R.glbModEvent 6 true)

/-! ### FLOW_OK and BYPASS_REQ# (R106, R107, R113) -/

/-- FLOW_OK_FALL: a recognized fall: in Ready or Run a dry stop starts, and a boot is aborted. -/
def execFlowOkFall (s : State) : Host.Outcome State Fault Refusal :=
  .next (if s.mod.power == .off then s
    else
      let s := ({ s with mod := { s.mod with flowOk := false, flowHighSince := none } }.setFlag R.glbModPins 0 false).setFlag R.glbModEvent 0 true
      (s.abortBoot 1).startDry .flow)

/-- FLOW_OK_RISE: a recognized rise: a flow dry stop may end (R645), and the clock of R647 runs. -/
def execFlowOkRise (s : State) : Host.Outcome State Fault Refusal :=
  .next (if s.mod.power == .off then s
    else
      let s := { s with mod := { s.mod with flowOk := true, flowHighSince := some s.mod.islandUs } }
      ((s.setFlag R.glbModPins 0 true).setFlag R.glbModEvent 1 true).dryRise)

/-- BYPASS_REQ_ASSERT: in Ready or Run the ring departure starts. -/
def execBypassReqAssert (s : State) : Host.Outcome State Fault Refusal :=
  let s := { s with mod := { s.mod with bypassReq := true } }
  .next (if s.mod.power == .off then s
    else
      let s := (s.setFlag R.glbModPins 1 true).setFlag R.glbModEvent 7 true
      if s.isUp then s.depart .bypass else s)

/-- BYPASS_REQ_DEASSERT: the departure no longer stands (R749). -/
def execBypassReqDeassert (s : State) : Host.Outcome State Fault Refusal :=
  let s := { s with mod := { s.mod with bypassReq := false } }
  .next (if s.mod.power == .off then s else (s.setFlag R.glbModPins 1 false).endDeparture .bypass)

/-! ### Power state requests (R98 to R100) -/

/-- PSTATE_REQ_RUN: Ready to Run while FLOW_OK is high. -/
def execPstateReqRun (s : State) : Host.Outcome State Fault Refusal :=
  .next (if s.mod.power == .ready && s.mod.flowOk then
      { s with mod := { s.mod with readyReq := false } }.setPower .run 3
    else s)

/-- PSTATE_REQ_READY: from Run, once no job holds a partition (R99). -/
def execPstateReqReady (s : State) : Host.Outcome State Fault Refusal :=
  .next (if s.mod.power == .run then { s with mod := { s.mod with readyReq := true } } else s)

/-- RUN_TO_READY: no job holds a partition after a Ready request. -/
def execRunToReady (s : State) : Host.Outcome State Fault Refusal :=
  .next (s.whenSeq 8 fun s =>
    if s.mod.power == .run && s.mod.readyReq && s.jobs.holder.isEmpty then
      { s with mod := { s.mod with readyReq := false } }.setPower .ready 3
    else s)

/-! ### Dry stops -/

/-- JUNCTION_TRIP: a half reaches 115 °C (R640). A flow dry stop that runs becomes a thermal one, which enters Standby
once its snapshot is complete (R646). -/
def execJunctionTrip (half temp : Nat) (s : State) : Host.Outcome State Fault Refusal :=
  let s := s.setTemp half temp
  .next (if temp < 115 then s
    else
      let s := (s.setFlag R.pwrEvent 7 true).halfEvent half 0x0B06 [(1, half), (1, temp)]
      match s.pwr.dry with
      | some (.flow, t) =>
        let s := { s with pwr := { s.pwr with dry := some (.thermal, t), dryEnding := false } }.restStacks
        let s := s.setFld R.pwrState 14 13 2
        if s.crn.snap.isSome then { s with crn := { s.crn with thermalStandby := true } } else s.dryToStandby
      | _ => s.startDry .thermal)

/-- DRY_STOP_TIMEOUT: a flow dry stop has not ended 2 s after its start (R646). -/
def execDryStopTimeout (s : State) : Host.Outcome State Fault Refusal :=
  .next (match s.pwr.dry with
    | some (.flow, t) =>
      if !s.pwr.dryEnding && decide (t + 2000000 ≤ s.mod.islandUs) && s.mod.toStandby.isNone then s.toStandby .dryStop else s
    | _ => s)

/-! ### Converter tiles, the oscillator and the limits (R89, R90, R119, R122, R123) -/

/-- CONVERTER_TILE_FAIL: the capacity falls, and the limit in force never exceeds it. -/
def execConverterTileFail (tile : Nat) (s : State) : Host.Outcome State Fault Refusal :=
  .next (if s.mod.power == .off then s
    else
      let s := { s with mod := { s.mod with tiles := putBit s.mod.tiles (tile % 24) false } }.showConv
      let s := s.setFlag R.glbModEvent 8 true
      if s.isUp then (if s.limitNow = s.limit then s.applyLimit else (s.applyLimit.limitChanged s.limit).unleased) else s)

/-- The beacon stops: event 0x0304 and a fatal fault (R119, R906). -/
def State.beaconStops (s : State) : State :=
  if !s.rnd.running then s
  else
    let s := s.hubEvent 0x0304 [(8, s.rnd.round), (1, evCode 0x0304 0)]
    let n : Notice := { kind := 12, code := 0x0304, die := 8, unit := 0, parts := 0, round := s.rnd.round, half := 16, line := 0 }
    { s with rnd := { s.rnd with running := false } }.notice n

/-- REF_OSC_LOST: the island changes to its RC oscillator, and the beacon stops. -/
def execRefOscLost (s : State) : Host.Outcome State Fault Refusal :=
  .next (if s.mod.power == .off || s.flag R.glbOsc 1 then s
    else ((s.setReg R.glbOsc 2).setFlag R.glbModEvent 9 true).linStop.beaconStops)

/-- REF_OSC_RESTORED: the island returns to the reference; the beacon does not restart. -/
def execRefOscRestored (s : State) : Host.Outcome State Fault Refusal :=
  .next (if s.flag R.glbOsc 1 then (s.setReg R.glbOsc 1).linAllDue else s)

/-- A temperature as GLB_TEMP shows it. -/
def shownTemp (t : Int) : Nat := min 255 t.toNat

/-- A sample lies outside the Operating column of R121. -/
def State.outside (s : State) (inlet lid : Int) : Bool :=
  (match s.mod.volts with | v :: _ => v < 4000 || 6000 < v | [] => false) || inlet < 15 || 45 < inlet || lid < 10 || 70 < lid || !s.mod.flowOk

/-- LIMIT_SAMPLE: the sample of R122: outside the Operating column, limit_exc is set and condition 5 fails. -/
def execLimitSample (inlet outlet lid : Int) (s : State) : Host.Outcome State Fault Refusal :=
  .next (if s.mod.power == .off then s
    else
      let s := s.setReg R.glbTemp (shownTemp inlet + 256 * shownTemp outlet + 65536 * shownTemp lid)
      if s.isUp && s.outside inlet lid then (s.setFlag R.glbModEvent 10 true).voidAll 5 else s)

/-! ### The store's window (R116, R117) -/

/-- The word address moves on by 4 after an access. -/
def State.storeNext (s : State) : State := s.setFld R.glbStoreAddr 25 2 ((s.fld R.glbStoreAddr 25 2 + 1) % 2 ^ 24)

/-- STORE_DATA_READ: the word at GLB_STORE_ADDR; while a write is in progress, when the driver must not access it, a free
value. -/
def execStoreDataRead (s : State) : Host.Outcome State Fault Refusal :=
  let a := 4 * s.fld R.glbStoreAddr 25 2
  .next (if s.store.writing.isSome then { s.storeNext with answer := Config.freeValue s.free % 2 ^ 32 }.drawn
    else { s.storeNext with answer := Mem.readLE s.store.mem a 4 })

/-- The word a write stores while the driver must not access the window is a free value (R214). -/
def State.storeWrite (s : State) (v : Nat) : State :=
  let a := 4 * s.fld R.glbStoreAddr 25 2
  let s := s.storeNext
  if a < 0x01500000 || 0x02100000 ≤ a then s.setFlag R.glbStoreStatus 1 true
  else
    let s := match s.store.writing with
      | some (b, w) => { s with store := { s.store with mem := Mem.writeLE s.store.mem b 4 w } }
      | none => s
    if s.store.writing.isSome || s.store.promo.isSome then
      { s with store := { s.store with writing := some (a, Config.freeValue s.free % 2 ^ 32) } }.drawn.setFlag R.glbStoreStatus 0 true
    else { s with store := { s.store with writing := some (a, v) } }.setFlag R.glbStoreStatus 0 true

/-- STORE_DATA_WRITE: a word into the staging region; elsewhere prot_err. -/
def execStoreDataWrite (v : Word) (s : State) : Host.Outcome State Fault Refusal := .next (s.storeWrite v.toNat)

/-- STORE_WRITE_COMPLETE: the word stands in the store. -/
def execStoreWriteComplete (s : State) : Host.Outcome State Fault Refusal :=
  .next (match s.store.writing with
    | some (a, v) =>
      { s with store := { s.store with mem := Mem.writeLE s.store.mem a 4 v, writing := none } }.setFlag R.glbStoreStatus 0 false
    | none => s)

/-! ### Thresholds (R124, R125) -/

/-- A threshold setting is valid (R124). -/
def thrOk (v : Nat) : Bool :=
  144 ≤ bits v 15 8 && bits v 15 8 < bits v 7 0 && bits v 7 0 ≤ 176 && 232 ≤ bits v 23 16 && bits v 23 16 < bits v 31 24 &&
    bits v 31 24 ≤ 248

/-- A register of the island that takes effect at the next round boundary in Ready and Run, and at once in Standby. -/
def State.laterUp (s : State) (off v : Nat) : State := if s.isUp then s.later off v else s.applyWrite off v

/-- A write of GLB_INLIM_THR. -/
def State.writeThr (s : State) (v : Nat) : State :=
  if thrOk v then (s.laterUp R.glbInlimThr v).setFld R.glbInlim 3 0 0xF
  else s.hubEvent 0x0A08 [(4, v)]

/-- INLIM_THR_WRITE: an expert write of the thresholds. -/
def execInlimThrWrite (v : Word) (s : State) : Host.Outcome State Fault Refusal := .next (s.writeThr v.toNat)

end Sys2Proof.Machine
end

