-- ==== Sys2Proof/Machine/Readout.lean ====
section
/-! DEFINITION. Cairn and snapshot readouts to page streams and to the console (R869 to R875). -/

namespace Sys2Proof.Machine

/-- Entries of a source: those present in a cairn, or those a slot's header names. -/
def State.sourceEntries (s : State) (src : Nat) : Nat :=
  if 16 ≤ src then ((List.range 9).map (s.slotCount (src - 16))).sum else (s.cairn src).entries.length

/-- CAIRN_STREAM_READOUT: a write of CRN_STREAM_CTL with go set; ignored while a readout runs. An invalid slot gives result
5, a refused stream 3. -/
def execCairnStreamReadout (v : Word) (s : State) : Host.Outcome State Fault Refusal :=
  let n := v.toNat
  let k := bits n 5 0
  let src := bits n 12 8
  .next (s.whenRun fun s =>
    if !bit n 16 || s.crn.streamRead.isSome || (9 ≤ src && src < 16) || 24 ≤ src then s
    else
      let total := if 16 ≤ src then 0x00181000 else 64 + 32 * s.sourceEntries src
      let r : Readout := { source := src, stream := k, start := if 16 ≤ src then 0 else s.reg (R.crnCnt src), round := s.rnd.round, total := total, sent := 0, result := 0 }
      let s := (s.setReg R.crnStreamStatus 0).setFlag R.crnStreamStatus 3 true
      if 16 ≤ src && !snapValid s.store.mem (src - 16) then { s with crn := { s.crn with streamRead := some { r with total := 0, result := 5 } } }
      else
        match s.bindStream k .cairn with
        | (s, false) => { s with crn := { s.crn with streamRead := some { r with total := 0, result := 3 } } }
        | (s, true) => State.cairnPages 4096 { s with crn := { s.crn with streamRead := some r } })

/-- CAIRN_READOUT_END: the readout ends with its result, and event 0x1108 (R871). -/
def execCairnReadoutEnd (s : State) : Host.Outcome State Fault Refusal :=
  .next (s.whenRun fun s =>
    match s.crn.streamRead with
    | none => s
    | some r =>
      let res := if r.result != 0 then r.result else [0, 1, 2, 4].getD (s.stream r.stream).told 0
      if res = 0 then s
      else
        let sent := if 16 ≤ r.source then (if r.total ≤ r.sent then s.sourceEntries r.source else 0) else (r.sent - 64) / 32
        let s := (s.setFld R.crnStreamStatus 2 0 res).setFlag R.crnStreamStatus 3 false
        { s with crn := { s.crn with streamRead := none } }.hubEvent 0x1108 [(1, r.source), (1, 0), (1, res), (4, if r.result != 0 then 0 else sent)])

/-- The source that a readout command names (R872). -/
def commandSource (l : List Nat) : Option Nat :=
  let digit (c : Nat) : Option Nat := if 48 ≤ c && c ≤ 55 then some (c - 48) else none
  match l with
  | [63, 75, 72] => some 8
  | [63, 75, c] => digit c
  | [63, 75, 83, c] => (digit c).map (· + 16)
  | _ => none

/-- The received line that waits to be taken, while CRN_CON.listen is 1 and UART0 is in mode 0 or 1. -/
def State.heldLine (s : State) : Option (List Nat) :=
  if s.flag R.crnCon 0 && uartMode (s.reg (R.uCfg 0)) < 2 && s.mod.power != .off then (s.uart 0).command else none

/-- The line has been taken. -/
def State.takeLine (s : State) : State := s.setUart 0 { s.uart 0 with command := none }

/-- CRN_STREAM_STATUS as a console readout starts, and its result as one ends (R871), unless a stream readout runs, which
the register then shows (log entry 72). -/
def State.consoleStarts (s : State) : State := if s.crn.streamRead.isSome then s else s.setReg R.crnStreamStatus 0
def State.consoleResult (s : State) (res : Nat) : State :=
  if s.crn.streamRead.isSome then s else s.setFld R.crnStreamStatus 2 0 res

/-- CONSOLE_READOUT_COMMAND: a received line "?K" and a source starts a console readout; ignored while one runs. -/
def execConsoleReadoutCommand (s : State) : Host.Outcome State Fault Refusal :=
  .next (match s.heldLine.bind commandSource with
    | none => s
    | some src =>
      let s := s.takeLine
      if s.crn.consoleRead.isSome then s
      else
        let bad := 16 ≤ src && !snapValid s.store.mem (src - 16)
        let total := if bad then 0 else if 16 ≤ src then s.slotLines (src - 16) else (s.cairn src).entries.length
        let r : Readout := { source := src, stream := 0, start := if 16 ≤ src then 0 else s.reg (R.crnCnt src), round := s.rnd.round, total := total, sent := 0, result := if bad then 5 else 1 }
        ({ s.consoleStarts with crn := { s.crn with consoleRead := some r } }.setFlag R.crnCon 1 true).uartLoad 0)

/-- The readout's end: its end line stands to be sent, and event 0x1108 (R871, R873). -/
def State.endConsole (s : State) (r : Readout) (res : Nat) : State :=
  let line := chars "K" ++ srcName r.source ++ chars " END " ++ hexDigits 4 (r.sent % 65536) ++ [13, 10]
  let entries := if 16 ≤ r.source then r.sent - 8 else r.sent
  let s := { (s.consoleResult res) with crn := { s.crn with consoleRead := none, conText := s.crn.conText ++ line } }.setFlag R.crnCon 1 false
  (s.hubEvent 0x1108 [(1, r.source), (1, 1), (1, res), (4, entries)]).uartLoad 0

/-- CONSOLE_READOUT_STOP: a received line "?KX" ends the running readout; the result that event 0x1108 then gives is open
(log entry 59). -/
def execConsoleReadoutStop (s : State) : Host.Outcome State Fault Refusal :=
  .next (match s.heldLine with
    | some [63, 75, 88] =>
      let s := s.takeLine
      match s.crn.consoleRead with
      | some r => s.drawn.endConsole r (Config.freeValue s.free % 256)
      | none => s
    | _ => s)

/-- CONSOLE_READOUT_END: every line has been sent: the end line, and event 0x1108. -/
def execConsoleReadoutEnd (s : State) : Host.Outcome State Fault Refusal :=
  .next (match s.crn.consoleRead with
    | some r => if r.total ≤ r.sent && s.crn.conText == [] then s.endConsole r r.result else s
    | none => s)

end Sys2Proof.Machine
end

