-- ==== Sys2Proof/Machine/Views.lean ====
section
/-! DEFINITION. What a read of a BAR0 register returns: the register file, with the fields that show other state put in,
and the reads that have effects of their own (R6, R14, R116, R175, R816, R868, R910, R915). -/

namespace Sys2Proof.Machine

/-- The mean of measured values, rounded to either side: the manual does not say how (log entry 69). -/
def State.mean (s : State) (l : List Nat) : Nat :=
  if l.isEmpty then Config.freeValue s.free else (l.sum + Config.freeValue s.free % l.length) / l.length

/-- Word `k` of a number shown in consecutive registers. -/
def wordPart (n k : Nat) : Nat := n / 2 ^ (32 * k) % 2 ^ 32

/-- GLB: identity, the pins and the measured J1 values. -/
def State.viewGlb (s : State) (r v : Nat) : Nat :=
  if r = 0x8 then wordPart s.serial 0
  else if r = 0xC then wordPart s.serial 1
  else if 0x100 ≤ r && r < 0x130 then leVal ((s.fuse.keyDigest.drop (r - 0x100)).take 4)
  else if r = 0x200 then putBit v 9 (!s.alertLevel)
  else if r = 0x214 then s.mean s.mod.volts % 2 ^ 16
  else if r = 0x218 then s.mean s.mod.pips % 2 ^ 14
  else v

/-- The changed partitions of the old image that are held or idle while a swap runs. -/
def State.heldMask (s : State) : Nat :=
  match s.img.swap with
  | some w => if w.live then maskOf ((List.range 16).filter fun p => s.oldRests w p) else 0
  | none => 0

/-- IMG: the committed and the pending image. -/
def State.viewImg (s : State) (r v : Nat) : Nat :=
  let ident (i : Option Image) (k : Nat) : Nat := match i with | some im => wordPart im.id k | none => 0
  if r = 0x20 then ident s.img.committed 0
  else if r = 0x24 then ident s.img.committed 1
  else if r = 0x28 then ident s.img.pending 0
  else if r = 0x2C then ident s.img.pending 1
  else if r = 0x34 then s.heldMask
  else
    match s.img.committed with
    | none => v
    | some im =>
      if r = 0x3C then im.version % 4 + 4 * im.maxCount.toNat + 8 * (im.parts.length % 32) + 65536 * (im.ucodeLevel % 65536)
      else if 0x100 ≤ r && r < 0x180 then
        match im.parts.find? fun p => p.part == (r - 0x100) / 8 with
        | none => 0
        | some p =>
          if (r - 0x100) % 8 = 4 then p.digest % 2 ^ 32
          else maskOf p.halves % 2 ^ 16 + 2 ^ 16 * (p.budget % 2 ^ 12) + (if bit s.img.absent p.part then 0 else 2 ^ 31)
      else v

/-- CHN: the channel that CHN_SEL names. -/
def State.viewChn (s : State) (r v : Nat) : Nat :=
  let c := s.fld R.chnSel 11 0
  let x := s.chan c
  if r = 0x24 then
    x.st.code + 8 * ((s.jobsWhere fun j => j.channel == c).length % 2 ^ 13) + 2 ^ 16 * (x.nextSeq % 2 ^ 16)
  else if r = 0x28 then x.head % 2 ^ 32
  else if r = 0x2C then x.tail % 2 ^ 32
  else if r = 0x30 then x.posted % 2 ^ 32
  else if r = 0x34 then x.cqHead % 2 ^ 32
  else v

/-- JOB: entries in use, and the partitions' holders. A partition is held for a shift change while the swap runs, it is
changed and has not opened again. -/
def State.viewJob (s : State) (r v : Nat) : Nat :=
  if r = 0x10 then s.jobs.jobs.length % 2 ^ 13 + 2 ^ 16 * ((s.jobsWhere fun x => x.st == .deferred).length % 2 ^ 13)
  else if 0x100 ≤ r && r < 0x140 then
    let p := (r - 0x100) / 4
    match s.holderOf p with
    | some j => j % 2 ^ 12 + 2 ^ 12 * ((match s.job? j with | some x => x.prio | none => 0) % 4) + 2 ^ 14
    | none =>
      match s.img.swap with
      | some w => if w.live && bit w.changed p && !bit w.opened p then 2 ^ 15 else 0
      | none => 0
  else v

/-- The valid snapshot with the highest number: slot and number. -/
def State.newestSnapshot (s : State) : Option (Nat × Nat) :=
  (validSlots s.store.mem).foldl (fun b i =>
    match b with
    | some q => if q.2 < snapNumber s.store.mem i then some (i, snapNumber s.store.mem i) else b
    | none => some (i, snapNumber s.store.mem i)) none

/-- CRN: valid snapshots (R923). -/
def State.viewCrn (s : State) (r v : Nat) : Nat :=
  if r = 0x10 then
    match s.newestSnapshot with
    | some q => v % 4 + 4 * (q.1 % 8) + 2 ^ 8 * (q.2 % 2 ^ 24)
    | none => v % 4
  else if r = 0x18 then maskOf (validSlots s.store.mem)
  else v

/-- A UART's fill levels and whether a character is in progress; a received character is one command, so none stands in
progress between commands. -/
def State.viewUart (s : State) (u r v : Nat) : Nat :=
  if r = 0xC then
    (s.uart u).rx.length % 128 + 2 ^ 8 * ((s.uart u).tx.length % 128) + 2 ^ 16 * ((s.uart u).shift.isSome || (u == 1 && s.ser.frame.isSome)).toNat
  else v

/-- TRN_STATUS: how the pass stands. -/
def State.viewTrn (s : State) (r v : Nat) : Nat :=
  if r = 0xC then
    match s.trn.pass with
    | none => 0
    | some p =>
      (if s.pwr.halted || s.flag R.fltStatus 0 then 4 else if p.leaveSince.isSome || (p.pips != 0 && !p.granted) then 2
       else if p.slotSince.isSome then 3 else 1) +
        8 * (p.queue % 4) + 2 ^ 5 * (p.layer % 64) + 2 ^ 11 * (p.tiles % 2 ^ 21)
  else v

/-- SEQ_QUEUE: commands queued and events latched. The peaks' SEQ_SEL and SEQ_CFG read the hub's values (R679). -/
def State.viewSeq (s : State) (d r v : Nat) : Nat :=
  if r = 0x10 then s.reg (R.seqSel 8)
  else if r = 0x14 then s.reg (R.seqCfg 8)
  else if r = 0x34 then min 255 (s.seqSt d).queue.length + 2 ^ 8 * s.seqEvents d
  else if d = 8 && 0x220 ≤ r && r < 0x230 then leVal ((s.flt.latched.drop (r - 0x220)).take 4)
  else v

/-- RND: the round and the turn, and the turn-table entry that RND_TT_ADDR names. -/
def State.viewRnd (s : State) (r v : Nat) : Nat :=
  if r = 0x0 then s.rnd.round % 2 ^ 32
  else if r = 0x4 then s.rnd.latchedHi
  else if r = 0x8 then s.rnd.turn % 128 + 2 ^ 31 * s.rnd.running.toNat
  else if r = 0x18 then
    s.ttEntry (s.fld R.rndTtAddr 16 16) (s.fld R.rndTtAddr 14 12) (s.fld R.rndTtAddr 11 7) (s.fld R.rndTtAddr 15 15)
      (s.fld R.rndTtAddr 6 0)
  else v

/-- The ceiling of physical core `k` of half `h` in 10 M steps/s; 0 for a core fused bad. -/
def State.coreCeil (s : State) (h k : Nat) : Nat :=
  if bit (Map.getD s.fuse.coreBad h 0) k then 0 else Map.getD s.fuse.coreCeil (coreKey h k) 150

/-- The cores of a half: groups resident and stopped, fused cores and ceilings. -/
def State.viewHalf (s : State) (h r v : Nat) : Nat :=
  if 0x4 ≤ r && r < 0x10 then wordPart (Map.getD s.fuse.coreBad h 0 % 2 ^ 72) ((r - 4) / 4)
  else if r = 0x34 then putBits v 12 0 (s.groupsOf h).length
  else if 0x200 ≤ r && r < 0x248 then leVal ((List.range 4).map fun j => s.coreCeil h (r - 0x200 + j))
  else if r = 0x32C then putBits v 12 0 (s.stoppedOf h).length
  else v

/-- UC of a half: a cleanse that runs (R251), open transactions and the arbiter's entries, and the stack's temperature,
which its readout gives (log entry 69). A scrub pass is one command. -/
def State.viewUc (s : State) (h r v : Nat) : Nat :=
  if r = 0x8 then
    putBit v 1 (match s.img.swap with | some w => w.live && w.cleansedPeaks != 0 && !w.cleansed | none => false)
  else if h % 2 = 0 && r = 0x44 then Config.freeValue s.free % 256
  else if r = 0x88 then
    min 255 (s.mem.txns.filter fun q => q.2.home == h).length + 2 ^ 8 * min 63 (s.entries h 0) + 2 ^ 14 * min 63 (s.entries h 1) +
      2 ^ 20 * min 31 (s.entries h 2) + 2 ^ 25 * min 15 (s.entries h 3)
  else v

/-- The fields of the register file with those that show other state. -/
def State.viewReg (s : State) (a : Nat) : Nat :=
  let v := s.reg a
  match blockAt a with
  | some (.glb, _, r) => s.viewGlb r v
  | some (.img, _, r) => s.viewImg r v
  | some (.chn, _, r) => s.viewChn r v
  | some (.job, _, r) => s.viewJob r v
  | some (.crn, _, r) => s.viewCrn r v
  | some (.uart, u, r) => s.viewUart u r v
  | some (.trn, _, r) => s.viewTrn r v
  | some (.seq, d, r) => s.viewSeq d r v
  | some (.rnd, _, r) => s.viewRnd r v
  | some (.corHalf, h, r) => s.viewHalf h r v
  | some (.mxa, h, r) => if r = 0xC then Map.getD s.fuse.arrayCeil h 140 else v
  | some (.uc, h, r) => s.viewUc h r v
  | _ => v

/-- The bits of a register that a read returns: all but write-only and reserved ones. -/
def RegRow.readable (q : RegRow) : Nat := q.rw + q.rwl + q.w1c + q.ro

/-- The peak whose blocks an offset lies in (R915). -/
def peakOf (a : Nat) : Option Nat :=
  if 0x01000000 ≤ a && a < 0x01800000 then some ((a - 0x01000000) / 0x100000) else none

/-- An offset lies in the blocks of a peak that is not up (R915). -/
def State.peakDown (s : State) (a : Nat) : Bool := match peakOf a with | some n => !s.dieOn n | none => false

/-- The state a meaning answers. -/
def nextOf (s : State) (o : Host.Outcome State Fault Refusal) : State := match o with | .next t => t | _ => s

/-- A read whose effects have a command of their own, as that command does it. -/
def State.readEffect (s : State) (a : Nat) : Option (Host.Outcome State Fault Refusal) :=
  if a = R.glbStoreData then some (execStoreDataRead s)
  else if a = R.rndRoundLo then some (execRoundLoRead s)
  else if a = R.crnRdData 0 then some (execCairnRdLatch s)
  else if a = R.uData 0 then some (execUartDataRead 0 s)
  else if a = R.uData 1 then some (execUartDataRead 1 s)
  else if a = R.fltRec 0 then some (execFaultRecordPop s)
  else none

/-- A register shows a measured value that the spec gives no number for: the read draws a free value. -/
def measured (a : Nat) : Bool :=
  a == R.glbInputV || a == R.glbInputP || ((List.range 8).any fun n => a == R.ucHbmTemp n)

/-- A 32-bit read at an offset: the value stands in `answer`. An unassigned offset (R14) and a peak that is not up (R915)
read 0. -/
def State.readReg (s : State) (a : Nat) : State :=
  match regRow a with
  | none => { s with answer := 0 }
  | some q =>
    if s.peakDown a then { s with answer := 0 }
    else
      match s.readEffect a with
      | some o => nextOf s o
      | none =>
        let t := { s with answer := (s.viewReg a).land q.readable }
        if measured a then t.drawn else t

end Sys2Proof.Machine
end

