-- ==== Sys2Proof/Machine/Micro.lean ====
section
/-! DEFINITION. Microwords: fetching, the actions of a word, and next-address formation (R653 to R662). A word's
conditions and sources are read before its actions (log entry 54). -/

namespace Sys2Proof.Machine

/-! ### Fetching -/

/-- The 144 bits that a control store address holds: a ROM word with its check bits, or a word of the active bank. A word
of a bank that no patch wrote is all zeros (log entry 64). -/
def State.storeWord (s : State) (d a : Nat) : Nat :=
  if a < 0x1000 then eccEncode (Config.romWord (d == 8) a)
  else Map.getD (s.seqSt d).ram ((s.flag (R.seqVersion d) 24).toNat * 4096 + (a - 0x1000)) 0

/-- The word at a sequencer's address with the bits of `flips` inverted: corrected with SEQ_ECC and event 0x0C04 where one
bit is wrong, none where two are (R656). -/
def State.fetchWord (s : State) (d : Nat) (flips : List Nat) : State × Option MicroWord :=
  let w := flips.foldl (fun w i => if i < 144 then putBit w i (!bit w i) else w) (s.storeWord d (s.uaddr d))
  match eccCheck w with
  | .good w => (s, some (MicroWord.ofNat w))
  | .corrected w => ((s.addFld (R.seqEcc d) 15 0 1).seqEvent d 0x0C04 [(1, d), (2, s.uaddr d)], some (MicroWord.ofNat w))
  | .bad => (s, none)

/-! ### Conditions, sources and destinations (R657) -/

/-- The value of a condition. -/
def State.microCond (s : State) (d k : Nat) : Bool :=
  let x := s.seqSt d
  match k with
  | 0 => false
  | 1 => true
  | 2 => x.zero
  | 3 => x.neg
  | 4 => x.carry
  | 5 => x.cnt == 0
  | 6 => x.busDone
  | 7 => !x.inbox.isEmpty
  | 8 => x.msgTaken
  | 9 => x.queue.isEmpty
  | 10 => x.beganRound < s.rnd.round
  | 11 => x.leave
  | 12 => x.stack.length == 4
  | k => bit (x.cmd.headD 0) (k - 32)

/-- The value of a source. -/
def State.microSource (s : State) (d lit k : Nat) : Nat :=
  let x := s.seqSt d
  if k < 16 then Map.getD x.scratch k 0
  else if k = 16 then lit
  else if k = 17 then x.bus
  else if k = 18 then x.cnt
  else if k < 23 then x.cmd.getD (k - 19) 0
  else if k < 27 then x.msgIn.getD (k - 23) 0
  else if k = 27 then s.rnd.round % 2 ^ 32
  else if k = 28 then s.rnd.turn
  else 0

/-- A result written to a destination; the counter keeps 16 bits. -/
def SeqSt.put (x : SeqSt) (k v : Nat) : SeqSt :=
  if k < 16 then { x with scratch := Map.set x.scratch k v }
  else if k = 16 then { x with cnt := v % 2 ^ 16 }
  else if k < 21 then { x with msgOut := (padTo 4 x.msgOut).set (k - 17) v }
  else if k = 21 then { x with result := v }
  else x

/-- The ALU: the result and the carry. Only addition's carry is stated, and a shift by 32 or more states no result:
those values are free (log entry 54). -/
def microAlu (op a b free : Nat) : Nat × Bool :=
  let open_ := Config.freeValue free
  let c := open_ % 2 == 1
  let shift (v : Nat) : Nat := if b < 32 then v % 2 ^ 32 else open_ / 2 % 2 ^ 32
  match op with
  | 0 => (a, c)
  | 1 => ((a + b) % 2 ^ 32, decide (2 ^ 32 ≤ a + b))
  | 2 => ((a + (2 ^ 32 - b)) % 2 ^ 32, c)
  | 3 => (a.land b, c)
  | 4 => (a.lor b, c)
  | 5 => (a.xor b, c)
  | 6 => (shift (a * 2 ^ (b % 32)), c)
  | 7 => (shift (a / 2 ^ (b % 32)), c)
  | 8 => (min a b, c)
  | 9 => (max a b, c)
  | _ => ((a + (2 ^ 32 - b)) % 2 ^ 32, c)

/-- The ALU action: a compare writes flags alone. -/
def State.microAluDo (s : State) (d : Nat) (m : MicroWord) : State × Nat :=
  let r := microAlu m.aluOp (s.microSource d m.lit m.aluA) (s.microSource d m.lit m.aluB) s.free
  let x := s.seqSt d
  let x := if m.aluOp = 10 then x else x.put m.aluD r.1
  let x := if m.flagsWe then { x with zero := r.1 == 0, neg := bit r.1 31, carry := r.2 } else x
  ((s.setSeq d x).drawn, r.1)

/-! ### The bus -/

/-- The BAR0 offset of a unit's register: the hub's blocks in BAR0 order, or the peak's own in offset order; none past the
end of a half's block. -/
def microReg (d unit off : Nat) : Option Nat :=
  if d = 8 then some (unit * 0x10000 + off)
  else
    let base := 0x01000000 + d * 0x100000
    match unit - 0x10 with
    | 0 => some (base + off)
    | 1 => some (base + 0x10000 + off)
    | 2 => if off < 0x8000 then some (base + 0x20000 + off) else none
    | 3 => if off < 0x8000 then some (base + 0x28000 + off) else none
    | 4 => if off < 0x8000 then some (base + 0x30000 + off) else none
    | 5 => if off < 0x8000 then some (base + 0x38000 + off) else none
    | k => some (base + (k - 2) * 0x10000 + off)

/-- The address of a memory-port access: {s15, s14} + bus_addr. -/
def State.portAddr (s : State) (d : Nat) (m : MicroWord) : Nat :=
  ((s.microSource d 0 15) * 2 ^ 32 + s.microSource d 0 14 + m.busAddr) % 2 ^ 64

/-- A read that no data answers returns a free value (log entry 53). -/
def State.busFree (s : State) (d : Nat) : State := (s.seqData d (Config.freeValue s.free)).drawn

/-- The word of a memory port waits for a host or a ring peer. -/
def State.busWaits (s : State) (d : Nat) : State := s.setSeq d { s.seqSt d with busDone := false }

/-- A memory-port read: HBM (a poisoned line is a fault of cause 4, R899), the system window, a ring window. -/
def State.portRead (s : State) (d a : Nat) : State :=
  if s.inHbm a then
    if s.poisoned a 4 then s.seqFault d 4 else s.seqData d (leVal (s.deviceBytes a 4))
  else if inSwm a then
    match s.swmLookup a false with
    | (s, .ok port func pasid h) =>
      (s.hostAsk { who := .seq d (a % 128), port := port, func := func, pasid := pasid, addr := h, len := 4 }).busWaits d
    | (s, hit) => (s.windowFail 32 hit ((a - swmLo) / 65536)).busFree d
  else
    match ringOf a with
    | none => s.busFree d
    | some (m, o) =>
      let dev := s.fld R.rngIn 8 0 * 2 ^ 30 + o
      if m = s.myId && s.rng.switchesOpen then
        if o < s.fld R.rngIn 24 16 * 2 ^ 30 && s.inHbm dev && s.flag R.rngIn 28 then
          (if s.poisoned dev 4 then s.seqFault d 4 else s.seqData d (leVal (s.deviceBytes dev 4)))
        else (s.lostCount m 1).busFree d
      else if !s.inMap m || s.rng.duplicate then (s.lostCount m 3).busFree d
      else
        (s.ringAsk (.seq d (a % 128)) { RPkt.mk0 .get s.myId m s.myInc (s.mapInc m) (o / 128 * 128) with
          mask := sectorBit a }).busWaits d

/-- A memory-port write of a word. -/
def State.portWrite (s : State) (d a v : Nat) : State :=
  match ringOf a with
  | none => s.hubWrite a (leBytes 4 v)
  | some (m, o) =>
    let dev := s.fld R.rngIn 8 0 * 2 ^ 30 + o
    if m = s.myId && s.rng.switchesOpen then
      if o < s.fld R.rngIn 24 16 * 2 ^ 30 && s.inHbm dev && s.flag R.rngIn 29 then s.hubWrite dev (leBytes 4 v)
      else s.lostCount m 1
    else if !s.inMap m || s.rng.duplicate then s.lostCount m 3
    else
      s.ringAsk (.seq d (a % 128)) { RPkt.mk0 .put s.myId m s.myInc (s.mapInc m) (o / 128 * 128) with
        mask := sectorBit a, bytes := 15 * 2 ^ (a % 128), data := linePut 0 (a % 128) 4 v }

/-- Every assigned bit of a register. -/
def RegRow.all (q : RegRow) : Nat := q.rw + q.rwl + q.w1c + q.wo + q.ro

/-- The bus action: a register read with its effects, a register written with the value as it stands (log entry 54), or
the memory port. -/
def State.microBus (s : State) (d : Nat) (m : MicroWord) (r : Nat) : State :=
  if m.busOp = 0 then s
  else if m.busUnit = 0x20 then
    if m.busOp = 1 then s.portRead d (s.portAddr d m) else s.portWrite d (s.portAddr d m) r
  else
    match microReg d m.busUnit m.busAddr with
    | none => if m.busOp = 1 then s.seqData d 0 else s
    | some a =>
      if m.busOp = 1 then
        let t := s.readReg a
        { t with answer := s.answer }.seqData d t.answer
      else
        match regRow a with
        | some q => if s.peakDown a then s else s.setReg a (r.land q.all)
        | none => s

/-! ### Messages, the counter and the trace -/

/-- A message from msg-out to a sequencer that is up. -/
def State.sendSeq (s : State) (words : List Nat) (e : Nat) : State :=
  if s.dieOn e then s.setSeq e { s.seqSt e with inbox := (s.seqSt e).inbox ++ [padTo 4 words] } else s

/-- The message action. A take with nothing waiting changes nothing. -/
def State.microMsg (s : State) (d : Nat) (m : MicroWord) : State :=
  if m.msgOp = 1 then
    let w := (s.seqSt d).msgOut
    let s := if m.msgDst = 9 then (List.range 8).foldl (fun s e => s.sendSeq w e) s else s.sendSeq w m.msgDst
    s.setSeq d { s.seqSt d with msgTaken := true }
  else if m.msgOp = 2 then
    match (s.seqSt d).inbox with
    | [] => s
    | w :: ws => s.setSeq d { s.seqSt d with inbox := ws, msgIn := w }
  else s

/-- The counter action; what a counter at 0 counts down to is free (log entry 54). -/
def State.microCnt (s : State) (d : Nat) (m : MicroWord) : State :=
  let x := s.seqSt d
  if m.cntOp = 1 then s.setSeq d { x with cnt := m.lit % 2 ^ 16 }
  else if m.cntOp = 2 then
    if x.cnt = 0 then (s.setSeq d { x with cnt := Config.freeValue s.free % 2 ^ 16 }).drawn
    else s.setSeq d { x with cnt := x.cnt - 1 }
  else s

/-- The trace action: event 0x0C01 at trace level 1 or 2, with s0. -/
def State.microTrace (s : State) (d : Nat) (m : MicroWord) : State :=
  if m.trace = 1 && s.traceLevel != 0 then
    s.seqEvent d 0x0C01 [(1, d), (2, s.uaddr d), (1, (s.flag (R.seqVersion d) 24).toNat), (2, s.fld (R.seqVersion d) 15 0),
      (4, s.microSource d 0 0)]
  else s

/-! ### The next address (R659, R660) -/

/-- The next word is fetched at an address. -/
def State.goTo (s : State) (d a : Nat) : State := (s.setFld (R.seqState d) 12 0 (s.hooked d (a % 2 ^ 13))).setPhase d 1

/-- Next-address formation. -/
def State.microNext (s : State) (d : Nat) (m : MicroWord) (c0 c1 : Bool) : State :=
  let x := s.seqSt d
  let c := c0.toNat + 2 * c1.toNat
  match m.nxMode with
  | 0 => s.goTo d (m.nxBase.lor c)
  | 1 => s.goTo d ((m.nxBase.lor (x.cmd.headD 0 % 64 * 4)).lor c)
  | 2 =>
    if 4 ≤ x.stack.length then s.seqFault d 3
    else (s.setSeq d { x with stack := m.lit % 2 ^ 13 :: x.stack }).goTo d (m.nxBase.lor c)
  | 3 =>
    match x.stack with
    | [] => s.seqFault d 3
    | r :: rs => (s.setSeq d { x with stack := rs }).goTo d (r.lor c)
  | _ => s.endCmd d

/-! ### One word -/

/-- A word's actions, in the order of R661, and its next address; a fault of its memory port ends it. -/
def State.microDo (s : State) (d : Nat) (m : MicroWord) (c0 c1 : Bool) : State :=
  let r := s.microAluDo d m
  let s := r.1.microBus d m r.2
  if s.seqPhase d = 5 then s else (((s.microMsg d m).microCnt d m).microTrace d m).microNext d m c0 c1

/-- A word begins to wait in its hold; a wait for a host or a ring peer is not counted (R667). -/
def State.holdWord (s : State) (d : Nat) : State :=
  let x := s.seqSt d
  (s.setSeq d { x with outside := !x.busDone, haltedAt := s.absTurn }).setPhase d 2

/-- MICROWORD_EXECUTE: a running sequencer fetches its word; one with a reserved value is a fault of cause 4, one that
cannot be corrected a fault of cause 2; a hold word whose condition is false waits (R656, R658, R659, R661). -/
def execMicrowordExecute (seq : Nat) (flips : List Nat) (s : State) : Host.Outcome State Fault Refusal :=
  .next (if seq < 9 && s.seqGoes seq && s.seqPhase seq = 1 then
      match s.fetchWord seq flips with
      | (s, none) => s.seqFault seq 2
      | (s, some m) =>
        if !m.ok (seq == 8) then s.seqFault seq 4
        else
          let c0 := s.microCond seq m.nxC0
          if m.hold && !c0 then s.holdWord seq else s.microDo seq m c0 (s.microCond seq m.nxC1)
    else s)

/-- HOLD_RELEASE: the condition of a waiting hold word has become true: the word acts once, with c0 as 1 (R661). -/
def execHoldRelease (seq : Nat) (s : State) : Host.Outcome State Fault Refusal :=
  .next (if seq < 9 && s.seqGoes seq && s.seqPhase seq = 2 then
      match s.fetchWord seq [] with
      | (_, none) => s
      | (_, some m) =>
        if !s.microCond seq m.nxC0 then s
        else
          let x := s.seqSt seq
          let n := if x.outside then s.absTurn - x.haltedAt else 0
          let s := s.setSeq seq { x with outside := false, skipped := x.skipped + n }
          s.microDo seq m true (s.microCond seq m.nxC1)
    else s)

end Sys2Proof.Machine
end

