-- ==== Sys2Proof/Machine/Bar0.lean ====
section
/-! DEFINITION. Writes of BAR0: what a register's write does, the staged low halves, selectors and expert registers, and
who may write (R4 to R14, R37 to R42, R696, R839, R914 to R918). A write whose register has a command of its own does what
that command's meaning does. -/

namespace Sys2Proof.Machine

/-! ### Plain registers -/

/-- `v` with the bits of `m` from `w`. -/
def blend (m v w : Nat) : Nat := (v - v.land m) + w.land m

/-- A write of a register by its access types (R8, R12): RW fields are set, W1C bits written 1 are cleared, RO and WO
fields store nothing; RWL fields are as RW until an image is committed, and then ignored with event 0x0201 (R10). -/
def State.plainWrite (s : State) (a : Nat) (q : RegRow) (v : Nat) : State :=
  let w := blend q.rw (s.reg a) v
  let w := w - w.land (q.w1c.land v)
  if q.rwl = 0 then s.setReg a w
  else if s.locked then (s.setReg a w).rwlIgnored a
  else s.setReg a (blend q.rwl w v)

/-! ### Selectors and expert registers -/

/-- The value that an expert write sets, with the manual's limits on each register; none where the write is ignored. -/
def State.expertValue (s : State) (a v : Nat) : Option Nat :=
  if a = R.seqCfg 8 then
    let v := putBits v 11 0 (max 512 (bits v 11 0))
    some (if bits v 13 12 = 3 then putBits v 13 12 (s.fld a 13 12) else v)
  else if a = R.hptPortCfg 0 || a = R.hptPortCfg 1 then some (if bits v 2 1 = 3 then putBits v 2 1 (s.fld a 2 1) else v)
  else if a = R.pwrCfg then
    if 2 ≤ bits v 3 0 && 1 ≤ bits v 11 4 && 96 ≤ bits v 27 20 && bits v 27 20 ≤ 110 && 80 ≤ bits v 19 12 &&
        bits v 19 12 < bits v 27 20 then some v else none
  else if a = R.crnClass then some (v ||| 0x60802)
  else
    match blockAt a with
    | some (.uc, _, 0x4) => some (putBits v 3 0 (min 8 (bits v 3 0)))
    | some (.uc, _, 0x84) => some (putBits v 3 0 (max 1 (bits v 3 0)))
    | some (.uc, _, 0xC4) => some (putBits v 3 1 (min 4 (max 1 (bits v 3 1))))
    | _ => some v

/-- The registers of the host ports that the store keeps (R728). -/
def State.keepPort (s : State) (l : List (Nat × Nat)) : State :=
  { s with store := { s.store with hostCfg := l.foldl (fun t q => Map.set t q.1 q.2) s.store.hostCfg } }

/-- A setting chosen for a function. What it loads applies together at the next round boundary (R38); all ones and values
with no setting are ignored (R40). A ring setting starts or ends a departure as a write of RNG_CFG.enable does, and the
ports' settings are kept in the store. -/
def State.selectWrite (s : State) (a : Nat) (g : SelGroup) (i k : Nat) : State :=
  match s.stock g i k with
  | none => s
  | some l =>
    let s := if g = .inlim then s.laterUp a k else s.later a k
    match g with
    | .hpt => s.keepPort ((a, k) :: l)
    | .rng => if k = 0 then (if s.rng.switchesOpen then s.depart .cfg else s) else s.endDeparture .cfg
    | .uc => if s.rnd.running then s else s.trimGuests i
    | _ => s

/-- An expert register written: it applies at the next round boundary after any selection (R41), and the selector reads
custom (R39). -/
def State.expertWrite (s : State) (a : Nat) (q : RegRow) (i v : Nat) : State :=
  match s.expertValue a (v.land q.rw) with
  | none => s.hubEvent 0x0A09 [(4, a), (4, v)]
  | some w =>
    let s := s.later a w
    let s := (sitesOf q.group i).foldl (fun s j => match selectorOf q.group j with | some b => s.setReg b 0xF | none => s) s
    match q.group with
    | .hpt => s.keepPort [(a, w), (R.hptSel, 0xF)]
    | .uc => if s.rnd.running then s else s.trimGuests i
    | _ => s

/-- A write of a function's selector or expert register; RNG_CFG, PWR_LIMIT, GLB_INLIM_THR and the registers of the image,
the turn tables and the UARTs have commands of their own. The peaks' SEQ_SEL and SEQ_CFG are ignored (R679), and PWR_SEL
while a swap runs (R622). -/
def State.groupWrite (s : State) (a : Nat) (q : RegRow) (i v : Nat) : State :=
  if q.group = .seq && i != 8 then s
  else if q.expert then s.expertWrite a q i v
  else if q.group = .pwr && s.inSwap then s.hubEvent 0x0A09 [(4, a), (4, v)]
  else s.selectWrite a q.group i (v % 16)

/-! ### Pairs (R7) -/

/-- The low half of a pair whose halves software writes. -/
def isLo (b : Block) (r : Nat) : Bool :=
  match b with
  | .img => r == 0x8
  | .chn => r == 0x0 || r == 0x100
  | .job => r == 0x8
  | .hpt => r == 0x30 || (0xB00 ≤ r && r < 0xC00 && (r % 32 == 0 || r % 32 == 8))
  | .pst => r == 0x0
  | .rng => r == 0x204 || (0x2000 ≤ r && r < 0x2200 && (r % 64 == 0 || r % 64 == 8 || r % 64 == 0x20))
  | .trn => 0x100 ≤ r && r < 0x180 && r % 32 == 0
  | .fpl => r == 0x18
  | .uart => 0x140 ≤ r && r < 0x180 && r % 8 == 0
  | _ => false

/-- A low half is held (R7); `k` tells the doorbell pairs of the functions apart. -/
def State.stage (s : State) (k v : Nat) : State := { s with staged := Map.set s.staged k (BitVec.ofNat 32 v) }

/-- The staged low half: the low half in force where none is held. -/
def State.stagedOf (s : State) (k old : Nat) : Nat := match Map.get? s.staged k with | some w => w.toNat | none => old

/-- Nothing is held any more. -/
def State.unstage (s : State) (k : Nat) : State := { s with staged := Map.erase s.staged k }

/-- The pair at `lo` takes its staged low half and a high half. -/
def State.pairWrite (s : State) (lo v : Nat) : State :=
  match regRow lo, regRow (lo + 4) with
  | some q, some p =>
    ((s.setReg lo (blend q.rw (s.reg lo) (s.stagedOf lo (s.reg lo)))).setReg (lo + 4) (blend p.rw (s.reg (lo + 4)) v)).unstage lo
  | _, _ => s

/-- Key of the staged doorbell value of a function. -/
def bellKey (port func : Nat) : Nat := 2 ^ 32 * (1 + funcKey port func) + R.chnDbLo

/-- A doorbell of a function: CHN_DB_HI with the staged value (R572). -/
def State.bellWrite (s : State) (port func v : Nat) : State :=
  let x := s.stagedOf (bellKey port func) 0
  if bit v 12 then nextOf s (execDoorbellCqHead port func (bits v 11 0) x s)
  else nextOf s (execDoorbellTail port func (bits v 11 0) x s)

/-- LIN_DATA of a subscribe slot is read-only. -/
def State.pairOpen (s : State) (b : Block) (r : Nat) : Bool :=
  !(b == .uart && !s.flag (R.linSlot ((r - 0x140) / 8)) 10)

/-! ### Registers with an effect of their own -/

/-- GLB_RESET: a kind out of range is refused (R217). -/
def State.resetWrite (s : State) (v : Nat) : State :=
  let key := bits v 31 16
  let t := bits v 14 8
  match bits v 2 0 with
  | 1 => nextOf s (execResetCold key s)
  | 2 => nextOf s (execResetWarm key s)
  | 3 => nextOf s (execResetPartition key t s)
  | 4 => nextOf s (execResetFunctionLevel key t (bits v 15 15) s)
  | 5 => nextOf s (execResetSequencer key t s)
  | k => s.hubEvent 0x0110 [(1, k), (1, t), (1, 2), (1, 1)]

/-- GLB. -/
def State.writeGlb (s : State) (r v : Nat) (w : Word) : Option State :=
  if r = 0x40 then some (s.resetWrite v)
  else if r = 0xC0 then
    some (match bits v 1 0 with
      | 1 => nextOf s (execPromoteFirmware s)
      | 2 => nextOf s (execPromoteMicrocode s)
      | 3 => nextOf s (execPromoteImage (bits v 11 4) s)
      | _ => s)
  else if r = 0x210 then
    some (match bits v 1 0 with
      | 2 => nextOf s (execPstateReqReady s)
      | 3 => nextOf s (execPstateReqRun s)
      | _ => s)
  else if r = 0x224 then some (nextOf s (execInlimThrWrite w s))
  else if r = 0x244 then some (nextOf s (execStoreDataWrite w s))
  else none

/-- IMG. -/
def State.writeImg (s : State) (r v : Nat) (w : Word) : Option State :=
  if r = 0x0 then some (nextOf s (execImageSelWrite w s))
  else if r = 0x4 then some (if bit v 0 then nextOf s (execImageLoad (bits v 1 1) (bits v 7 4) s) else s)
  else if r = 0x14 then some (nextOf s (execImageCommit (bits v 31 16) s))
  else if r = 0x1C then some (s.setReg R.imgShiftCfg (putBits v 9 0 (max 8 (bits v 9 0))))
  else if r = 0x38 then some (nextOf s (execImageDefaultWrite w s))
  else none

/-- CHN, its doorbell pair apart. -/
def State.writeChn (s : State) (r v : Nat) (w : Word) : Option State :=
  if r = 0x10 then some (nextOf s (execChnInval w s))
  else if r = 0x18 then
    let c := bits v 11 0
    some (match bits v 18 16 with
      | 1 => nextOf s (execChnEnable c s)
      | 2 => nextOf s (execChnDisable c s)
      | 3 => nextOf s (execChnFlush c s)
      | 4 => nextOf s (execChnFlushKill c s)
      | _ => s)
  else none

/-- CRN. -/
def State.writeCrn (s : State) (r v : Nat) (w : Word) : Option State :=
  if r = 0xC then some (if bit v 0 then nextOf s (execCrnFreezeCmd s) else s)
  else if r = 0x14 then some (nextOf s (execCrnPinWrite w s))
  else if r = 0x60 then some (nextOf s (execCairnStreamReadout w s))
  else none

/-- UART `u`, and on UART1 the LIN registers. A slot's length of 0 or above 8 is ignored, and run written 1 makes every
slot due (R829). -/
def State.writeUart (s : State) (u r v : Nat) (w : Word) : Option State :=
  let custom (s : State) : State := s.setReg (R.uSel 1) 0xF
  if r = 0x0 then some (s.uartSel u v)
  else if r = 0x4 then some (s.uartExpert u v)
  else if r = 0x8 then some (nextOf s (execUartDataWrite u w s))
  else if r = 0x18 then
    some ((s.setReg (R.uIrq u) (putBits (v.land 0x8007FFFF) 18 12 (min 64 (max 1 (bits v 18 12))))).uartTell u)
  else if u = 1 && r = 0x100 then
    let t := custom (s.setReg R.linCtl (v % 16))
    some (if bit v 0 && !s.flag R.linCtl 0 then t.linAllDue else t)
  else if u = 1 && 0x110 ≤ r && r < 0x130 then
    let k := (r - 0x110) / 4
    let v := v.land 0xFF0FFF
    some (custom (s.setReg (R.linSlot k) (if 1 ≤ bits v 9 6 && bits v 9 6 ≤ 8 then v else putBits v 9 6 (s.fld (R.linSlot k) 9 6))))
  else none

/-- TRN. -/
def State.writeTrn (s : State) (r v : Nat) (w : Word) : Option State :=
  if r = 0x8 then
    let s := s.setReg R.trnCtl (v % 16)
    some (if bit v 8 then nextOf s (execTarnCancel s) else s)
  else if 0x100 ≤ r && r < 0x180 && r % 32 = 0x8 then
    some (if 4 ≤ bits v 3 0 && bits v 3 0 ≤ 10 then s.setReg (R.trnQSize ((r - 0x100) / 32)) (bits v 3 0) else s)
  else if 0x100 ≤ r && r < 0x180 && r % 32 = 0xC then some (nextOf s (execTarnQueueTail ((r - 0x100) / 32) w s))
  else none

/-- HPT. -/
def State.writeHpt (s : State) (r v : Nat) (w : Word) : Option State :=
  if r = 0xC then some (nextOf s (execLinkRetrain w s))
  else if r = 0x18 then some ((s.setReg R.hptCtlFunc (v % 4)).keepPort [(R.hptCtlFunc, v % 4)])
  else if r = 0x3C then some (nextOf s (execSwmInval w s))
  else if 0xB00 ≤ r && r < 0xC00 && r % 32 = 0x14 then some (nextOf s (execHostDmaStart ((r - 0xB00) / 32) w s))
  else none

/-- RNG. A census timeout of 0 sets 1. -/
def State.writeRng (s : State) (r v : Nat) (w : Word) : Option State :=
  if r = 0x4 then some (nextOf s (execRingCfgWrite w s))
  else if r = 0x14 then
    some (match bits v 1 0 with
      | 1 => nextOf s (execRingRejoin s)
      | 2 => nextOf s (execRingDepart s)
      | _ => s)
  else if r = 0x200 then some (s.setReg R.rngCensusCfg (putBits (v % 2 ^ 24) 23 16 (max 1 (bits v 23 16))))
  else if r = 0x20C then some (if bit v 0 then nextOf s (execCensusGo s) else s)
  else if 0x2000 ≤ r && r < 0x2200 && r % 64 = 0x14 then some (nextOf s (execRingDmaStart ((r - 0x2000) / 64) w s))
  else none

/-- SEQ: SEQ_FAULT is cleared whole by a 1 in valid. -/
def State.writeSeq (s : State) (d r v : Nat) (w : Word) : Option State :=
  if d = 8 && r = 0x8 then some (nextOf s (execPatchApplyRequest w s))
  else if r = 0x30 then some (if bit v 0 then s.setReg (R.seqFault d) 0 else s)
  else none

/-- RND. An overrun setting of 3 is ignored. -/
def State.writeRnd (s : State) (r v : Nat) (w : Word) : Option State :=
  if r = 0x10 then some (nextOf s (execTurnTableSelect w s))
  else if r = 0x18 then some (nextOf s (execTurnTableEntryWrite w s))
  else if r = 0x30 then some (if bits v 1 0 = 3 then s else s.setReg R.rndOvrCfg (bits v 1 0))
  else none

/-- A half's registers: trap and fault controls; MXA_ERR.valid written 1 clears MXA_ERR and MXA_ERR_PC. -/
def State.writeHalf (s : State) (b : Block) (h r v : Nat) : Option State :=
  match b with
  | .corHalf =>
    if r = 0x310 then some (if bit v 0 then nextOf s (execTrapClear h s) else s)
    else if r = 0x330 then
      let s := if bit v 0 then nextOf s (execMfltResume h s) else s
      some (if bit v 1 then nextOf s (execMfltAbort h s) else s)
    else none
  | .mxa => if r = 0x2C then some (if bit v 31 then (s.setReg (R.mxaErr h) 0).setReg (R.mxaErrPc h) 0 else s) else none
  | _ => none

/-- The effect of a write, where the register has one of its own. -/
def State.ownWrite (s : State) (b : Block) (i r v : Nat) : Option State :=
  let w := BitVec.ofNat 32 v
  match b with
  | .glb => s.writeGlb r v w
  | .img => s.writeImg r v w
  | .chn => s.writeChn r v w
  | .job => if r = 0x24 then some (nextOf s (execJobPrioCmd w s)) else none
  | .pwr => if r = 0x4 then some (nextOf s (execLimitWrite w s)) else none
  | .crn => s.writeCrn r v w
  | .uart => s.writeUart i r v w
  | .fpl => if r = 0x8 then some (if bit v 0 then nextOf s (execFplUpdateRequest s) else s) else none
  | .jtg => if r = 0x0 then some (nextOf s (execJtgPolicyWrite w s)) else none
  | .trn => s.writeTrn r v w
  | .hpt => s.writeHpt r v w
  | .pst => if r = 0xC then some (nextOf s (execPstInval w s)) else none
  | .rng => s.writeRng r v w
  | .seq => s.writeSeq i r v w
  | .rnd => s.writeRnd r v w
  | .col => if r = 0x8 then some (if bit v 0 then nextOf s (execColCtlRetrain i s) else s) else none
  | b => s.writeHalf b i r v

/-! ### A write of the control function -/

/-- A base or size of a pass queue that is not empty may not be written (R805). -/
def State.queueHeld (s : State) (b : Block) (r : Nat) : Bool :=
  b == .trn && 0x100 ≤ r && r < 0x180 && (r % 32 == 0 || r % 32 == 4 || r % 32 == 8) &&
    s.reg (R.trnQHead ((r - 0x100) / 32)) != s.reg (R.trnQTail ((r - 0x100) / 32))

/-- A 32-bit write that the HX8 accepts at an aligned offset: ignored at an unassigned offset (R14) and at a peak that is
not up (R915); otherwise staged, applied as a pair, or done as its register gives. -/
def State.writeReg (s : State) (port func a v : Nat) : State :=
  match regRow a, blockAt a with
  | some q, some (b, i, r) =>
    if s.peakDown a then s
    else if s.queueHeld b r then s.refuseQueue ((r - 0x100) / 32) a v
    else if a = R.chnDbLo then s.stage (bellKey port func) v
    else if a = R.chnDbHi then s.bellWrite port func v
    else if isLo b r then (if s.pairOpen b r then s.stage a v else s)
    else if 4 ≤ r && isLo b (r - 4) then (if s.pairOpen b (r - 4) then s.pairWrite (a - 4) v else s)
    else
      match s.ownWrite b i r v with
      | some t => t
      | none => if q.group = .none then s.plainWrite a q v else s.groupWrite a q i v
  | _, _ => s

/-! ### Who writes (R696, R698, R916) -/

/-- A function's MSI-X table is at its own place in its BAR0: the offset of its first word, or none. -/
def tableAt (pf : Bool) (off : Nat) : Option Nat :=
  let base := if pf then 0x01C00000 else 0x10000
  if base ≤ off && off < base + 0x8000 then some (off - base) else none

/-- A function's word of its MSI-X table is written; a mask bit that goes to 0 unmasks the vector (R702). -/
def State.tableWrite (s : State) (port func o v : Nat) : State :=
  let f := s.hostFunc port func
  let k := o / 4
  if k % 4 = 3 then
    if bit v 0 then s.setFunc port func { f with table := Map.set f.table k 1 }
    else nextOf s (execMsixUnmask port func (k / 4) s)
  else s.setFunc port func { f with table := Map.set f.table k (BitVec.ofNat 32 v) }

/-- The control function. -/
def State.isCtl (s : State) (port func : Nat) : Bool := port == s.ctlPort && func == s.ctlFunc

/-- A 32-bit BAR0 write of a function: its own MSI-X table, its doorbell, or, of the control function alone, any register.
Any other write of a PF is ignored with event 0x0D04. A write that is not aligned is discarded (R6), and a function that
does not exist sends none. -/
def State.hostWriteReg (s : State) (port func off v : Nat) : State :=
  if !s.funcOk port func || off % 4 != 0 then s
  else
    match tableAt (s.isPf port func) off with
    | some o => s.tableWrite port func o v
    | none =>
      if s.isPf port func then
        if off = R.chnDbLo || off = R.chnDbHi || s.isCtl port func then s.writeReg port func off v
        else s.refuseAccess port func 0 off 1
      else if off = 0 then s.stage (bellKey port func) v
      else if off = 4 then s.bellWrite port func v
      else s

/-- REGISTER_WRITE: a write to a register that has no row of its own applies its fields by their access types (R8). -/
def execRegisterWrite (port func off : Nat) (v : Word) (s : State) : Host.Outcome State Fault Refusal :=
  .next (s.hostWriteReg port func off v.toNat)

/-- LO_HALF_WRITE: a low half is held and changes nothing in force (R7). -/
def execLoHalfWrite (port func off : Nat) (v : Word) (s : State) : Host.Outcome State Fault Refusal :=
  .next (s.hostWriteReg port func off v.toNat)

/-- HI_HALF_WRITE: a pair is applied with its staged low half (R7). -/
def execHiHalfWrite (port func off : Nat) (v : Word) (s : State) : Host.Outcome State Fault Refusal :=
  .next (s.hostWriteReg port func off v.toNat)

/-- SELECTOR_WRITE: a selector field is written (R37). -/
def execSelectorWrite (port func off : Nat) (v : Word) (s : State) : Host.Outcome State Fault Refusal :=
  .next (s.hostWriteReg port func off v.toNat)

/-- An access of 4 or 8 bytes at its natural alignment is none of R6's. -/
def goodAccess (off size : Nat) : Bool := (size == 4 || size == 8) && off % size == 0

/-- BAR0_BAD_ACCESS: a write of a wrong size or alignment is discarded, a read answered with ones in every byte (R6). -/
def execBar0BadAccess (write : Bool) (off size : Nat) (s : State) : Host.Outcome State Fault Refusal :=
  .next (if write || goodAccess off size then s else s.hostAnswer 0 (2 ^ (8 * size) - 1))

/-! ### The mailbox of the test access port (R839, R840) -/

/-- A read at an offset as the control function makes it: its MSI-X table and pending bits, or a register. -/
def State.readBar0 (s : State) (off : Nat) : State :=
  let f := s.hostFunc s.ctlPort s.ctlFunc
  match tableAt true off with
  | some o => { s with answer := f.word (o / 16) (o % 16 / 4) }
  | none =>
    if 0x01C08000 ≤ off && off < 0x01C08100 then
      { s with answer := maskOf ((List.range 32).filter fun i => f.pend.contains (8 * (off - 0x01C08000) + i)) }
    else s.readReg off

/-- MBOX_READ: a 32-bit read at 4 × `word`; reads are never refused. -/
def execMboxRead (word : Nat) (s : State) : Host.Outcome State Fault Refusal :=
  let s := (s.tapIr 0x20).readBar0 (4 * (word % 2 ^ 23))
  .next (s.setTap { s.ser.tap with done := true, refused := false, data := s.answer })

/-- What MBOX's capture returns: done, refused, busy (never, since an access ends in its command), and the data of the last
read (R839). -/
def Tap.mboxCapture (t : Tap) : Nat := t.done.toNat + 2 * t.refused.toNat + 2 ^ 32 * (t.data % 2 ^ 32)

/-- MBOX_WRITE: a write as the control function, or refused with event 0x1007 while JTG_POLICY.write_ok reads 0; the scan
that brings it returns the capture. -/
def execMboxWrite (word : Nat) (v : Word) (s : State) : Host.Outcome State Fault Refusal :=
  let off := 4 * (word % 2 ^ 23)
  let s := { s.tapIr 0x20 with answer := s.ser.tap.mboxCapture }
  .next (if !s.flag R.jtgPolicy 1 then
      (s.setTap { s.ser.tap with done := true, refused := true }).hubEvent 0x1007 [(1, evCode 0x1007 0), (4, off)]
    else
      let s := s.setTap { s.ser.tap with done := true, refused := false }
      match tableAt true off with
      | some o => s.tableWrite s.ctlPort s.ctlFunc o v.toNat
      | none => s.writeReg s.ctlPort s.ctlFunc off v.toNat)

end Sys2Proof.Machine
end

