-- ==== Sys2Proof/Machine/Boundary.lean ====
section
/-! DEFINITION. The round boundary (R127, R128) and every action that the manual places at it and that has no command of
its own: job time, rails, waiting register writes, the first commit, flushes, head write-backs, vectors, marks and
sweeps. -/

namespace Sys2Proof.Machine

/-! ### The round that ends -/

/-- What a dispatched job did in the round that ends: nothing to count, charged, preempted or external wait ("Planned
Operation"); a job at a preemption point while the hub sequencer is reset stands preempted (R204). -/
def State.roundOf (s : State) (inp : RoundIn) (j : Nat) (x : Job) : Job :=
  let charged : Job := { x with charged := x.charged + 1 }
  let preempted : Job := { x with preempted := x.preempted + 1 }
  if !x.dispatched || x.st == .ended then x
  else if x.st == .running then
    let drained := match s.partRec x.part with | some p => p.peaks.all (bit x.drained) | none => false
    let point := match s.jobPhase x with | some q => q.2.2.point | none => false
    if s.jobs.paused && x.inPhase && drained && point then preempted
    else if inp.ext.contains x.part then { x with extWait := x.extWait + 1 }
    else charged
  else if x.st == .held then preempted
  else if (match s.holderOf x.part with | some k => k != j | none => false) then preempted
  else charged

/-- Every job's round is counted. -/
def State.chargeRound (s : State) (inp : RoundIn) : State :=
  { s with jobs := { s.jobs with jobs := s.jobs.jobs.map fun q => (q.1, s.roundOf inp q.1 q.2) } }

/-- The lowest canary reading of a half with its row, among those of the round. -/
def lowestCanary (h : Nat) (l : List (Nat × Nat × Nat)) : Option (Nat × Nat) :=
  l.foldl (fun b q =>
    if q.1 != h then b
    else
      match b with
      | some p => if q.2.2 < p.2 then some q.2 else b
      | none => some q.2) none

/-- The rail rule of a half (R629, R631): readings are compared with the target 150 × (1 + guard / 100) in 10 M steps/s. A
round with a droop kick leaves the rail to the kick (R630). -/
def State.railRound (s : State) (l : List (Nat × Nat × Nat)) (h : Nat) : State :=
  match lowestCanary h l with
  | none => s
  | some (row, low) =>
    let target := 150 * (100 + s.fld R.pwrCfg 3 0)
    let below := decide (100 * low < target)
    let lowRun := if below then min 16 (Map.getD s.pwr.lowRun h 0 + 1) else 0
    let highRun := if 103 * target ≤ 10000 * low then min 16 (Map.getD s.pwr.highRun h 0 + 1) else 0
    let s := { s with pwr := { s.pwr with lowRun := Map.set s.pwr.lowRun h lowRun, highRun := Map.set s.pwr.highRun h highRun } }
    let margin := lowRun == 16 && s.fld (R.govRail h) 9 0 == 850
    let noted := s.flag (R.govCanary h) 11
    let s := s.setReg (R.govCanary h) (min 255 low + 2 ^ 8 * (row % 8) + 2 ^ 11 * margin.toNat)
    let s := if margin && !noted then (s.setFlag R.pwrEvent 3 true).halfEvent h 0x0A06 [(1, h), (1, row), (1, min 255 low)] else s
    if s.pwr.kickNoted.contains h then s
    else if below then s.moveRail h true 5
    else if highRun = 16 then s.moveRail h false 5
    else s

/-- Rails, canary readings and slow turns of the halves whose peaks are up. -/
def State.railsRound (s : State) (inp : RoundIn) : State :=
  let l := inp.canary.filter fun q => q.1 < 16 && s.dieOn (q.1 / 2)
  let s := l.foldl (fun s q => { s with pwr := { s.pwr with canary := Map.set s.pwr.canary (16 * q.1 + q.2.1) q.2.2 } }) s
  let s := (List.range 16).foldl (fun s h => s.railRound l h) s
  inp.slow.foldl (fun s q => if q.1 < 16 then s.count (R.corSlow q.1) q.2 else s) s

/-- What is counted or recorded once a round starts over. -/
def State.roundOver (s : State) : State :=
  { s with
    rnd := { s.rnd with charged := [], reported := [] }
    mem := { s.mem with denies := [], dirEvicts := [], errors := [] }
    pwr := { s.pwr with waitNoted := [], kickNoted := [] }
    jobs := { s.jobs with channels := Map.mapVals s.jobs.channels fun _ x => { x with readThisRound := 0, fullNoted := false } }
    cols := Map.mapVals s.cols fun _ x => { x with d0 := { x.d0 with counts := [] }, d1 := { x.d1 with counts := [] } } }

/-- Events told at the end of a round: LINK_LOST completions by target (R757), storms of directory evictions (R435), a
pass halted for leave (R798), overruns and bad characters of the UARTs, transactions ended across a failed col (R902). -/
def State.tellRound (s : State) : State :=
  let s := s.rng.lostNoted.foldl (fun s q => s.slowEvent 0x0E07 [(1, q.1), (1, evCode 0x0E07 (q.2 % 256)), (2, q.2 / 256)]) s
  let s := { s with rng := { s.rng with lostNoted := [] } }
  let s := s.mem.dirEvicts.foldl (fun s q => if 1024 < q.2 then s.halfEvent q.1 0x0605 [(1, q.1), (4, q.2)] else s) s
  let s := match s.trn.pass with
    | some p => if p.leaveSince.isSome then s.slowEvent 0x0F03 [(2, p.pips), (8, s.rnd.round)] else s
    | none => s
  s.uartPeriod.endCuts

/-! ### The edge -/

/-- The edge itself: turn 0 of the next round. -/
def State.nextRound (s : State) : State :=
  let s := s.toTurn 128
  ({ s with rnd := { s.rnd with round := s.rnd.round + 1, turn := 0 } }.setFld R.rndTurn 6 0 0)

/-- The register writes that waited take effect, selections first (R38, R41); guest copies past a lowered limit go (R461). -/
def State.applyDelayed (s : State) : State :=
  let l := inOrder s.delayed
  let s := l.foldl (fun s q => if q.1 = R.rndTtSel then s.applyTurnSet q.2.toNat else s.applyWrite q.1 q.2.toNat)
    { s with delayed := [] }
  (List.range 16).foldl State.trimGuests s

/-- A first commit that waits takes effect (R243). -/
def State.commitDue (s : State) : State := if s.img.firstCommit then s.commitFirst else s

/-- Admitted jobs that hold no partition and no longer fit their partition's effective budget are completed with code 0x0F
(R624). -/
def State.unfit (s : State) : State :=
  if !s.hubActs then s
  else
    (s.jobsWhere fun x => (x.st == .admitted || x.st == .stopped) && decide (s.eff x.part < x.leavePeak)).foldl
      (fun s q => if s.holderOf q.2.part = some q.1 then s else s.endJob q.1 1 0x0F []) s

/-- Flushes asked for start (R597). -/
def State.flushesStart (s : State) : State :=
  (Map.keysWhere s.jobs.channels fun _ x => x.flushOp != 0 && x.flushTail.isNone).foldl (fun s c => s.startFlush c) s

/-- A channel's head is written back when it changed (R574), and its vector sent (R595). -/
def State.channelRound (s : State) (c : Nat) : State :=
  let x := s.chan c
  match x.entry with
  | none => s
  | some e =>
    let s := if e.headWb != 0 && x.head != x.wbHead && s.hubActs then
        (s.setChan c { x with wbHead := x.head }).hubWrite e.headWb (leBytes 8 x.head)
      else s
    if x.irqDue && s.hubActs then (s.setChan c { s.chan c with irqDue := false }).sendVector e.port e.func e.vector else s

/-- A stream whose unacknowledged count rose from 0 sends its vector (R727). -/
def State.streamRound (s : State) (k : Nat) : State :=
  let x := s.stream k
  if !x.rose then s
  else
    let s := s.setStream k { x with rose := false }
    match x.desc with
    | some d => if d.irqPage then s.sendVector d.port d.func d.vector else s
    | none => s

/-- Vectors of the control function: a mailbox written (R765), passes that ended (R792), fault records (R911). -/
def State.ctlVectors (s : State) : State :=
  let s := if s.rng.mboxDue && s.flag R.rngMboxVec 31 then s.sendCtl (s.fld R.rngMboxVec 10 0) else s
  let s := { s with rng := { s.rng with mboxDue := false } }
  let s := s.trn.vectors.foldl (fun s v => s.sendCtl v) s
  let s := { s with trn := { s.trn with vectors := [] } }
  let s := if s.flt.added && s.flag R.fltVec 31 then s.sendCtl (s.fld R.fltVec 10 0) else s
  { s with flt := { s.flt with added := false } }

/-- Roll marks (R742) and a periodic sweep (R767): the rounds whose number is a multiple of the period (log entry 70). -/
def State.ringRound (s : State) : State :=
  let s := if s.rng.switchesOpen && !s.rng.joining && (s.rnd.round % 64 == 0 || s.rng.markDue) then
      { s with rng := { s.rng with markDue := false } }.sendMarks
    else s
  let n := s.fld R.rngCensusCfg 15 0
  if n != 0 && s.rnd.round % n == 0 && s.unitsRun then s.startCensus else s

/-- Round work is latched in every sequencer that executes (R664). -/
def State.latchWork (s : State) : State :=
  (List.range 9).foldl (fun s d => if s.seqRuns d then s.setSeq d { s.seqSt d with roundWork := true } else s) s

/-- ROUND_BOUNDARY: the edge that begins turn 0 of a round. The actions of its round's sequences that have commands of
their own (a dispatch, a priority change, a swap's start and end, a group's replacement) follow as those commands. No
round boundary occurs while the beacon is stopped. -/
def execRoundBoundary (inp : RoundIn) (s : State) : Host.Outcome State Fault Refusal :=
  .next (if !s.rnd.running then s
    else
      let s := (((s.chargeRound inp).railsRound inp).tellRound).roundOver.nextRound
      let s := s.applyDelayed.commitDue.unfit.flushesStart
      let s := (s.jobs.channels.map (·.1)).foldl (fun s c => s.channelRound c) s
      let s := (s.hst.streams.map (·.1)).foldl (fun s k => s.streamRound k) s
      s.ctlVectors.ringRound.latchWork)

end Sys2Proof.Machine
end

