-- ==== Sys2Proof/Machine/Dispatch.lean ====
section
/-! DEFINITION. What a command does: one arm per constructor. -/

namespace Sys2Proof.Machine

def exec (i : Instr) (s : State) : Host.Outcome State Fault Refusal :=
  match i with
  | .registerWrite port func off v => Sys2Proof.Machine.execRegisterWrite port func off v s
  | .bar0BadAccess write off size => Sys2Proof.Machine.execBar0BadAccess write off size s
  | .loHalfWrite port func off v => Sys2Proof.Machine.execLoHalfWrite port func off v s
  | .hiHalfWrite port func off v => Sys2Proof.Machine.execHiHalfWrite port func off v s
  | .selectorWrite port func off v => Sys2Proof.Machine.execSelectorWrite port func off v s
  | .roundBoundary inp => Sys2Proof.Machine.execRoundBoundary inp s
  | .hopFrameSend hop link dir turn offered => Sys2Proof.Machine.execHopFrameSend hop link dir turn offered s
  | .handshakeStall unit => Sys2Proof.Machine.execHandshakeStall unit s
  | .floorGateAdmit half => Sys2Proof.Machine.execFloorGateAdmit half s
  | .roundLoRead => Sys2Proof.Machine.execRoundLoRead s
  | .turnTableSelect v => Sys2Proof.Machine.execTurnTableSelect v s
  | .turnTableEntryWrite v => Sys2Proof.Machine.execTurnTableEntryWrite v s
  | .j1Sample volts pips => Sys2Proof.Machine.execJ1Sample volts pips s
  | .enterStandbyFromOff slot => Sys2Proof.Machine.execEnterStandbyFromOff slot s
  | .perstAssert => Sys2Proof.Machine.execPerstAssert s
  | .perstDeassert slot => Sys2Proof.Machine.execPerstDeassert slot s
  | .slotIdCompare slot => Sys2Proof.Machine.execSlotIdCompare slot s
  | .flowOkFall => Sys2Proof.Machine.execFlowOkFall s
  | .flowOkRise => Sys2Proof.Machine.execFlowOkRise s
  | .bypassReqAssert => Sys2Proof.Machine.execBypassReqAssert s
  | .bypassReqDeassert => Sys2Proof.Machine.execBypassReqDeassert s
  | .pstateReqRun => Sys2Proof.Machine.execPstateReqRun s
  | .pstateReqReady => Sys2Proof.Machine.execPstateReqReady s
  | .runToReady => Sys2Proof.Machine.execRunToReady s
  | .converterTileFail tile => Sys2Proof.Machine.execConverterTileFail tile s
  | .refOscLost => Sys2Proof.Machine.execRefOscLost s
  | .refOscRestored => Sys2Proof.Machine.execRefOscRestored s
  | .limitSample inlet outlet lid => Sys2Proof.Machine.execLimitSample inlet outlet lid s
  | .storeDataRead => Sys2Proof.Machine.execStoreDataRead s
  | .storeDataWrite v => Sys2Proof.Machine.execStoreDataWrite v s
  | .inlimThrWrite v => Sys2Proof.Machine.execInlimThrWrite v s
  | .bootStart => Sys2Proof.Machine.execBootStart s
  | .bootStepFirmware => Sys2Proof.Machine.execBootStepFirmware s
  | .bootStepHub => Sys2Proof.Machine.execBootStepHub s
  | .bootStepWave1 passed => Sys2Proof.Machine.execBootStepWave1 passed s
  | .bootStepWave2 passed => Sys2Proof.Machine.execBootStepWave2 passed s
  | .bootStepCrossCols passed => Sys2Proof.Machine.execBootStepCrossCols passed s
  | .bootStepHbm trained => Sys2Proof.Machine.execBootStepHbm trained s
  | .bootStepCache => Sys2Proof.Machine.execBootStepCache s
  | .bootStepImage => Sys2Proof.Machine.execBootStepImage s
  | .peakReportUp peak test => Sys2Proof.Machine.execPeakReportUp peak test s
  | .peakLagging peak => Sys2Proof.Machine.execPeakLagging peak s
  | .peakSecondAttempt peak => Sys2Proof.Machine.execPeakSecondAttempt peak s
  | .peakFailed peak => Sys2Proof.Machine.execPeakFailed peak s
  | .resetCold key => Sys2Proof.Machine.execResetCold key s
  | .resetWarm key => Sys2Proof.Machine.execResetWarm key s
  | .resetPartition key target => Sys2Proof.Machine.execResetPartition key target s
  | .resetFunctionLevel key target port => Sys2Proof.Machine.execResetFunctionLevel key target port s
  | .resetSequencer key target => Sys2Proof.Machine.execResetSequencer key target s
  | .partitionResetComplete part => Sys2Proof.Machine.execPartitionResetComplete part s
  | .sequencerResetComplete seq => Sys2Proof.Machine.execSequencerResetComplete seq s
  | .flrConfig port func => Sys2Proof.Machine.execFlrConfig port func s
  | .flrComplete port func enabled msix => Sys2Proof.Machine.execFlrComplete port func enabled msix s
  | .hostHotReset port ep disable => Sys2Proof.Machine.execHostHotReset port ep disable s
  | .vfEnableClear port ep => Sys2Proof.Machine.execVfEnableClear port ep s
  | .promoteFirmware => Sys2Proof.Machine.execPromoteFirmware s
  | .promoteMicrocode => Sys2Proof.Machine.execPromoteMicrocode s
  | .promoteImage index => Sys2Proof.Machine.execPromoteImage index s
  | .promoteDone => Sys2Proof.Machine.execPromoteDone s
  | .imageLoad src index => Sys2Proof.Machine.execImageLoad src index s
  | .imageLoadDone => Sys2Proof.Machine.execImageLoadDone s
  | .imageCommit key => Sys2Proof.Machine.execImageCommit key s
  | .imageSelWrite v => Sys2Proof.Machine.execImageSelWrite v s
  | .imageDefaultWrite v => Sys2Proof.Machine.execImageDefaultWrite v s
  | .shiftSchedule => Sys2Proof.Machine.execShiftSchedule s
  | .epochMarkAck seq => Sys2Proof.Machine.execEpochMarkAck seq s
  | .shiftAbandon => Sys2Proof.Machine.execShiftAbandon s
  | .swapStart => Sys2Proof.Machine.execSwapStart s
  | .partitionOpen part => Sys2Proof.Machine.execPartitionOpen part s
  | .swapEnd => Sys2Proof.Machine.execSwapEnd s
  | .swapMaxRounds => Sys2Proof.Machine.execSwapMaxRounds s
  | .nop g f => Sys2Proof.Machine.execNop g f s
  | .iadd g f => Sys2Proof.Machine.execIadd g f s
  | .isub g f => Sys2Proof.Machine.execIsub g f s
  | .imul g f => Sys2Proof.Machine.execImul g f s
  | .imulhi g f => Sys2Proof.Machine.execImulhi g f s
  | .imac g f => Sys2Proof.Machine.execImac g f s
  | .imin g f => Sys2Proof.Machine.execImin g f s
  | .imax g f => Sys2Proof.Machine.execImax g f s
  | .and g f => Sys2Proof.Machine.execAnd g f s
  | .or g f => Sys2Proof.Machine.execOr g f s
  | .xor g f => Sys2Proof.Machine.execXor g f s
  | .shl g f => Sys2Proof.Machine.execShl g f s
  | .shr g f => Sys2Proof.Machine.execShr g f s
  | .bcnt g f => Sys2Proof.Machine.execBcnt g f s
  | .lzcnt g f => Sys2Proof.Machine.execLzcnt g f s
  | .bsel g f => Sys2Proof.Machine.execBsel g f s
  | .icmp g f => Sys2Proof.Machine.execIcmp g f s
  | .sel g f => Sys2Proof.Machine.execSel g f s
  | .fadd g f => Sys2Proof.Machine.execFadd g f s
  | .fmul g f => Sys2Proof.Machine.execFmul g f s
  | .ffma g f => Sys2Proof.Machine.execFfma g f s
  | .fmin g f => Sys2Proof.Machine.execFmin g f s
  | .fmax g f => Sys2Proof.Machine.execFmax g f s
  | .fcmp g f => Sys2Proof.Machine.execFcmp g f s
  | .fmf g f => Sys2Proof.Machine.execFmf g f s
  | .padd g f => Sys2Proof.Machine.execPadd g f s
  | .pmul g f => Sys2Proof.Machine.execPmul g f s
  | .pfma g f => Sys2Proof.Machine.execPfma g f s
  | .pmin g f => Sys2Proof.Machine.execPmin g f s
  | .pmax g f => Sys2Proof.Machine.execPmax g f s
  | .cvt g f => Sys2Proof.Machine.execCvt g f s
  | .cvts g f => Sys2Proof.Machine.execCvts g f s
  | .mov g f => Sys2Proof.Machine.execMov g f s
  | .rdsr g f => Sys2Proof.Machine.execRdsr g f s
  | .xlane g f => Sys2Proof.Machine.execXlane g f s
  | .lvote g f => Sys2Proof.Machine.execLvote g f s
  | .bra g f => Sys2Proof.Machine.execBra g f s
  | .bri g f => Sys2Proof.Machine.execBri g f s
  | .exit g f => Sys2Proof.Machine.execExit g f s
  | .bar g f => Sys2Proof.Machine.execBar g f s
  | .barComplete half core b k => Sys2Proof.Machine.execBarComplete half core b k s
  | .brk g f => Sys2Proof.Machine.execBrk g f s
  | .trap g f => Sys2Proof.Machine.execTrap g f s
  | .ld g f => Sys2Proof.Machine.execLd g f s
  | .st g f => Sys2Proof.Machine.execSt g f s
  | .lds g f => Sys2Proof.Machine.execLds g f s
  | .sts g f => Sys2Proof.Machine.execSts g f s
  | .ldc g f => Sys2Proof.Machine.execLdc g f s
  | .ldGn g f => Sys2Proof.Machine.execLdGn g f s
  | .atom g f => Sys2Proof.Machine.execAtom g f s
  | .atoms g f => Sys2Proof.Machine.execAtoms g f s
  | .fence g f => Sys2Proof.Machine.execFence g f s
  | .mxs g f => Sys2Proof.Machine.execMxs g f s
  | .mxw g f => Sys2Proof.Machine.execMxw g f s
  | .confirmationResponse msg => Sys2Proof.Machine.execConfirmationResponse msg s
  | .trapReport part => Sys2Proof.Machine.execTrapReport part s
  | .trapClear half => Sys2Proof.Machine.execTrapClear half s
  | .resumableFaultReport g => Sys2Proof.Machine.execResumableFaultReport g s
  | .mfltResume half => Sys2Proof.Machine.execMfltResume half s
  | .mfltAbort half => Sys2Proof.Machine.execMfltAbort half s
  | .mfltTimeout half => Sys2Proof.Machine.execMfltTimeout half s
  | .blockEnd half core b => Sys2Proof.Machine.execBlockEnd half core b s
  | .tileAccept half => Sys2Proof.Machine.execTileAccept half s
  | .pairTimeout half => Sys2Proof.Machine.execPairTimeout half s
  | .chunkStaged half => Sys2Proof.Machine.execChunkStaged half s
  | .mainLoopStart half => Sys2Proof.Machine.execMainLoopStart half s
  | .mainLoopEnd half stall => Sys2Proof.Machine.execMainLoopEnd half stall s
  | .tileComplete half => Sys2Proof.Machine.execTileComplete half s
  | .leaveGrant half => Sys2Proof.Machine.execLeaveGrant half s
  | .poolGrant => Sys2Proof.Machine.execPoolGrant s
  | .limitWrite v => Sys2Proof.Machine.execLimitWrite v s
  | .limitChange => Sys2Proof.Machine.execLimitChange s
  | .droopKick half row reading => Sys2Proof.Machine.execDroopKick half row reading s
  | .junctionWarn half temp => Sys2Proof.Machine.execJunctionWarn half temp s
  | .junctionHot half temp => Sys2Proof.Machine.execJunctionHot half temp s
  | .junctionHotClear temps => Sys2Proof.Machine.execJunctionHotClear temps s
  | .junctionTrip half temp => Sys2Proof.Machine.execJunctionTrip half temp s
  | .dryStopEnd => Sys2Proof.Machine.execDryStopEnd s
  | .dryStopTimeout => Sys2Proof.Machine.execDryStopTimeout s
  | .hbmIdleSelfRefresh peak => Sys2Proof.Machine.execHbmIdleSelfRefresh peak s
  | .patrolScrub peak fixed bad => Sys2Proof.Machine.execPatrolScrub peak fixed bad s
  | .multicastCopyInstall msg => Sys2Proof.Machine.execMulticastCopyInstall msg s
  | .gets msg => Sys2Proof.Machine.execGets msg s
  | .getm msg => Sys2Proof.Machine.execGetm msg s
  | .upg msg => Sys2Proof.Machine.execUpg msg s
  | .fill msg => Sys2Proof.Machine.execFill msg s
  | .putm msg => Sys2Proof.Machine.execPutm msg s
  | .pute msg => Sys2Proof.Machine.execPute msg s
  | .putf msg => Sys2Proof.Machine.execPutf msg s
  | .rdnc msg => Sys2Proof.Machine.execRdnc msg s
  | .wrnc msg => Sys2Proof.Machine.execWrnc msg s
  | .atomRequest msg => Sys2Proof.Machine.execAtomRequest msg s
  | .invs msg => Sys2Proof.Machine.execInvs msg s
  | .fwds msg => Sys2Proof.Machine.execFwds msg s
  | .fwdm msg => Sys2Proof.Machine.execFwdm msg s
  | .fwdr msg => Sys2Proof.Machine.execFwdr msg s
  | .recall msg => Sys2Proof.Machine.execRecall msg s
  | .data msg => Sys2Proof.Machine.execData msg s
  | .grant msg => Sys2Proof.Machine.execGrant msg s
  | .invack msg => Sys2Proof.Machine.execInvack msg s
  | .fwdack msg => Sys2Proof.Machine.execFwdack msg s
  | .done msg => Sys2Proof.Machine.execDone msg s
  | .doneack msg => Sys2Proof.Machine.execDoneack msg s
  | .release msg => Sys2Proof.Machine.execRelease msg s
  | .putack msg => Sys2Proof.Machine.execPutack msg s
  | .wrack msg => Sys2Proof.Machine.execWrack msg s
  | .atomrsp msg => Sys2Proof.Machine.execAtomrsp msg s
  | .nack msg => Sys2Proof.Machine.execNack msg s
  | .retrySend msg => Sys2Proof.Machine.execRetrySend msg s
  | .ticketExpire half ticket => Sys2Proof.Machine.execTicketExpire half ticket s
  | .l1HoldEnd half phys line => Sys2Proof.Machine.execL1HoldEnd half phys line s
  | .colGroupSlotReceive col dir slot => Sys2Proof.Machine.execColGroupSlotReceive col dir slot s
  | .colNakReceive col dir seq slot => Sys2Proof.Machine.execColNakReceive col dir seq slot s
  | .colCreditReturn col dir returns => Sys2Proof.Machine.execColCreditReturn col dir returns s
  | .colLockLoss col group => Sys2Proof.Machine.execColLockLoss col group s
  | .colRetireMessage col group => Sys2Proof.Machine.execColRetireMessage col group s
  | .colSpareReplace col => Sys2Proof.Machine.execColSpareReplace col s
  | .colDegrade col => Sys2Proof.Machine.execColDegrade col s
  | .colFail col lock => Sys2Proof.Machine.execColFail col lock s
  | .colRetrainDone col group pass => Sys2Proof.Machine.execColRetrainDone col group pass s
  | .colCtlRetrain peak => Sys2Proof.Machine.execColCtlRetrain peak s
  | .doorbellTail port func chan value => Sys2Proof.Machine.execDoorbellTail port func chan value s
  | .doorbellCqHead port func chan value => Sys2Proof.Machine.execDoorbellCqHead port func chan value s
  | .chnInval v => Sys2Proof.Machine.execChnInval v s
  | .chnInvalDone => Sys2Proof.Machine.execChnInvalDone s
  | .chnEnable chan => Sys2Proof.Machine.execChnEnable chan s
  | .chnDisable chan => Sys2Proof.Machine.execChnDisable chan s
  | .chnFlush chan => Sys2Proof.Machine.execChnFlush chan s
  | .chnFlushKill chan => Sys2Proof.Machine.execChnFlushKill chan s
  | .flushComplete chan => Sys2Proof.Machine.execFlushComplete chan s
  | .jobPrioCmd v => Sys2Proof.Machine.execJobPrioCmd v s
  | .readItems => Sys2Proof.Machine.execReadItems s
  | .admitJob job => Sys2Proof.Machine.execAdmitJob job s
  | .dispatch => Sys2Proof.Machine.execDispatch s
  | .hubPhaseStart job => Sys2Proof.Machine.execHubPhaseStart job s
  | .hubPhaseEnd job => Sys2Proof.Machine.execHubPhaseEnd job s
  | .postCompletion chan => Sys2Proof.Machine.execPostCompletion chan s
  | .priorityChange => Sys2Proof.Machine.execPriorityChange s
  | .flush chan => Sys2Proof.Machine.execFlush chan s
  | .hubPartitionReset part => Sys2Proof.Machine.execHubPartitionReset part s
  | .storePromotion => Sys2Proof.Machine.execStorePromotion s
  | .patchLoad => Sys2Proof.Machine.execPatchLoad s
  | .peakPhaseStart peak job => Sys2Proof.Machine.execPeakPhaseStart peak job s
  | .tileLaunch half core => Sys2Proof.Machine.execTileLaunch half core s
  | .phaseDrain peak job => Sys2Proof.Machine.execPhaseDrain peak job s
  | .shareUpdate peak job => Sys2Proof.Machine.execShareUpdate peak job s
  | .peakPartitionReset peak part => Sys2Proof.Machine.execPeakPartitionReset peak part s
  | .colRetireReplace peak => Sys2Proof.Machine.execColRetireReplace peak s
  | .cleanse peak => Sys2Proof.Machine.execCleanse peak s
  | .selfTest peak test => Sys2Proof.Machine.execSelfTest peak test s
  | .coreRemap peak => Sys2Proof.Machine.execCoreRemap peak s
  | .colRetrain peak => Sys2Proof.Machine.execColRetrain peak s
  | .unknownOpcode seq => Sys2Proof.Machine.execUnknownOpcode seq s
  | .microwordExecute seq flips => Sys2Proof.Machine.execMicrowordExecute seq flips s
  | .holdRelease seq => Sys2Proof.Machine.execHoldRelease seq s
  | .commandBoundary seq arrived => Sys2Proof.Machine.execCommandBoundary seq arrived s
  | .roundWork seq => Sys2Proof.Machine.execRoundWork seq s
  | .seqInboundMessage seq => Sys2Proof.Machine.execSeqInboundMessage seq s
  | .seqWatchdog seq => Sys2Proof.Machine.execSeqWatchdog seq s
  | .patchApplyRequest v => Sys2Proof.Machine.execPatchApplyRequest v s
  | .patchSwitch seq => Sys2Proof.Machine.execPatchSwitch seq s
  | .linkUp port ep rate lanes funcs => Sys2Proof.Machine.execLinkUp port ep rate lanes funcs s
  | .linkDown port ep => Sys2Proof.Machine.execLinkDown port ep s
  | .linkRetrain v => Sys2Proof.Machine.execLinkRetrain v s
  | .bar2Read port func off n => Sys2Proof.Machine.execBar2Read port func off n s
  | .bar2Write port func off data poisoned => Sys2Proof.Machine.execBar2Write port func off data poisoned s
  | .atomicopRefuse port func => Sys2Proof.Machine.execAtomicopRefuse port func s
  | .translationRequestRefuse port func => Sys2Proof.Machine.execTranslationRequestRefuse port func s
  | .msixUnmask port func vector => Sys2Proof.Machine.execMsixUnmask port func vector s
  | .hostCompletion id status data => Sys2Proof.Machine.execHostCompletion id status data s
  | .hostCompletionTimeout id => Sys2Proof.Machine.execHostCompletionTimeout id s
  | .swmInval v => Sys2Proof.Machine.execSwmInval v s
  | .swmInvalDone => Sys2Proof.Machine.execSwmInvalDone s
  | .hostDmaStart engine v => Sys2Proof.Machine.execHostDmaStart engine v s
  | .hostDmaDone engine => Sys2Proof.Machine.execHostDmaDone engine s
  | .pstInval v => Sys2Proof.Machine.execPstInval v s
  | .pstInvalDone => Sys2Proof.Machine.execPstInvalDone s
  | .pageViewRead port func ap off n => Sys2Proof.Machine.execPageViewRead port func ap off n s
  | .pageAck port func ap r => Sys2Proof.Machine.execPageAck port func ap r s
  | .streamTimeout stream => Sys2Proof.Machine.execStreamTimeout stream s
  | .streamAbort port func ap => Sys2Proof.Machine.execStreamAbort port func ap s
  | .ringPortUp port gen name id inc serial => Sys2Proof.Machine.execRingPortUp port gen name id inc serial s
  | .ringPortDown port => Sys2Proof.Machine.execRingPortDown port s
  | .ringTrainRetry port first => Sys2Proof.Machine.execRingTrainRetry port first s
  | .ringFrameSend port => Sys2Proof.Machine.execRingFrameSend port s
  | .ringSlotReceive port turn slot replay crcOk pkt => Sys2Proof.Machine.execRingSlotReceive port turn slot replay crcOk pkt s
  | .ringLinkNak port turn slot => Sys2Proof.Machine.execRingLinkNak port turn slot s
  | .ringCredit port cls count => Sys2Proof.Machine.execRingCredit port cls count s
  | .rollMark port mark => Sys2Proof.Machine.execRollMark port mark s
  | .departureMark port id inc => Sys2Proof.Machine.execDepartureMark port id inc s
  | .memberAbsent id => Sys2Proof.Machine.execMemberAbsent id s
  | .bypassSwitchOpen => Sys2Proof.Machine.execBypassSwitchOpen s
  | .joinEnd => Sys2Proof.Machine.execJoinEnd s
  | .ringDepart => Sys2Proof.Machine.execRingDepart s
  | .ringRejoin => Sys2Proof.Machine.execRingRejoin s
  | .ringCfgWrite v => Sys2Proof.Machine.execRingCfgWrite v s
  | .departureComplete => Sys2Proof.Machine.execDepartureComplete s
  | .ringPut => Sys2Proof.Machine.execRingPut s
  | .ringGet => Sys2Proof.Machine.execRingGet s
  | .ringDoorbell => Sys2Proof.Machine.execRingDoorbell s
  | .ringCrec => Sys2Proof.Machine.execRingCrec s
  | .ringPutAck => Sys2Proof.Machine.execRingPutAck s
  | .ringGetData => Sys2Proof.Machine.execRingGetData s
  | .ringDbAck => Sys2Proof.Machine.execRingDbAck s
  | .ringCrecAck => Sys2Proof.Machine.execRingCrecAck s
  | .ringStale => Sys2Proof.Machine.execRingStale s
  | .ringRefused => Sys2Proof.Machine.execRingRefused s
  | .ringRetryTimer target tag => Sys2Proof.Machine.execRingRetryTimer target tag s
  | .ringDmaStart engine v => Sys2Proof.Machine.execRingDmaStart engine v s
  | .ringDmaDone engine => Sys2Proof.Machine.execRingDmaDone engine s
  | .censusGo => Sys2Proof.Machine.execCensusGo s
  | .censusToken port token => Sys2Proof.Machine.execCensusToken port token s
  | .censusTimeout => Sys2Proof.Machine.execCensusTimeout s
  | .tarnQueueTail queue v => Sys2Proof.Machine.execTarnQueueTail queue v s
  | .passStart => Sys2Proof.Machine.execPassStart s
  | .tarnBandPublish => Sys2Proof.Machine.execTarnBandPublish s
  | .passEnd => Sys2Proof.Machine.execPassEnd s
  | .tarnGiveUp => Sys2Proof.Machine.execTarnGiveUp s
  | .tarnCancel => Sys2Proof.Machine.execTarnCancel s
  | .uartRxCharacter uart samples pulses => Sys2Proof.Machine.execUartRxCharacter uart samples pulses s
  | .uartTxCharacter uart => Sys2Proof.Machine.execUartTxCharacter uart s
  | .uartDataRead uart => Sys2Proof.Machine.execUartDataRead uart s
  | .uartDataWrite uart v => Sys2Proof.Machine.execUartDataWrite uart v s
  | .uartCfgApply uart => Sys2Proof.Machine.execUartCfgApply uart s
  | .linSlotDue => Sys2Proof.Machine.execLinSlotDue s
  | .linFrameEnd back recv => Sys2Proof.Machine.execLinFrameEnd back recv s
  | .linResponseTimeout back recv => Sys2Proof.Machine.execLinResponseTimeout back recv s
  | .consoleReadoutCommand => Sys2Proof.Machine.execConsoleReadoutCommand s
  | .consoleReadoutStop => Sys2Proof.Machine.execConsoleReadoutStop s
  | .consoleReadoutEnd => Sys2Proof.Machine.execConsoleReadoutEnd s
  | .trstAssert => Sys2Proof.Machine.execTrstAssert s
  | .jtagBypass => Sys2Proof.Machine.execJtagBypass s
  | .jtagIdcode => Sys2Proof.Machine.execJtagIdcode s
  | .jtagSamplePreload rx0 rx1 cells => Sys2Proof.Machine.execJtagSamplePreload rx0 rx1 cells s
  | .jtagExtest rx0 rx1 cells => Sys2Proof.Machine.execJtagExtest rx0 rx1 cells s
  | .mboxRead word => Sys2Proof.Machine.execMboxRead word s
  | .mboxWrite word v => Sys2Proof.Machine.execMboxWrite word v s
  | .dbgArm halves => Sys2Proof.Machine.execDbgArm halves s
  | .dbgDisarm halves => Sys2Proof.Machine.execDbgDisarm halves s
  | .dbgHaltHalves halves => Sys2Proof.Machine.execDbgHaltHalves halves s
  | .dbgResumeHalves halves => Sys2Proof.Machine.execDbgResumeHalves halves s
  | .dbgStep halves slot => Sys2Proof.Machine.execDbgStep halves slot s
  | .dbgHaltSequencers seqs => Sys2Proof.Machine.execDbgHaltSequencers seqs s
  | .dbgResumeSequencers seqs => Sys2Proof.Machine.execDbgResumeSequencers seqs s
  | .jtgPolicyWrite v => Sys2Proof.Machine.execJtgPolicyWrite v s
  | .crnFreezeCmd => Sys2Proof.Machine.execCrnFreezeCmd s
  | .snapshotComplete => Sys2Proof.Machine.execSnapshotComplete s
  | .crnPinWrite v => Sys2Proof.Machine.execCrnPinWrite v s
  | .cairnRdLatch => Sys2Proof.Machine.execCairnRdLatch s
  | .cairnStreamReadout v => Sys2Proof.Machine.execCairnStreamReadout v s
  | .cairnReadoutEnd => Sys2Proof.Machine.execCairnReadoutEnd s
  | .faceplateUpdate => Sys2Proof.Machine.execFaceplateUpdate s
  | .faceplateUpdateDone => Sys2Proof.Machine.execFaceplateUpdateDone s
  | .fplUpdateRequest => Sys2Proof.Machine.execFplUpdateRequest s
  | .unitFaultDetect fault => Sys2Proof.Machine.execUnitFaultDetect fault s
  | .faultNotice => Sys2Proof.Machine.execFaultNotice s
  | .faultRecordPop => Sys2Proof.Machine.execFaultRecordPop s
  | .storeWriteComplete => Sys2Proof.Machine.execStoreWriteComplete s
  | .testLogicReset => Sys2Proof.Machine.execTestLogicReset s

end Sys2Proof.Machine
end

