-- ==== Sys2Proof/WellFormed.lean ====
section
/-! DEFINITION. Well-formed commands: every operand names something that the HX8 has. A command that is not well
formed spells nothing that a host, a pin, a link or an engine of the HX8 can do; no meaning relies on this check. -/

namespace Sys2Proof

namespace Machine

/-- Links of each hop number (R135). -/
def linkBound (hop : Nat) : Nat := [8, 6, 4, 4, 8, 2, 2].getD hop 0

/-- An access of BAR0 of a size or alignment other than R5 allows. -/
def badAccess (off size : Nat) : Bool := !((size == 4 || size == 8) && off % size == 0)

/-- A group reference names a slot of a core of a half (R260, R270). -/
def GroupRef.wf (g : GroupRef) : Bool := decide (g.half < 16) && decide (g.core < 72) && decide (g.slot < 64)

/-- Every field fits its bits of the words (R293, R294). -/
def CoreFields.wf (f : CoreFields) : Bool :=
  decide (f.pred < 8) && decide (f.d < 256) && decide (f.a < 256) && decide (f.b < 256) && decide (f.c < 256) &&
  decide (f.mod < 256) && decide (f.imm < 2048) && decide (f.w1 < 2 ^ 64) && (f.long || f.w1 == 0)

/-- Self-test results name cores of a half. -/
def SelfTest.wf (t : SelfTest) : Bool := decide (t.badA < 2 ^ 72) && decide (t.badB < 2 ^ 72)

/-- The unit exists. -/
def StallUnit.wf : StallUnit → Bool
  | .core half c => decide (half < 16) && decide (c < 72)
  | .array half => decide (half < 16)
  | .governor half => decide (half < 16)
  | .launch half => decide (half < 16)
  | .l1 half => decide (half < 16)
  | .slice half => decide (half < 16)
  | .directory half => decide (half < 16)
  | .stack peak => decide (peak < 8)
  | .colEnd col die => decide (col < 14) && decide (die < 9)
  | .hub => true
  | .otherUnit die half => decide (die < 9) && decide (half < 2)

/-- The unit that detects the fault exists. -/
def HwFault.wf : HwFault → Bool
  | .coreStore half core => decide (half < 16) && decide (core < 72)
  | .arrayError half _ => decide (half < 16)
  | .sliceCorrected half _ way => decide (half < 16) && decide (way < 16)
  | .sliceSector half _ sector _ => decide (half < 16) && decide (sector < 4)
  | .stackSector peak _ _ => decide (peak < 8)
  | .stackTraining peak => decide (peak < 8)
  | .tagError half _ _ => decide (half < 16)
  | .tarn unit => decide (unit < 256)
  | .resetLate seq => decide (seq < 9)

/-- A group slot of a col comes on one of its nine groups (R529). -/
def GroupSlot.wf (g : GroupSlot) : Bool := decide (g.group < 9) && decide (g.slot < 9)

/-- The header fields of a packet fit their places (R735). -/
def RPkt.wf (p : RPkt) : Bool :=
  decide (p.src < 32) && decide (p.dst < 32) && decide (p.mask < 16) && decide (p.srcInc < 2 ^ 16) &&
  decide (p.dstInc < 2 ^ 16) && decide (p.seq < 2 ^ 32) && decide (p.tag < 2048) && decide (p.halfMask < 2 ^ 16) &&
  decide (p.offset < 2 ^ 64) && decide (p.hops < 256) && decide (p.data < 2 ^ 1024)

/-- A roll mark's fields fit their places (R742). -/
def RollMark.wf (m : RollMark) : Bool :=
  decide (m.origin < 32) && decide (m.inc < 2 ^ 16) && decide (m.hops < 256) && decide (m.eastNb < 256) &&
  decide (m.westNb < 256)

/-- A census token's fields fit their places (R766). -/
def Token.wf (t : Token) : Bool := decide (t.origin < 32) && decide (t.sweep < 2 ^ 16) && decide (t.inc < 2 ^ 16)

/-- The round's inputs name partitions and halves. -/
def RoundIn.wf (r : RoundIn) : Bool :=
  r.ext.all (· < 16) && r.canary.all (fun c => decide (c.1 < 16) && decide (c.2.1 < 8)) &&
  r.slow.all fun c => decide (c.1 < 16)

end Machine

/-- Every operand of the command names something that the HX8 has. -/
def Instr.wf : Instr → Bool
  | .registerWrite port func off _ => decide (port < 2) && (func < 64) && decide (off < 2 ^ 25)
  | .bar0BadAccess _ off size => decide (off < 2 ^ 25) && Machine.badAccess off size
  | .loHalfWrite port func off _ => decide (port < 2) && (func < 64) && decide (off < 2 ^ 25)
  | .hiHalfWrite port func off _ => decide (port < 2) && (func < 64) && decide (off < 2 ^ 25)
  | .selectorWrite port func off _ => decide (port < 2) && (func < 64) && decide (off < 2 ^ 25)
  | .roundBoundary inp => inp.wf
  | .hopFrameSend hop link dir turn _ => decide (hop < 7) && decide (link < Machine.linkBound hop) && decide (dir < 2) && decide (turn < 128)
  | .handshakeStall unit => unit.wf
  | .floorGateAdmit half => decide (half < 16)
  | .roundLoRead => true
  | .turnTableSelect _ => true
  | .turnTableEntryWrite _ => true
  | .j1Sample volts _ => decide (volts < 2 ^ 16)
  | .enterStandbyFromOff slot => decide (slot < 32)
  | .perstAssert => true
  | .perstDeassert slot => decide (slot < 32)
  | .slotIdCompare slot => decide (slot < 32)
  | .flowOkFall => true
  | .flowOkRise => true
  | .bypassReqAssert => true
  | .bypassReqDeassert => true
  | .pstateReqRun => true
  | .pstateReqReady => true
  | .runToReady => true
  | .converterTileFail tile => decide (tile < 24)
  | .refOscLost => true
  | .refOscRestored => true
  | .limitSample _ _ _ => true
  | .storeDataRead => true
  | .storeDataWrite _ => true
  | .inlimThrWrite _ => true
  | .bootStart => true
  | .bootStepFirmware => true
  | .bootStepHub => true
  | .bootStepWave1 passed => (passed.all fun p => decide (p.1 < 14) && decide (p.2 < 2 ^ 9))
  | .bootStepWave2 passed => (passed.all fun p => decide (p.1 < 14) && decide (p.2 < 2 ^ 9))
  | .bootStepCrossCols passed => (passed.all fun p => decide (p.1 < 14) && decide (p.2 < 2 ^ 9))
  | .bootStepHbm trained => decide (trained < 2 ^ 8)
  | .bootStepCache => true
  | .bootStepImage => true
  | .peakReportUp peak test => decide (peak < 8) && test.wf
  | .peakLagging peak => decide (peak < 8)
  | .peakSecondAttempt peak => decide (peak < 8)
  | .peakFailed peak => decide (peak < 8)
  | .resetCold key => decide (key < 2 ^ 16)
  | .resetWarm key => decide (key < 2 ^ 16)
  | .resetPartition key target => decide (key < 2 ^ 16) && decide (target < 128)
  | .resetFunctionLevel key target port => decide (key < 2 ^ 16) && decide (target < 128) && decide (port < 2)
  | .resetSequencer key target => decide (key < 2 ^ 16) && decide (target < 128)
  | .partitionResetComplete part => decide (part < 16)
  | .sequencerResetComplete seq => decide (seq < 9)
  | .flrConfig port func => decide (port < 2) && (func < 64)
  | .flrComplete port func _ _ => decide (port < 2) && (func < 64)
  | .hostHotReset port ep _ => decide (port < 2) && decide (ep < 2)
  | .vfEnableClear port ep => decide (port < 2) && decide (ep < 2)
  | .promoteFirmware => true
  | .promoteMicrocode => true
  | .promoteImage index => decide (index < 16)
  | .promoteDone => true
  | .imageLoad src index => decide (src < 2) && decide (index < 16)
  | .imageLoadDone => true
  | .imageCommit key => decide (key < 2 ^ 16)
  | .imageSelWrite _ => true
  | .imageDefaultWrite _ => true
  | .shiftSchedule => true
  | .epochMarkAck seq => decide (seq < 9)
  | .shiftAbandon => true
  | .swapStart => true
  | .partitionOpen part => decide (part < 16)
  | .swapEnd => true
  | .swapMaxRounds => true
  | .nop g f => g.wf && f.wf
  | .iadd g f => g.wf && f.wf
  | .isub g f => g.wf && f.wf
  | .imul g f => g.wf && f.wf
  | .imulhi g f => g.wf && f.wf
  | .imac g f => g.wf && f.wf
  | .imin g f => g.wf && f.wf
  | .imax g f => g.wf && f.wf
  | .and g f => g.wf && f.wf
  | .or g f => g.wf && f.wf
  | .xor g f => g.wf && f.wf
  | .shl g f => g.wf && f.wf
  | .shr g f => g.wf && f.wf
  | .bcnt g f => g.wf && f.wf
  | .lzcnt g f => g.wf && f.wf
  | .bsel g f => g.wf && f.wf
  | .icmp g f => g.wf && f.wf
  | .sel g f => g.wf && f.wf
  | .fadd g f => g.wf && f.wf
  | .fmul g f => g.wf && f.wf
  | .ffma g f => g.wf && f.wf
  | .fmin g f => g.wf && f.wf
  | .fmax g f => g.wf && f.wf
  | .fcmp g f => g.wf && f.wf
  | .fmf g f => g.wf && f.wf
  | .padd g f => g.wf && f.wf
  | .pmul g f => g.wf && f.wf
  | .pfma g f => g.wf && f.wf
  | .pmin g f => g.wf && f.wf
  | .pmax g f => g.wf && f.wf
  | .cvt g f => g.wf && f.wf
  | .cvts g f => g.wf && f.wf
  | .mov g f => g.wf && f.wf
  | .rdsr g f => g.wf && f.wf
  | .xlane g f => g.wf && f.wf
  | .lvote g f => g.wf && f.wf
  | .bra g f => g.wf && f.wf
  | .bri g f => g.wf && f.wf
  | .exit g f => g.wf && f.wf
  | .bar g f => g.wf && f.wf
  | .barComplete half core b k => decide (half < 16) && decide (core < 72) && decide (b < 64) && decide (k < 16)
  | .brk g f => g.wf && f.wf
  | .trap g f => g.wf && f.wf
  | .ld g f => g.wf && f.wf
  | .st g f => g.wf && f.wf
  | .lds g f => g.wf && f.wf
  | .sts g f => g.wf && f.wf
  | .ldc g f => g.wf && f.wf
  | .ldGn g f => g.wf && f.wf
  | .atom g f => g.wf && f.wf
  | .atoms g f => g.wf && f.wf
  | .fence g f => g.wf && f.wf
  | .mxs g f => g.wf && f.wf
  | .mxw g f => g.wf && f.wf
  | .confirmationResponse _ => true
  | .trapReport part => decide (part < 16)
  | .trapClear half => decide (half < 16)
  | .resumableFaultReport g => g.wf
  | .mfltResume half => decide (half < 16)
  | .mfltAbort half => decide (half < 16)
  | .mfltTimeout half => decide (half < 16)
  | .blockEnd half core b => decide (half < 16) && decide (core < 72) && decide (b < 64)
  | .tileAccept half => decide (half < 16)
  | .pairTimeout half => decide (half < 16)
  | .chunkStaged half => decide (half < 16)
  | .mainLoopStart half => decide (half < 16)
  | .mainLoopEnd half _ => decide (half < 16)
  | .tileComplete half => decide (half < 16)
  | .leaveGrant half => decide (half < 16)
  | .poolGrant => true
  | .limitWrite _ => true
  | .limitChange => true
  | .droopKick half row reading => decide (half < 16) && decide (row < 8) && decide (reading < 2 ^ 16)
  | .junctionWarn half temp => decide (half < 16) && decide (temp < 256)
  | .junctionHot half temp => decide (half < 16) && decide (temp < 256)
  | .junctionHotClear temps => (temps.length == 16)
  | .junctionTrip half temp => decide (half < 16) && decide (temp < 256)
  | .dryStopEnd => true
  | .dryStopTimeout => true
  | .hbmIdleSelfRefresh peak => decide (peak < 8)
  | .patrolScrub peak _ _ => decide (peak < 8)
  | .multicastCopyInstall _ => true
  | .gets _ => true
  | .getm _ => true
  | .upg _ => true
  | .fill _ => true
  | .putm _ => true
  | .pute _ => true
  | .putf _ => true
  | .rdnc _ => true
  | .wrnc _ => true
  | .atomRequest _ => true
  | .invs _ => true
  | .fwds _ => true
  | .fwdm _ => true
  | .fwdr _ => true
  | .recall _ => true
  | .data _ => true
  | .grant _ => true
  | .invack _ => true
  | .fwdack _ => true
  | .done _ => true
  | .doneack _ => true
  | .release _ => true
  | .putack _ => true
  | .wrack _ => true
  | .atomrsp _ => true
  | .nack _ => true
  | .retrySend _ => true
  | .ticketExpire half ticket => decide (half < 16) && decide (ticket < 2 ^ 16)
  | .l1HoldEnd half phys line => decide (half < 16) && decide (phys < 72) && decide (line < 2 ^ 57)
  | .colGroupSlotReceive col dir slot => decide (col < 14) && decide (dir < 2) && slot.wf
  | .colNakReceive col dir _ slot => decide (col < 14) && decide (dir < 2) && decide (slot < 9)
  | .colCreditReturn col dir returns => decide (col < 14) && decide (dir < 2) && (returns.all fun p => decide (p.1 < 2 ^ 8))
  | .colLockLoss col group => decide (col < 14) && decide (group < 9)
  | .colRetireMessage col group => decide (col < 14) && decide (group < 9)
  | .colSpareReplace col => decide (col < 14)
  | .colDegrade col => decide (col < 14)
  | .colFail col _ => decide (col < 14)
  | .colRetrainDone col group _ => decide (col < 14) && decide (group < 9)
  | .colCtlRetrain peak => decide (peak < 8)
  | .doorbellTail port func chan value => decide (port < 2) && (func < 64) && decide (chan < 4096) && decide (value < 2 ^ 32)
  | .doorbellCqHead port func chan value => decide (port < 2) && (func < 64) && decide (chan < 4096) && decide (value < 2 ^ 32)
  | .chnInval _ => true
  | .chnInvalDone => true
  | .chnEnable chan => decide (chan < 4096)
  | .chnDisable chan => decide (chan < 4096)
  | .chnFlush chan => decide (chan < 4096)
  | .chnFlushKill chan => decide (chan < 4096)
  | .flushComplete chan => decide (chan < 4096)
  | .jobPrioCmd _ => true
  | .readItems => true
  | .admitJob _ => true
  | .dispatch => true
  | .hubPhaseStart _ => true
  | .hubPhaseEnd _ => true
  | .postCompletion chan => decide (chan < 4096)
  | .priorityChange => true
  | .flush chan => decide (chan < 4096)
  | .hubPartitionReset part => decide (part < 16)
  | .storePromotion => true
  | .patchLoad => true
  | .peakPhaseStart peak _ => decide (peak < 8)
  | .tileLaunch half core => decide (half < 16) && decide (core < 72)
  | .phaseDrain peak _ => decide (peak < 8)
  | .shareUpdate peak _ => decide (peak < 8)
  | .peakPartitionReset peak part => decide (peak < 8) && decide (part < 16)
  | .colRetireReplace peak => decide (peak < 8)
  | .cleanse peak => decide (peak < 8)
  | .selfTest peak test => decide (peak < 8) && test.wf
  | .coreRemap peak => decide (peak < 8)
  | .colRetrain peak => decide (peak < 8)
  | .unknownOpcode seq => decide (seq < 9)
  | .microwordExecute seq _ => decide (seq < 9)
  | .holdRelease seq => decide (seq < 9)
  | .commandBoundary seq arrived => decide (seq < 9) && (arrived.all fun l => l.length == 4)
  | .roundWork seq => decide (seq < 9)
  | .seqInboundMessage seq => decide (seq < 9)
  | .seqWatchdog seq => decide (seq < 9)
  | .patchApplyRequest _ => true
  | .patchSwitch seq => decide (seq < 9)
  | .linkUp port ep rate lanes funcs => decide (port < 2) && decide (ep < 2) && decide (rate < 3) && decide (0 < lanes) && decide (lanes < 17) && (funcs.all fun p => decide (p.1 < 64))
  | .linkDown port ep => decide (port < 2) && decide (ep < 2)
  | .linkRetrain _ => true
  | .bar2Read port func _ n => decide (port < 2) && (func < 64) && decide (0 < n) && decide (n ≤ 4096)
  | .bar2Write port func _ bytes _ => decide (port < 2) && (func < 64) && bytes.all (· < 256)
  | .atomicopRefuse port func => decide (port < 2) && (func < 64)
  | .translationRequestRefuse port func => decide (port < 2) && (func < 64)
  | .msixUnmask port func vector => decide (port < 2) && (func < 64) && decide (vector < 2048)
  | .hostCompletion _ status bytes => decide (status < 8) && bytes.all (· < 256)
  | .hostCompletionTimeout _ => true
  | .swmInval _ => true
  | .swmInvalDone => true
  | .hostDmaStart engine _ => decide (engine < 8)
  | .hostDmaDone engine => decide (engine < 8)
  | .pstInval _ => true
  | .pstInvalDone => true
  | .pageViewRead port func ap off n => decide (port < 2) && (func < 64) && decide (ap < 64) && decide (off < 2 ^ 17) && decide (0 < n) && decide (n ≤ 4096)
  | .pageAck port func ap _ => decide (port < 2) && (func < 64) && decide (ap < 64)
  | .streamTimeout stream => decide (stream < 64)
  | .streamAbort port func ap => decide (port < 2) && (func < 64) && decide (ap < 64)
  | .ringPortUp port gen name id inc serial => decide (port < 2) && decide (gen < 3) && decide (name < 2 ^ 16) && decide (id < 32) && decide (inc < 2 ^ 16) && decide (serial < 2 ^ 32)
  | .ringPortDown port => decide (port < 2)
  | .ringTrainRetry port _ => decide (port < 2)
  | .ringFrameSend port => decide (port < 2)
  | .ringSlotReceive port _ _ _ _ pkt => decide (port < 2) && pkt.wf
  | .ringLinkNak port _ _ => decide (port < 2)
  | .ringCredit port cls count => decide (port < 2) && decide (cls < 2) && decide (count < 2 ^ 16)
  | .rollMark port mark => decide (port < 2) && mark.wf
  | .departureMark port id inc => decide (port < 2) && decide (id < 32) && decide (inc < 2 ^ 16)
  | .memberAbsent id => decide (id < 32)
  | .bypassSwitchOpen => true
  | .joinEnd => true
  | .ringDepart => true
  | .ringRejoin => true
  | .ringCfgWrite _ => true
  | .departureComplete => true
  | .ringPut => true
  | .ringGet => true
  | .ringDoorbell => true
  | .ringCrec => true
  | .ringPutAck => true
  | .ringGetData => true
  | .ringDbAck => true
  | .ringCrecAck => true
  | .ringStale => true
  | .ringRefused => true
  | .ringRetryTimer target tag => decide (target < 32) && decide (tag < 2048)
  | .ringDmaStart engine _ => decide (engine < 8)
  | .ringDmaDone engine => decide (engine < 8)
  | .censusGo => true
  | .censusToken port token => decide (port < 2) && token.wf
  | .censusTimeout => true
  | .tarnQueueTail queue _ => decide (queue < 4)
  | .passStart => true
  | .tarnBandPublish => true
  | .passEnd => true
  | .tarnGiveUp => true
  | .tarnCancel => true
  | .uartRxCharacter uart _ _ => decide (uart < 2)
  | .uartTxCharacter uart => decide (uart < 2)
  | .uartDataRead uart => decide (uart < 2)
  | .uartDataWrite uart _ => decide (uart < 2)
  | .uartCfgApply uart => decide (uart < 2)
  | .linSlotDue => true
  | .linFrameEnd back recv => back.all (· < 256) && (recv.all fun p => decide (p.1 < 256))
  | .linResponseTimeout back recv => back.all (· < 256) && (recv.all fun p => decide (p.1 < 256))
  | .consoleReadoutCommand => true
  | .consoleReadoutStop => true
  | .consoleReadoutEnd => true
  | .trstAssert => true
  | .jtagBypass => true
  | .jtagIdcode => true
  | .jtagSamplePreload _ _ cells => decide (cells < 2 ^ 13)
  | .jtagExtest _ _ cells => decide (cells < 2 ^ 13)
  | .mboxRead word => decide (word < 2 ^ 23)
  | .mboxWrite word _ => decide (word < 2 ^ 23)
  | .dbgArm halves => decide (halves < 2 ^ 16)
  | .dbgDisarm halves => decide (halves < 2 ^ 16)
  | .dbgHaltHalves halves => decide (halves < 2 ^ 16)
  | .dbgResumeHalves halves => decide (halves < 2 ^ 16)
  | .dbgStep halves slot => decide (halves < 2 ^ 16) && decide (slot < 64)
  | .dbgHaltSequencers seqs => decide (seqs < 2 ^ 9)
  | .dbgResumeSequencers seqs => decide (seqs < 2 ^ 9)
  | .jtgPolicyWrite _ => true
  | .crnFreezeCmd => true
  | .snapshotComplete => true
  | .crnPinWrite _ => true
  | .cairnRdLatch => true
  | .cairnStreamReadout _ => true
  | .cairnReadoutEnd => true
  | .faceplateUpdate => true
  | .faceplateUpdateDone => true
  | .fplUpdateRequest => true
  | .unitFaultDetect fault => fault.wf
  | .faultNotice => true
  | .faultRecordPop => true
  | .storeWriteComplete => true
  | .testLogicReset => true

end Sys2Proof
end

