-- ==== Sys2Proof/Safety.lean ====
section
/-! DEFINITION. The terms in which claims about the HX8 are made: a command that completes, what it leaves unchanged, and
the states that a run keeps to. -/

namespace Sys2Proof.Machine

/-- The command completes: it answers a next state, of which `P` holds. -/
def Does (c : Instr) (s : State) (P : State → Prop) : Prop := ∃ t, exec c s = .next t ∧ P t

/-- Nothing but the register file and the cairns differs: no memory, no queue, no engine's state. -/
def OnlyRegs (s t : State) : Prop := t = { s with regs := t.regs, crn := t.crn }

/-- Every register keeps its value, but for those of a list and the cairns' counters. -/
def RegsBut (l : List Nat) (s t : State) : Prop := ∀ a, a ∉ l → notCairnCount a → t.reg a = s.reg a

/-- A command that the HX8 discards: the state is as it was. -/
def Ignored (c : Instr) (s : State) : Prop := exec c s = .next s

/-- A BAR0 write of the control function reaches the register at offset `a`: an aligned offset outside the MSI-X table, at
which row `q` of the register tables stands (offset `r` in instance `i` of block `b`), on a peak that is up. The doorbell
pair, which every function has, is apart, and so are the base and size of a pass queue that is not empty (R805). -/
def State.reaches (s : State) (port func a : Nat) (q : RegRow) (b : Block) (i r : Nat) : Prop :=
  s.funcOk port func = true ∧ s.isPf port func = true ∧ s.isCtl port func = true ∧ a % 4 = 0 ∧ tableAt true a = none ∧
  regRow a = some q ∧ blockAt a = some (b, i, r) ∧ s.peakDown a = false ∧ a ≠ R.chnDbLo ∧ a ≠ R.chnDbHi ∧
  s.queueHeld b r = false

/-- The memories and the register file are in canonical form: addresses and offsets strictly rising, no zero byte
listed, so that equal contents are equal data. -/
def State.canonical (s : State) : Bool :=
  Mem.wf s.hbm && Mem.wf s.host && Mem.wf s.store.mem && Map.sorted s.regs

/-- Every command that waits names something that the HX8 has. -/
def State.queueOk (s : State) : Bool := s.pending.all Instr.wf

/-- The states that a run keeps to. -/
def State.Inv (s : State) : Prop := s.canonical = true ∧ s.queueOk = true

/-- What no command changes by itself: the queue's rest, and the fuses of the part. -/
def SameBase (s t : State) : Prop := t.pending = s.pending ∧ t.fuse = s.fuse

/-! ### Instructions of thread groups -/

/-- The rows of the destination fit the checkpoint space of the group's core (R519). -/
def State.rowsFit (s : State) (g : GroupRef) (f : CoreFields) (p : OpSpec) (x : Group) : Prop :=
  x.unconf = [] ∨ (((s.core g.half g.core).groups.map fun q => q.2.savedRows.length).sum +
    ((p.d.regList f.d).filter fun r => !x.savedRows.contains r).length) ≤ 512

/-- Group `x` of block `b`, at `g`, comes to an instruction whose words are `f`: the half's cores may issue, and the group is
ready with a thread active and does not stand at its reconvergence point. -/
def State.comesTo (s : State) (g : GroupRef) (f : CoreFields) (p : OpSpec) (x : Group) (b : Blk) : Prop :=
  g.wf = true ∧ f.wf = true ∧ s.mayIssue g = true ∧ s.group? g = some x ∧ s.blk? g x.block = some b ∧ x.wait = .ready ∧
  x.mask ≠ 0 ∧ (x.stack = [] ∨ x.pc ≠ x.rpc) ∧ (p.commit = true → x.unconf = []) ∧ s.rowsFit g f p x

/-- The pc lies in the kernel, on a word. -/
def Group.inKernel (x : Group) (b : Blk) : Prop := x.pc % 8 = 0 ∧ x.pc < b.kernelLen

/-- It issues it: the words are legal (R296, R298, R299) and name registers that the phase gives (R298), and the pc lies in
the kernel. -/
def State.issues (s : State) (g : GroupRef) (f : CoreFields) (p : OpSpec) (x : Group) (b : Blk) : Prop :=
  s.comesTo g f p x b ∧ x.inKernel b ∧ p.legal f = true ∧ p.inRange f x.regsPer = true

/-- Of the cores' state only group `g` differs, which is now `y`, and a step's grant; of the rest, nothing. -/
def OnlyGroup (g : GroupRef) (y : Group) (s t : State) : Prop :=
  t.group? g = some y ∧ (∀ h : GroupRef, h.core < 128 → h ≠ g → t.group? h = s.group? h) ∧
  (∀ h b, t.blk? h b = s.blk? h b) ∧ t = { s with cor := { s.cor with cores := t.cor.cores, stepOk := t.cor.stepOk } }

/-- `y` is group `x` behind its instruction, with its destination pending if the instruction read anything pending (R315);
registers, predicates and the checkpoint's rows apart. -/
def Group.after (x y : Group) (p : OpSpec) (f : CoreFields) : Prop :=
  y = { (if x.readsPending p f then x.markDest p f else x) with
    regs := y.regs, preds := y.preds, pc := x.pc + f.len, savedRows := y.savedRows }

/-- Register d of each acting lane (`k` registers as one number) takes `v`; XZ takes nothing; every other register and lane
keeps its value. -/
def Group.wrote (x y : Group) (f : CoreFields) (k : Nat) (v : Nat → Nat) : Prop :=
  (∀ l ∈ x.acting f, f.d + k ≤ 255 → y.regs' l f.d k = v l) ∧
  (∀ l r, r < 256 → (l ∉ x.acting f ∨ r < f.d ∨ f.d + k ≤ r) → y.reg l r = x.reg l r)

/-- Predicate d of each acting lane takes `v`; p7 takes nothing; every other predicate and lane keeps its value. -/
def Group.wrotePred (x y : Group) (f : CoreFields) (v : Nat → Bool) : Prop :=
  (∀ l ∈ x.acting f, f.d < 7 → y.pred l f.d = v l) ∧
  (∀ l q, (l ∉ x.acting f ∨ q ≠ f.d) → y.pred l q = x.pred l q)

/-- The instruction gives each acting lane `v` in register d and changes nothing else. -/
def Writes (g : GroupRef) (f : CoreFields) (p : OpSpec) (x : Group) (k : Nat) (v : Nat → Nat) (s t : State) : Prop :=
  ∃ y, OnlyGroup g y s t ∧ x.after y p f ∧ y.preds = x.preds ∧ x.wrote y f k v

/-- The instruction gives each acting lane `v` in predicate d and changes nothing else. -/
def WritesPred (g : GroupRef) (f : CoreFields) (p : OpSpec) (x : Group) (v : Nat → Bool) (s t : State) : Prop :=
  ∃ y, OnlyGroup g y s t ∧ x.after y p f ∧ y.regs = x.regs ∧ x.wrotePred y f v

/-- The group stops at its instruction with a trap; nothing else changes. -/
def Traps (g : GroupRef) (x : Group) (code user lanes : Nat) (s t : State) : Prop :=
  ∃ y, OnlyGroup g y s t ∧ y = { x with wait := .trap, trap := some { code := code, user := user, lanes := lanes, turn := s.absTurn }, savedRows := y.savedRows }

/-- An FP instruction: the flags of every acting lane become sticky; with no enabled trap met each acting lane takes its
result in register d, otherwise the group stops with FP (R321, R322), once it has no unconfirmed load (R323). -/
def FpWrites (g : GroupRef) (f : CoreFields) (p : OpSpec) (x : Group) (b : Blk) (k : Nat) (r : Nat → Nat × FFlags)
    (s t : State) : Prop :=
  let rs := (x.acting f).map fun l => (l, r l)
  (trapLanes b.fpTrap rs = [] → Writes g f p x k (fun l => (r l).1 % 2 ^ (32 * k)) (s.stickFp g.half (flagsOf rs)) t) ∧
  (trapLanes b.fpTrap rs ≠ [] → x.unconf = [] →
    Traps g x 0x0C 0 (maskOf (trapLanes b.fpTrap rs)) (s.stickFp g.half (flagsOf rs)) t)

/-- The same with a predicate destination. -/
def FpWritesPred (g : GroupRef) (f : CoreFields) (p : OpSpec) (x : Group) (b : Blk) (r : Nat → Bool × FFlags)
    (s t : State) : Prop :=
  let rs := (x.acting f).map fun l => (l, ((r l).1.toNat, (r l).2))
  (trapLanes b.fpTrap rs = [] → WritesPred g f p x (fun l => (r l).1) (s.stickFp g.half (flagsOf rs)) t) ∧
  (trapLanes b.fpTrap rs ≠ [] → x.unconf = [] →
    Traps g x 0x0C 0 (maskOf (trapLanes b.fpTrap rs)) (s.stickFp g.half (flagsOf rs)) t)

/-- Of the cores' state only group `g`, now `y`, and the block whose first slot is `k`, now `b`, differ; of the rest,
nothing. -/
def OnlyBlock (g : GroupRef) (y : Group) (k : Nat) (b : Blk) (s t : State) : Prop :=
  t.group? g = some y ∧ t.blk? g k = some b ∧ (∀ h : GroupRef, h.core < 128 → h ≠ g → t.group? h = s.group? h) ∧
  (∀ (h : GroupRef) (j : Nat), h.core < 128 → (h.half ≠ g.half ∨ h.core ≠ g.core ∨ j ≠ k) → t.blk? h j = s.blk? h j) ∧
  t = { s with cor := { s.cor with cores := t.cor.cores, stepOk := t.cor.stepOk } }

/-- The words of BRA and BRI, EXIT, BAR, BRK and TRAP. -/
def ctlSpec (a : Field) (fmt : Fmt) (imm noGuard commit modOk : Bool) : OpSpec :=
  { OpSpec.alu .unused a .unused .unused modOk with fmt := fmt, imm := imm, noGuard := noGuard, commit := commit }

/-- What the words of the integer instructions may hold (R294 to R300). -/
def intRows (g : GroupRef) (f : CoreFields) : List (Instr × OpSpec) :=
  [
   (.nop g f, .alu .unused .unused .unused .unused (f.mod == 0)),
   (.iadd g f, intSpec f true false (decide (f.mod < 2))),
   (.isub g f, intSpec f true false (decide (f.mod < 2))),
   (.imul g f, intSpec f true false (decide (f.mod < 2))),
   (.imulhi g f, intSpec f true false (decide (f.mod < 4))),
   (.imin g f, intSpec f true false (decide (f.mod < 4))),
   (.imax g f, intSpec f true false (decide (f.mod < 4))),
   (.and g f, intSpec f true false (decide (f.mod < 2))),
   (.or g f, intSpec f true false (decide (f.mod < 2))),
   (.xor g f, intSpec f true false (decide (f.mod < 2))),
   (.shl g f, intSpec f true false (decide (f.mod < 2))),
   (.shr g f, intSpec f true false (decide (f.mod < 4))),
   (.imac g f, intSpec f true true (decide (f.mod < 2))),
   (.bcnt g f, intSpec f false false (decide (f.mod < 2))),
   (.lzcnt g f, intSpec f false false (decide (f.mod < 2))),
   (.bsel g f, .alu (.regs 1) (.regs 1) (.regs 1) (.regs 1) (f.mod == 0)),
   (.icmp g f, .alu .pred (.regs (wide f)) (.regs (wide f)) .unused (decide (f.mod < 32) && decide (bits f.mod 4 2 < 6))),
   (.sel g f, .alu (.regs (wide f)) (.regs (wide f)) (.regs (wide f)) .pred (decide (f.mod < 2)))]

/-- What those of the floating-point, packed and conversion instructions may hold. -/
def fpRows (g : GroupRef) (f : CoreFields) : List (Instr × OpSpec) :=
  [
   (.fadd g f, .alu (.regs 1) (.regs 1) (.regs 1) .unused (decide (f.mod < 8))),
   (.fmul g f, .alu (.regs 1) (.regs 1) (.regs 1) .unused (decide (f.mod < 8))),
   (.fmin g f, .alu (.regs 1) (.regs 1) (.regs 1) .unused (decide (f.mod < 8))),
   (.fmax g f, .alu (.regs 1) (.regs 1) (.regs 1) .unused (decide (f.mod < 8))),
   (.ffma g f, .alu (.regs 1) (.regs 1) (.regs 1) (.regs 1) (decide (f.mod < 8))),
   (.fcmp g f, .alu .pred (.regs 1) (.regs 1) .unused (decide (f.mod < 64))),
   (.fmf g f, .alu (.regs 1) (.regs 1) .unused .unused (decide (f.mod < 64) && decide (bits f.mod 5 3 < 7) && (bits f.mod 5 3 == 0 || bits f.mod 5 3 == 2 || rmOf f == 0))),
   (.padd g f, .alu (.regs 1) (.regs 1) (.regs 1) .unused (decide (f.mod < 2))),
   (.pmul g f, .alu (.regs 1) (.regs 1) (.regs 1) .unused (decide (f.mod < 2))),
   (.pmin g f, .alu (.regs 1) (.regs 1) (.regs 1) .unused (decide (f.mod < 2))),
   (.pmax g f, .alu (.regs 1) (.regs 1) (.regs 1) .unused (decide (f.mod < 2))),
   (.pfma g f, .alu (.regs 1) (.regs 1) (.regs 1) (.regs 1) (decide (f.mod < 2))),
   (.cvt g f, .alu (.regs (cvtRegs (bits f.mod 7 4))) (.regs (cvtRegs (bits f.mod 3 0))) .unused .unused (decide (bits f.mod 3 0 < 13) && decide (bits f.mod 7 4 < 13))),
   (.cvts g f, .alu (.regs (cvtRegs (bits f.mod 7 4))) (.regs (cvtRegs (bits f.mod 3 0))) .unused .unused (decide (bits f.mod 3 0 < 13) && decide (bits f.mod 7 4 < 13)))]

/-- What those of the move, lane, control and memory instructions may hold; LD.Gn has further conditions of its own (R304). -/
def otherRows (g : GroupRef) (f : CoreFields) : List (Instr × OpSpec) :=
  [
   (.mov g f, { OpSpec.alu (.regs (wide f)) .unused (.regs (wide f)) .unused (decide (f.mod < 2)) with imm64 := bit f.mod 0 }),
   (.rdsr g f, .alu (.regs (if f.mod = 6 || f.mod = 7 then 2 else 1)) .unused .unused .unused (decide (f.mod ≤ 14))),
   (.xlane g f, .alu (.regs 1) (.regs 1) (.regs 1) .unused (decide (f.mod < 4))),
   (.lvote g f, .alu (if f.mod = 2 then .regs 1 else .pred) .pred .unused .unused (decide (f.mod < 3))),
   (.bra g f, ctlSpec .unused .b false false false (f.mod == 0)),
   (.bri g f, ctlSpec (.regs 1) .bri false false false (f.mod == 0)),
   (.exit g f, ctlSpec .unused .r false false true (f.mod == 0)),
   (.bar g f, ctlSpec .unused .r true true true (f.mod == 0 && decide (f.imm < 16))),
   (.brk g f, ctlSpec .unused .r false false true (f.mod == 0)),
   (.trap g f, ctlSpec .unused .r true false true (f.mod == 0)),
   (.fence g f, ctlSpec .unused .r false true true (decide (f.mod < 4))),
   (.mxs g f, ctlSpec (.regs 2) .r false false true (f.mod == 0)),
   (.mxw g f, ctlSpec .unused .r false false false (f.mod == 0)),
   (.ld g f, memSpec (.regs (sizeRegs (bits f.mod 2 0))) .unused .unused 2 (memModOk f.mod) false true),
   (.st g f, memSpec .unused (.regs (sizeRegs (bits f.mod 2 0))) .unused 2 (memModOk f.mod) true false),
   (.ldc g f, memSpec (.regs (sizeRegs (bits f.mod 2 0))) .unused .unused 2 (f.mod == 4 || f.mod == 5 || f.mod == 6) false true),
   (.lds g f, memSpec (.regs (sizeRegs (bits f.mod 2 0))) .unused .unused 1 (decide (f.mod < 7)) false false),
   (.sts g f, memSpec .unused (.regs (sizeRegs (bits f.mod 2 0))) .unused 1 (decide (f.mod < 7)) true false),
   (.atom g f, atomSpec f (if bit f.mod 4 then 2 else 1) 2 (atomModOk f.mod)),
   (.atoms g f, atomSpec f 1 1 (atomModOk f.mod && decide (bits f.mod 3 0 < 8) && !bit f.mod 4 && !bit f.mod 6))]

/-- Bytes that some lanes store, `n` from an address each, laid over older ones: where lanes overlap the highest wins
(R331); a byte that no lane stores is the older one. -/
def Overlays (lanes : List Nat) (addr val : Nat → Nat) (n : Nat) (old new : Nat → Nat) : Prop :=
  ∀ a, (∀ l ∈ lanes, addr l ≤ a → a < addr l + n → (∀ h ∈ lanes, l < h → a < addr h ∨ addr h + n ≤ a) →
      new a = val l / 256 ^ (a - addr l) % 256) ∧
    ((∀ l ∈ lanes, a < addr l ∨ addr l + n ≤ a) → new a = old a)

/-- Message `m` was put under way at the next number, whatever stage it stands in (R466, R557). -/
def Sends (m : CohMsg) (s t : State) : Prop := ∃ st, t.msg? s.mem.nextMsg = some { m with stage := st }

/-! ### Messages of the protocol -/

/-- Message `n` of a kind is under way, and the units run. -/
def State.arrives (s : State) (kind : MsgKind) (n : Nat) (m : CohMsg) : Prop :=
  s.unitsRun = true ∧ s.msgOf n kind = some m

/-- The arbiter of home `h` orders request `m`: it has or takes an entry, no transaction is open on its line and no earlier
request for the line waits; the line is not poisoned. -/
def State.orders (s : State) (kind : MsgKind) (n : Nat) (m : CohMsg) (h : Nat) : Prop :=
  s.arrives kind n m ∧ m.dst = .home h ∧ h < 16 ∧ s.homeOf m.line = h ∧ m.line ∉ s.flt.poison ∧
  (s.letIn h n m).2 = true ∧ (s.letIn h n m).1.canServe h n m.line = true

/-- Line data `d` holds the bytes that slice or stack hold of some sectors of a line that no L1 owns. -/
def State.holdsBytes (s : State) (line mask d : Nat) : Prop :=
  ∀ i, i < 128 → bit mask (i / 32) = true → lineGet d i 1 = s.deviceByte (line * 128 + i)

/-- The messages of a list were put under way in order from number `n` on. -/
def SentFrom (n : Nat) (l : List CohMsg) (t : State) : Prop :=
  ∀ i m, l[i]? = some m → ∃ st, t.msg? (n + i) = some { m with stage := st }

/-- The directory has an entry for a line, or room for one (R434). -/
def State.dirHasRoom (s : State) (line : Nat) : Prop := (s.dirEntry line).isSome = true ∨ (s.dirSet line).length < 16

/-- Core `k` receives message `m` of a kind, no FwdR sent to it earlier for the line being under way (R164). -/
def State.receives (s : State) (kind : MsgKind) (n : Nat) (m : CohMsg) (k : Nat) : Prop :=
  s.arrives kind n m ∧ m.dst = .core k ∧ s.behindFwdR n m = false

end Sys2Proof.Machine
end

