-- ==== Sys2Proof/Certificates/Slice0/Obligations.lean ====
section
/-! DEFINITION. What is claimed of the HX8's model: one definition per statement. A statement about every state also
holds in states that no run reaches, unless an invariant is a premise. -/

open Sys2Proof Sys2Proof.Machine

/-- A step performs the command at the front of the queue; an empty queue idles (1. Planned Operation). -/
def Obligations.StepTakesFrontCommand : Prop :=
  ∀ (c : Instr) (cs : List Instr) (s : State),
    (s.pending = c :: cs → step s = exec c { s with pending := cs }) ∧ (s.pending = [] → step s = .next s)

/-- Every command completes in every state (1. Planned Operation). -/
def Obligations.EveryCommandCompletes : Prop :=
  ∀ (c : Instr) (s : State), ∃ t, exec c s = .next t

/-- Every step takes exactly one command off the queue and leaves the fuses of the part as they are (5. Power-Up, Reset and Boot). -/
def Obligations.StepKeepsQueueAndFuses : Prop :=
  ∀ s t : State, step s = .next t → t.pending = s.pending.drop 1 ∧ t.fuse = s.fuse

/-- Every step keeps the memories and the register file in canonical form and the queue well formed (11. The Unified Cache). -/
def Obligations.StepKeepsInvariant : Prop :=
  ∀ s t : State, s.Inv → step s = .next t → t.Inv

/-- The state after reset has the invariant (5. Power-Up, Reset and Boot). -/
def Obligations.ResetHasInvariant : Prop :=
  State.reset.Inv

/-- A BAR0 write of the control function sets each bit of a plain register by its access type (R8, R10, R12, R696). -/
def Obligations.RegisterWriteByAccessType : Prop :=
  (∀ (port func a i r : Nat) (v : Word) (b : Block) (q : RegRow) (s : State), s.reaches port func a q b i r →
      q.group = .none → isLo b r = false → (4 ≤ r → isLo b (r - 4) = false) → s.ownWrite b i r v.toNat = none →
      Does (.registerWrite port func a v) s fun t =>
        (∀ k, k < 32 → bit (t.reg a) k =
          if bit q.rwl k then (if s.locked then bit (s.reg a) k else bit v.toNat k)
          else if bit q.w1c k then bit (s.reg a) k && !bit v.toNat k
          else if bit q.rw k then bit v.toNat k else bit (s.reg a) k) ∧
        RegsBut [a] s t ∧ OnlyRegs s t) ∧
    (∀ (port func a : Nat) (v : Word) (s : State), s.funcOk port func = true → s.isPf port func = true →
      s.isCtl port func = false → a % 4 = 0 → tableAt true a = none → a ≠ R.chnDbLo → a ≠ R.chnDbHi →
      Does (.registerWrite port func a v) s fun t => RegsBut [] s t ∧ OnlyRegs s t)

/-- Low halves are held, high halves apply the pair, selections wait for the boundary, bad accesses do nothing (R5, R6, R7, R38, R40). -/
def Obligations.PairAndSelectorWrites : Prop :=
  (∀ (port func a i r : Nat) (v : Word) (b : Block) (q : RegRow) (s : State), s.reaches port func a q b i r →
      isLo b r = true → s.pairOpen b r = true →
      exec (.loHalfWrite port func a v) s = .next { s with staged := Map.set s.staged a v }) ∧
    (∀ (port func a i r : Nat) (v : Word) (b : Block) (p q : RegRow) (s : State), s.reaches port func a q b i r →
      4 ≤ a → 4 ≤ r → isLo b r = false → isLo b (r - 4) = true → s.pairOpen b (r - 4) = true → regRow (a - 4) = some p →
      Does (.hiHalfWrite port func a v) s fun t =>
        t.reg (a - 4) = blend p.rw (s.reg (a - 4)) (s.stagedOf (a - 4) (s.reg (a - 4))) % 2 ^ 32 ∧
        t.reg a = blend q.rw (s.reg a) v.toNat % 2 ^ 32 ∧ Map.get? t.staged (a - 4) = none ∧
        (∀ x, x ≠ a → x ≠ a - 4 → t.reg x = s.reg x) ∧ t = { s with regs := t.regs, staged := t.staged }) ∧
    (∀ (port func a i r : Nat) (v : Word) (b : Block) (q : RegRow) (s : State), s.reaches port func a q b i r →
      isLo b r = false → (4 ≤ r → isLo b (r - 4) = false) → s.ownWrite b i r v.toNat = none → q.expert = false →
      q.group ∉ [.none, .inlim, .pwr, .seq, .hpt, .rng, .uc] → s.rnd.running = true →
      exec (.selectorWrite port func a v) s = .next
        (match s.stock q.group i (v.toNat % 16) with
         | some _ => { s with delayed := s.delayed ++ [(a, BitVec.ofNat 32 (v.toNat % 16))] }
         | none => s)) ∧
    (∀ (off size : Nat) (s : State), badAccess off size = true →
      Ignored (.bar0BadAccess true off size) s ∧
      Does (.bar0BadAccess false off size) s fun t => t.answer = 2 ^ (8 * size) - 1 ∧ t.regs = s.regs)

/-- A read of RND_ROUND_LO returns the low half of the round number and latches the high half (R175). -/
def Obligations.RoundNumberReadLatchesHighHalf : Prop :=
  ∀ s : State, Does .roundLoRead s fun t =>
    t.answer = s.rnd.round % 2 ^ 32 ∧ t.rnd = { s.rnd with latchedHi := s.rnd.round / 2 ^ 32 % 2 ^ 32 } ∧
    t = { s with rnd := t.rnd, answer := t.answer } ∧ (t.readReg R.rndRoundHi).answer = s.rnd.round / 2 ^ 32 % 2 ^ 32

/-- The round boundary, frames, stalls, floor gates and turn-table writes (R127, R128, R146, R151, R165, R174, R241, R920). -/
def Obligations.RoundsAndTurnTables : Prop :=
  (∀ (inp : RoundIn) (s : State), s.rnd.running = true →
      Does (.roundBoundary inp) s fun t => t.rnd.round = s.rnd.round + 1 ∧ t.rnd.turn = 0 ∧ t.rnd.running = true) ∧
    (∀ (link dir : Nat) (m : HopMsg) (s : State), s.unitsRun = true → s.rnd.running = true → link < 8 →
      s.waitingAt (hopKey 0 link dir) = [] → m.lane = .openTraffic → m.units 16 ≤ 640 →
      Does (.hopFrameSend 0 link dir s.rnd.turn [m]) s fun t =>
        Map.get? t.rnd.sent (hopKey 0 link dir) = some [m] ∧ t.waitingAt (hopKey 0 link dir) = []) ∧
    (∀ (u : StallUnit) (s : State), s.unitsRun = true → u.wf = true → u.heldBack s = false →
      Does (.handshakeStall u) s fun t =>
        t.flag R.rndStall u.place.1 = true ∧
        ∃ n, t.flt.notices = s.flt.notices ++ [n] ∧ n.kind = u.place.2.2.1 ∧ n.die = u.place.2.1 ∧ n.code = 0x0302) ∧
    (∀ (h n : Nat) (ns : List Nat) (m : CohMsg) (s : State), s.unitsRun = true → s.atGate h = n :: ns →
      s.gateOpen h = true → s.msg? n = some m →
      Does (.floorGateAdmit h) s fun t =>
        t.atGate h = ns ∧ t.floorReads h = s.floorReads h ++ [(m.tag, m.line)]) ∧
    (∀ (v : Word) (s : State),
      (3 ≤ v.toNat % 16 → Ignored (.turnTableSelect v) s) ∧
      (v.toNat % 16 < 3 → s.locked = false → s.rnd.running = true →
        exec (.turnTableSelect v) s = .next { s with delayed := s.delayed ++ [(R.rndTtSel, v)] })) ∧
    (∀ (hop link dir bank slot : Nat) (v : Word) (s : State),
      s.reg R.rndTtAddr = slot + 2 ^ 7 * link + 2 ^ 12 * hop + 2 ^ 15 * dir + 2 ^ 16 * bank → slot < 128 → link < 32 → hop < 8 →
      dir < 2 → bank < 2 → link < linkCount hop → s.locked = false → bank ≠ s.bank →
      Does (.turnTableEntryWrite v) s fun t =>
        t.ttEntry bank hop link dir slot = v.toNat % 256 ∧
        (∀ x, x < 128 → x ≠ slot → t.ttEntry bank hop link dir x = s.ttEntry bank hop link dir x) ∧
        t.fld R.rndTtSel 3 0 = 0xF)

/-- J1 samples, entry to Standby, PERST# and SLOT_ID (R80, R81, R93, R94, R96, R98, R176, R201, R209). -/
def Obligations.J1SamplesAndStandbyEntry : Prop :=
  (∀ (v p : Nat) (s : State), s.mod.power = .run → 3000 ≤ v →
      25 * s.fld R.glbInlimThr 7 0 ≤ v → 25 * s.fld R.glbInlimThr 15 8 ≤ v →
      v ≤ 25 * s.fld R.glbInlimThr 23 16 → v ≤ 25 * s.fld R.glbInlimThr 31 24 →
      exec (.j1Sample v p) s = .next { s with mod := { s.mod with
        islandUs := s.mod.islandUs + 1, volts := (v :: s.mod.volts).take 1000, pips := (p :: s.mod.pips).take 1000,
        uvWarnRun := 0, uvTripRun := 0, ovWarnRun := 0, ovTripRun := 0, offRun := 0 } }) ∧
    (∀ (v p : Nat) (s : State), s.mod.power = .run → s.mod.toStandby ≠ some .powerLoss → 3000 ≤ v →
      v < 25 * s.fld R.glbInlimThr 15 8 → s.mod.uvTripRun = 10 →
      Does (.j1Sample v p) s fun t => t.mod.toStandby = some .powerLoss ∧ t.mod.powerLossHold = true ∧ t.pwr.halted = true) ∧
    (∀ (slot : Nat) (s : State), s.mod.power = .off → 10001 ≤ s.mod.coldRun →
      Does (.enterStandbyFromOff slot) s fun t =>
        t.mod.power = .standby ∧ t.mod.slotId = slot ∧ t.mod.islandUs = 0 ∧ t.hbm = [] ∧ t.jobs = .reset ∧ t.mem = .reset ∧
        t.rnd = .reset) ∧
    (∀ s : State, s.mod.power = .run → s.mod.toStandby ≠ some .powerLoss → s.crn.snap = none →
      Does .perstAssert s fun t => t.mod.power = .standby ∧ t.mod.perst = true ∧ t.hbm = [] ∧ t.cor = .reset ∧ t.rng = .reset) ∧
    (∀ s : State, s.mod.power = .run → s.mod.toStandby ≠ some .powerLoss → s.crn.snap.isSome = true →
      Does .perstAssert s fun t => t.mod.toStandby = some .perst ∧ t.mod.power = .run) ∧
    (∀ (slot : Nat) (s : State), s.mod.power ≠ .off → slot < 32 →
      Does (.perstDeassert slot) s fun t =>
        t.mod.slotId = slot ∧ t.mod.perst = false ∧ t.fld R.glbModPins 8 4 = slot ∧ RegsBut [R.glbModPins] s t) ∧
    (∀ (slot : Nat) (s : State), s.mod.power ≠ .off → slot ≠ s.mod.slotId →
      Does (.slotIdCompare slot) s fun t => t.flag R.glbModEvent 6 = true ∧ RegsBut [R.glbModEvent] s t)

/-- FLOW_OK, BYPASS_REQ#, power state requests, converter tiles and the oscillator (R89, R90, R98, R99, R106, R107, R113, R119, R122, R641, R642, R749). -/
def Obligations.ModuleContactsAndPowerStates : Prop :=
  (∀ s : State, s.mod.power = .run → s.boot.running = false → s.pwr.halted = false → s.flag R.fltStatus 0 = false →
      Does .flowOkFall s fun t =>
        t.mod.flowOk = false ∧ t.pwr.dry = some (.flow, s.mod.islandUs) ∧ t.pwr.halted = true ∧
        t.flag R.glbModEvent 0 = true ∧ t.flag R.glbModPins 0 = false) ∧
    (∀ s : State, s.mod.power ≠ .off → s.pwr.dry = none →
      Does .flowOkRise s fun t =>
        t.mod = { s.mod with flowOk := true, flowHighSince := some s.mod.islandUs } ∧ t.flag R.glbModPins 0 = true ∧
        t.flag R.glbModEvent 1 = true ∧ RegsBut [R.glbModPins, R.glbModEvent] s t) ∧
    (∀ s : State, s.mod.power = .run → s.rng.departing = none →
      Does .bypassReqAssert s fun t => t.mod.bypassReq = true ∧ t.rng.departing = some .bypass) ∧
    (∀ s : State, s.mod.power = .run → s.rng.departing = some .bypass →
      Does .bypassReqDeassert s fun t => t.mod.bypassReq = false ∧ t.rng.departing = none ∧ t.flag R.glbModPins 1 = false) ∧
    (∀ s : State, s.mod.power = .ready → s.mod.flowOk = true →
      Does .pstateReqRun s fun t => t.mod.power = .run ∧ t.fld R.glbPstate 1 0 = PowerState.run.code) ∧
    (∀ s : State, s.mod.power = .run →
      exec .pstateReqReady s = .next { s with mod := { s.mod with readyReq := true } }) ∧
    (∀ s : State, s.mod.power = .run → s.mod.readyReq = true → s.jobs.holder = [] → s.unitsRun = true → s.seqRuns 8 = true →
      Does .runToReady s fun t => t.mod.power = .ready ∧ t.mod.readyReq = false ∧ t.fld R.glbPstate 1 0 = PowerState.ready.code) ∧
    (∀ (tile : Nat) (s : State), s.mod.power = .standby → tile < 24 →
      Does (.converterTileFail tile) s fun t =>
        bit t.mod.tiles tile = false ∧ t.reg R.glbConvCap = convCap t.mod.tiles % 2 ^ 32 ∧ t.flag R.glbModEvent 8 = true ∧
        RegsBut [R.glbConv, R.glbConvCap, R.glbModEvent] s t) ∧
    (∀ s : State, s.mod.power ≠ .off → s.flag R.glbOsc 1 = false →
      Does .refOscLost s fun t => t.reg R.glbOsc = 2 ∧ t.rnd.running = false ∧ t.flag R.glbModEvent 9 = true) ∧
    (∀ s : State, s.flag R.glbOsc 1 = true →
      Does .refOscRestored s fun t => t.reg R.glbOsc = 1 ∧ t.rnd = s.rnd ∧ RegsBut [R.glbOsc] s t) ∧
    (∀ (i o l : Int) (s : State), s.mod.power = .standby →
      Does (.limitSample i o l) s fun t =>
        t.reg R.glbTemp = shownTemp i + 256 * shownTemp o + 65536 * shownTemp l ∧ OnlyRegs s t ∧
        RegsBut [R.glbTemp] s t)

/-- The store window reads and writes words, and the input thresholds are checked (R116, R117, R124, R125). -/
def Obligations.StoreWindowAndThresholds : Prop :=
  (∀ s : State, s.store.writing = none →
      Does .storeDataRead s fun t =>
        t.answer = Mem.readLE s.store.mem (4 * s.fld R.glbStoreAddr 25 2) 4 ∧ t.store = s.store ∧
        t.fld R.glbStoreAddr 25 2 = (s.fld R.glbStoreAddr 25 2 + 1) % 2 ^ 24 ∧ RegsBut [R.glbStoreAddr] s t) ∧
    (∀ (v : Word) (s : State), 0x01500000 ≤ 4 * s.fld R.glbStoreAddr 25 2 → 4 * s.fld R.glbStoreAddr 25 2 < 0x02100000 →
      s.store.writing = none → s.store.promo = none →
      Does (.storeDataWrite v) s fun t =>
        t.store = { s.store with writing := some (4 * s.fld R.glbStoreAddr 25 2, v.toNat) } ∧
        t.flag R.glbStoreStatus 0 = true ∧ RegsBut [R.glbStoreAddr, R.glbStoreStatus] s t) ∧
    (∀ (v : Word) (s : State), (4 * s.fld R.glbStoreAddr 25 2 < 0x01500000 ∨ 0x02100000 ≤ 4 * s.fld R.glbStoreAddr 25 2) →
      Does (.storeDataWrite v) s fun t => t.store = s.store ∧ t.flag R.glbStoreStatus 1 = true) ∧
    (∀ (a v : Nat) (s : State), s.store.writing = some (a, v) →
      Does .storeWriteComplete s fun t =>
        Mem.readLE t.store.mem a 4 = v % 2 ^ 32 ∧
        (∀ b, b < a ∨ a + 4 ≤ b → Mem.read t.store.mem b = Mem.read s.store.mem b) ∧ t.store.writing = none ∧
        t.flag R.glbStoreStatus 0 = false ∧ RegsBut [R.glbStoreStatus] s t) ∧
    (∀ (v : Word) (s : State), thrOk v.toNat = false →
      Does (.inlimThrWrite v) s fun t => RegsBut [] s t ∧ t.delayed = s.delayed ∧ OnlyRegs s t) ∧
    (∀ (v : Word) (s : State), thrOk v.toNat = true → s.mod.power = .standby →
      Does (.inlimThrWrite v) s fun t => t.reg R.glbInlimThr = v.toNat ∧ t.fld R.glbInlim 3 0 = 0xF)

/-- Writes and changes of the limit, leave grants, droop kicks and junction temperatures (R605, R615, R619, R621, R622, R630, R638, R639). -/
def Obligations.PowerLimitsAndLeave : Prop :=
  (∀ (v : Word) (s : State), bits v.toNat 11 0 < 800 →
      Does (.limitWrite v) s fun t => RegsBut [] s t ∧ t.delayed = s.delayed ∧ OnlyRegs s t) ∧
    (∀ (v : Word) (s : State), 800 ≤ bits v.toNat 11 0 → s.inSwap = false → s.rnd.running = true →
      Does (.limitWrite v) s fun t =>
        t.delayed = s.delayed ++ [(R.pwrLimit, BitVec.ofNat 32 (min (bits v.toNat 11 0) 2800))] ∧ t.fld R.pwrSel 3 0 = 0xF ∧
        RegsBut [R.pwrSel] s t) ∧
    (∀ s : State, Does .limitChange s fun t => t.limit = s.limitNow) ∧
    (∀ (h : Nat) (d : Draw) (l : List Draw) (s : State), s.unitsRun = true → Map.get? s.arr h = none → h < 16 →
      s.drawsOf h = d :: l → d.st = .waiting → (∀ x ∈ l, x.st ≠ .paused) → drawnTotal (d :: l) + d.pips ≤ s.shareOf h →
      Does (.leaveGrant h) s fun t => t.drawGranted h d.unit = true) ∧
    (∀ (r : PoolReq) (l : List PoolReq) (s : State), s.pwr.pool = r :: l → r.granted = false → s.unitsRun = true →
      s.flag R.pwrState 15 = false → poolGranted s.pwr.pool + r.pips ≤ s.poolSize →
      exec .poolGrant s = .next
          ((s.setPool (s.pwr.pool.map fun x => if x = r then { x with granted := true } else x)).poolGo r.user) ∧
        (s.setPool (s.pwr.pool.map fun x => if x = r then { x with granted := true } else x)).poolHas r.user = true) ∧
    (∀ (h row v : Nat) (s : State), h < 16 →
      (150 ≤ v → Ignored (.droopKick h row v) s) ∧
      (v < 150 → Does (.droopKick h row v) s fun t =>
        t.fld (R.govRail h) 9 0 = min 850 (s.fld (R.govRail h) 9 0 + 25) ∧ t.flag R.pwrEvent 2 = true ∧
        t.reg (R.govDroop h) = min (s.reg (R.govDroop h) + 1) (2 ^ 32 - 1) ∧
        RegsBut [R.govRail h, R.govDroop h, R.pwrEvent] s t)) ∧
    (∀ (h c : Nat) (s : State), h < 16 → c < 256 → s.fld R.pwrCfg 19 12 ≤ c → s.pwr.warned.contains h = false →
      Does (.junctionWarn h c) s fun t =>
        t.flag R.pwrEvent 5 = true ∧ t.fld (R.govTemp h) 7 0 = c ∧ t.pwr.warned = h :: s.pwr.warned ∧
        RegsBut [R.pwrEvent, R.govTemp h] s t) ∧
    (∀ (h c : Nat) (s : State), h < 16 → c < 256 → s.fld R.pwrCfg 27 20 ≤ c →
      Does (.junctionHot h c) s fun t =>
        t.flag R.pwrState 15 = true ∧ t.flag R.pwrEvent 6 = true ∧
        t.pwr.pool = s.pwr.pool.map (fun r => { r with granted := false }) ∧ t.fld (R.govTemp h) 7 0 = c) ∧
    (∀ (l : List Nat) (s : State), l.length = 16 → (∀ c ∈ l, c < s.fld R.pwrCfg 19 12) →
      Does (.junctionHotClear l) s fun t => t.flag R.pwrState 15 = false ∧ t.pwr.pool = s.pwr.pool)

/-- Thermal trips, the end and the timeout of a flow dry stop, and idle stacks (R457, R640, R641, R642, R645, R646, R647). -/
def Obligations.DryStops : Prop :=
  (∀ (h c : Nat) (s : State), h < 16 → 115 ≤ c → c < 256 → s.mod.power = .run → s.pwr.dry = none → s.pwr.halted = false →
      s.flag R.fltStatus 0 = false →
      Does (.junctionTrip h c) s fun t =>
        t.pwr.dry = some (.thermal, s.mod.islandUs) ∧ t.pwr.halted = true ∧ t.flag R.pwrEvent 7 = true ∧
        t.fld R.pwrState 14 13 = 2) ∧
    (∀ (since : Nat) (s : State), s.pwr.dry = some (.flow, since) → s.pwr.dryEnding = true →
      Does .dryStopEnd s fun t => t.pwr.dry = none ∧ t.pwr.halted = false ∧ t.fld R.pwrState 14 13 = 0) ∧
    (∀ (since : Nat) (s : State), s.pwr.dry = some (.flow, since) → s.pwr.dryEnding = false →
      since + 2000000 ≤ s.mod.islandUs → s.mod.toStandby = none → s.crn.snap = none → s.mod.perst = false →
      Does .dryStopTimeout s fun t => t.mod.power = .standby ∧ t.mod.dryHold = true ∧ t.hbm = [] ∧ t.jobs = .reset) ∧
    (∀ (since : Nat) (s : State), s.pwr.dry = some (.flow, since) → s.pwr.dryEnding = false →
      since + 2000000 ≤ s.mod.islandUs → s.mod.toStandby = none → s.crn.snap.isSome = true →
      exec .dryStopTimeout s = .next { s with mod := { s.mod with toStandby := some .dryStop } }) ∧
    (∀ (n : Nat) (s : State), n < 8 → s.mod.power = .ready → s.fld (R.ucHbmState n) 1 0 = 1 →
      Map.getD s.mem.stackUse n 0 + 1000 ≤ s.mod.islandUs →
      Does (.hbmIdleSelfRefresh n) s fun t => t.fld (R.ucHbmState n) 1 0 = 2 ∧ RegsBut [R.ucHbmState n] s t ∧ OnlyRegs s t)

/-- The boot from its start to Ready, step by step (R177, R180, R181, R186, R189, R190, R191, R192, R193, R216, R741). -/
def Obligations.BootSteps : Prop :=
  (∀ s : State, s.mayBoot = true →
      Does .bootStart s fun t =>
        t.boot.running = true ∧ t.boot.startUs = s.mod.islandUs ∧ t.boot.ctl = s.reg R.glbBootCtl ∧ t.bootStep = 1 ∧
        t.store.incarnation = (if (s.store.incarnation + 1) % 65536 = 0 then 1 else (s.store.incarnation + 1) % 65536)) ∧
    (∀ s : State, s.boot.running = true → s.bootStep = 1 →
      Does .bootStepFirmware s fun t => t.bootStep = 2 ∧ t.store.pendingMark = [] ∧
        (bits s.boot.ctl 1 0 = 3 → t.boot.recoveryReason = 3 ∧ t.flag R.glbBootStatus 5 = true ∧ t.reg R.glbFwVer = 0)) ∧
    (∀ s : State, s.boot.running = true → s.bootStep = 2 → s.flag R.glbOsc 1 = false →
      Does .bootStepHub s fun t => t.bootStep = 3 ∧ t.rnd.running = true ∧ t.rnd.round = 0 ∧ t.rnd.turn = 0) ∧
    (∀ (l : List (Nat × Nat)) (s : State), s.boot.running = true → s.bootStep = 3 → s.waveBegun 1 = false →
      Does (.bootStepWave1 l) s fun t => t.bootStep = 3 ∧ ∀ p ∈ wavePeaks 1,
        if bit (bits s.boot.ctl 19 12) p then t.peakSt p = 1 ∨ t.peakSt p = 7 else t.peakSt p = 8) ∧
    (∀ (l : List (Nat × Nat)) (s : State), s.boot.running = true → s.bootStep = 3 → s.waveBegun 1 = true →
      s.waveOver 1 = true →
      Does (.bootStepWave2 l) s fun t => t.bootStep = 4 ∧ ∀ p ∈ wavePeaks 2,
        if bit (bits s.boot.ctl 19 12) p then t.peakSt p = 1 ∨ t.peakSt p = 7 else t.peakSt p = 8) ∧
    (∀ (l : List (Nat × Nat)) (s : State), s.boot.running = true → s.bootStep = 4 → s.waveOver 2 = true →
      Does (.bootStepCrossCols l) s fun t => t.bootStep = 6 ∧ ∀ c ∈ crossCols, Map.getD l c 0 = 0 → (t.col c).carries = false) ∧
    (∀ (m : Nat) (s : State), s.boot.running = true → s.bootStep = 6 →
      Does (.bootStepHbm m) s fun t => t.bootStep = 7 ∧ ∀ p, p < 8 → s.peakSt p = 4 →
        if bit m p then t.fld (R.ucHbmState p) 1 0 = 1 ∧ t.peakSt p = 4
        else t.fld (R.ucHbmState p) 1 0 = 3 ∧ t.peakSt p = 9) ∧
    (∀ s : State, s.boot.running = true → s.bootStep = 7 →
      Does .bootStepCache s fun t => t.bootStep = 8 ∧ t.mem.l1 = [] ∧ t.mem.sets = [] ∧ t.mem.dir = []) ∧
    (∀ s : State, s.boot.running = true → s.bootStep = 8 →
      Does .bootStepImage s fun t => t.bootStep = 9 ∧ t.mod.power = .ready ∧ t.boot.running = false ∧
        t.flag R.glbBootStatus 4 = true)

/-- Peaks report up, lag, are powered a second time or fail (R188). -/
def Obligations.PeaksOfTheBoot : Prop :=
  (∀ (p : Nat) (x : SelfTest) (s : State), p < 8 → s.coming p = true →
      Does (.peakReportUp p x) s fun t => t.peakSt p = 4 ∧ t.flag R.glbBootStatus (16 + p) = true) ∧
    (∀ (p : Nat) (s : State), p < 8 → s.coming p = true → s.tries p = 1 →
      Does (.peakLagging p) s fun t => t.peakSt p = 0 ∧ RegsBut [R.glbPeakState] s t ∧ OnlyRegs s t) ∧
    (∀ (p : Nat) (s : State), p < 8 → s.boot.running = true → s.peakSt p = 0 → s.tries p = 1 →
      Does (.peakSecondAttempt p) s fun t => t.peakSt p = 5 ∧ t.tries p = 2 ∧ RegsBut [R.glbPeakState] s t) ∧
    (∀ (p : Nat) (s : State), p < 8 → s.coming p = true → s.tries p = 2 →
      Does (.peakFailed p) s fun t => t.peakSt p = 6 ∧ RegsBut [R.glbPeakState] s t ∧ OnlyRegs s t)

/-- Writes of GLB_RESET: refused with a bad key, otherwise each kind begins (R199, R200, R202, R203, R204, R205, R207, R217). -/
def Obligations.ResetRequests : Prop :=
  (∀ (k tgt port : Nat) (s : State), k ≠ 0xA5C3 → ∀ c ∈ ([.resetCold k, .resetWarm k, .resetPartition k tgt,
        .resetFunctionLevel k tgt port, .resetSequencer k tgt] : List Instr),
      Does c s fun t => RegsBut [] s t ∧ OnlyRegs s t) ∧
    (∀ s : State, s.boot.active = [] → s.boot.deferred = [] →
      (Does (.resetCold 0xA5C3) s fun t =>
        t.boot.active = [{ kind := 1, target := 0, port := 0, cause := 2, done := false }] ∧ t.crn.snap.isSome = true ∧
        (s.crn.snap = none → t.flag R.crnStatus 0 = true)) ∧
      (s.mod.power = .run → s.crn.snap = none → Does (.resetWarm 0xA5C3) s fun t =>
        t.mod.power = .standby ∧ t.hbm = [] ∧ t.mem = .reset ∧ t.jobs = .reset ∧ t.mod.slotId = s.mod.slotSeen) ∧
      (∀ p, p < 16 →
        (s.inSwap = false → Does (.resetPartition 0xA5C3 p) s fun t =>
          t.boot.active = [{ kind := 3, target := p, port := 0, cause := 2, done := false }] ∧
          t.flag R.glbResetStatus 0 = true ∧ RegsBut [R.glbResetStatus] s t) ∧
        (s.inSwap = true → Does (.resetPartition 0xA5C3 p) s fun t =>
          t.boot.active = [] ∧ t.boot.deferred = [{ kind := 3, target := p, port := 0, cause := 2, done := false }])) ∧
      (∀ d, d < 9 →
        (s.inSwap = false → Does (.resetSequencer 0xA5C3 d) s fun t =>
          t.boot.active = [{ kind := 5, target := d, port := 0, cause := 2, done := false }] ∧ t.seqPhase d = 4) ∧
        (s.inSwap = true → Does (.resetSequencer 0xA5C3 d) s fun t =>
          t.boot.deferred = [{ kind := 5, target := d, port := 0, cause := 2, done := false }])) ∧
      (∀ f port, f < 64 → port < 2 → s.isPf port f = false → Does (.resetFunctionLevel 0xA5C3 f port) s fun t =>
          t.funcOk port f = false))

/-- Resets end, function-level resets from the host, and links reset by it (R203, R204, R206, R686, R695). -/
def Obligations.ResetCompletions : Prop :=
  (∀ (p : Nat) (r : ResetReq) (s : State), s.unitsRun = true → s.partActive p = some r → r.done = true →
      Does (.partitionResetComplete p) s fun t =>
        t.boot.active = s.boot.active.filter (fun x => x != r) ∧ RegsBut [R.glbResetStatus] s t) ∧
    (∀ (d : Nat) (r : ResetReq) (s : State), d < 9 →
      (s.boot.active.find? fun r => r.kind == 5 && r.target == d) = some r →
      Does (.sequencerResetComplete d) s fun t => r ∉ t.boot.active) ∧
    (∀ (port f : Nat) (s : State), s.isPf port f = false → Does (.flrConfig port f) s fun t => t.funcOk port f = false) ∧
    (∀ (port f : Nat) (m : Bool) (r : ResetReq) (s : State),
      (s.boot.active.find? fun r => r.kind == 4 && r.target == f && r.port == port) = some r →
      Does (.flrComplete port f true m) s fun t =>
        t.boot.active = s.boot.active.filter (fun x => x != r) ∧
        t.hostFunc port f = { enabled := true, msix := m, table := [], pend := [] }) ∧
    (∀ (port ep : Nat) (b : Bool) (s : State), port < 2 → ep < 2 →
      Does (.hostHotReset port ep b) s fun t => t.linkUp port ep = false) ∧
    (∀ (port ep f : Nat) (s : State), ((s.funcsOf port ep).filter fun f => !s.isPf port f) = [f] →
      Does (.vfEnableClear port ep) s fun t => t.funcOk port f = false)

/-- Promotions are asked for, checked by the hub, and end (R210, R211, R212, R239). -/
def Obligations.PromotionsOfStoreObjects : Prop :=
  (∀ (i : Nat) (s : State), s.isUp = true → s.store.promo = none → i < 256 →
      ∀ q ∈ ([(.promoteFirmware, 1, 0), (.promoteMicrocode, 2, 0), (.promoteImage i, 3, i)] : List (Instr × Nat × Nat)),
      Does q.1 s fun t =>
        t.store = { s.store with promo := some { kind := q.2.1, index := q.2.2, slot := 0, result := none } } ∧
        t.flag R.glbPromoteStatus 0 = true ∧ RegsBut [R.glbPromoteStatus] s t) ∧
    (∀ (p : Promo) (s : State), s.unitsRun = true → s.seqRuns 8 = true → s.store.promo = some p → p.result = none →
      (s.promoCheck p ≠ 0 → exec .storePromotion s = .next
        { s with store := { s.store with promo := some { p with result := some (s.promoCheck p) } } }) ∧
      (s.promoCheck p = 0 → p.kind = 3 → Does .storePromotion s fun t =>
        (Map.get? t.store.images p.index).isSome = true ∧ t.store.mem = s.store.mem ∧ t.regs = s.regs) ∧
      (s.promoCheck p = 0 → p.kind ≠ 3 → Does .storePromotion s fun t =>
        t.store.promo = some { p with slot := s.unusedSlot p.kind, result := some 0 } ∧ t.regs = s.regs)) ∧
    (∀ (p : Promo) (r : Nat) (s : State), s.unitsRun = true → s.store.promo = some p → p.result = some r → r < 16 →
      Does .promoteDone s fun t =>
        t.store.promo = none ∧ t.flag R.glbPromoteStatus 0 = false ∧ t.fld R.glbPromoteStatus 7 4 = r ∧
        (p.slot = 0 → t.store.mem = s.store.mem) ∧ RegsBut [R.glbPromoteStatus] s t)

/-- Images are loaded, judged, committed and selected (R237, R238, R242, R243, R258, R259). -/
def Obligations.ImagesLoadedAndCommitted : Prop :=
  (∀ (src i : Nat) (s : State), i < 16 → src < 2 → s.flag R.imgStatus 0 = false → s.swapStands = false →
      Does (.imageLoad src i) s fun t =>
        t.img = { s.img with
          load := some { fromStore := src % 2 == 1, index := i, addr := s.pair R.imgSrcLo R.imgSrcHi / 64 * 64 },
          pending := none, firstCommit := false } ∧
        t.flag R.imgStatus 0 = true ∧ RegsBut [R.imgStatus] s t) ∧
    (∀ (r : LoadReq) (s : State), s.unitsRun = true → s.img.load = some r →
      Does .imageLoadDone s fun t =>
        t.img.load = none ∧ t.flag R.imgStatus 0 = false ∧ t.fld R.imgStatus 15 8 = (s.finishLoad r).2.1 % 256) ∧
    (∀ (k : Nat) (s : State), k < 65536 → k ≠ 0xC0A7 → Ignored (.imageCommit k) s) ∧
    (∀ (im : Image) (s : State), s.unitsRun = true → s.img.pending = some im → (s.commitFault im).1 ≠ 0 →
      Does (.imageCommit 0xC0A7) s fun t =>
        t.img = s.img ∧ t.fld R.imgStatus 15 8 = (s.commitFault im).1 % 256 ∧ RegsBut [R.imgStatus] s t) ∧
    (∀ (im : Image) (s : State), s.unitsRun = true → s.img.pending = some im → (s.commitFault im).1 = 0 →
      (s.img.committed = none → s.rnd.running = true → Does (.imageCommit 0xC0A7) s fun t =>
        t.img = { s.img with firstCommit := true } ∧ t.fld R.imgStatus 15 8 = 0) ∧
      (s.img.committed.isSome = true → Does (.imageCommit 0xC0A7) s fun t =>
        t.img.swap.isSome = true ∧ t.img.committed = s.img.committed ∧ t.fld R.imgStatus 15 8 = 0)) ∧
    (∀ (v : Word) (s : State),
      (4 ≤ v.toNat % 16 → Ignored (.imageSelWrite v) s) ∧
      (v.toNat % 16 < 4 → s.locked = true → Does (.imageSelWrite v) s fun t => RegsBut [] s t ∧ OnlyRegs s t) ∧
      (v.toNat % 16 < 4 → s.locked = false → s.flag R.imgStatus 0 = false → s.swapStands = false →
        Does (.imageSelWrite v) s fun t =>
          t.img.load = some { fromStore := true, index := v.toNat % 16, addr := 0 } ∧ t.fld R.imgSel 3 0 = v.toNat % 16) ∧
      (v.toNat % 16 < 4 ∨ (Map.get? s.store.images (v.toNat % 16)).isSome = true → Does (.imageDefaultWrite v) s fun t =>
        t.reg R.imgDefault = v.toNat % 16 ∧ t.store = { s.store with defaultImage := v.toNat % 16 }) ∧
      (4 ≤ v.toNat % 16 → Map.get? s.store.images (v.toNat % 16) = none → Ignored (.imageDefaultWrite v) s))

/-- A shift change is scheduled, acknowledged, started, opened, ended or abandoned (R245, R246, R247, R250, R252, R255). -/
def Obligations.ShiftChanges : Prop :=
  (∀ (w : Swap) (old new : Image) (s : State), s.unitsRun = true → s.seqRuns 8 = true → s.shift = some (w, old, new) →
      w.start = 0 →
      Does .shiftSchedule s fun t =>
        (∃ x, t.img.swap = some x ∧ x.start = s.rnd.round + s.fld R.imgShiftCfg 9 0 ∧
          x.mustAck = maskOf ((List.range 8).filter s.dieOn)) ∧
        t.fld R.rndEpoch 15 8 = (s.fld R.rndEpoch 7 0 + 1) % 256 ∧ t.fld R.rndEpoch 7 0 = s.fld R.rndEpoch 7 0) ∧
    (∀ (d : Nat) (w : Swap) (s : State), d < 8 → s.seqGoes d = true → s.seqPhase d = 1 → (s.seqSt d).serving = 2 →
      s.img.swap = some w → s.rnd.round + 4 ≤ w.start → w.live = false →
      exec (.epochMarkAck d) s = .next { s with img := { s.img with swap := some { w with acked := putBit w.acked d true } } }) ∧
    (∀ (w : Swap) (s : State), s.unitsRun = true → s.img.swap = some w → w.missing ≠ [] → w.live = false → w.start ≠ 0 →
      w.start ≤ s.rnd.round + 4 →
      Does .shiftAbandon s fun t =>
        t.img = { s.img with swap := none } ∧ t.fld R.imgStatus 15 8 = 0x14 ∧ t.fld R.rndEpoch 15 8 = s.fld R.rndEpoch 7 0) ∧
    (∀ (w : Swap) (s : State), s.unitsRun = true → s.img.swap = some w → w.missing = [] → w.live = false → w.start ≠ 0 →
      w.start ≤ s.rnd.round → s.atBoundary = true →
      Does .swapStart s fun t => t.img.swap = some { w with live := true } ∧ t.inSwap = true) ∧
    (∀ (w : Swap) (old new : Image) (p : PartRec) (s : State), s.unitsRun = true → s.seqRuns 8 = true →
      s.shift = some (w, old, new) → (new.parts.find? fun q => q.part == p.part) = some p → w.live = true →
      s.atBoundary = true → bit w.opened p.part = false → s.mayOpen w old new p = true → p.part < 16 →
      Does (.partitionOpen p.part) s fun t =>
        t.img.swap = some { w with opened := putBit w.opened p.part true } ∧ t.flag R.imgChanged (16 + p.part) = true) ∧
    (∀ (w : Swap) (old new : Image) (s : State), s.unitsRun = true → s.shift = some (w, old, new) → s.atBoundary = true →
      s.mayCleanse w old = true → w.cleansed = true →
      Does .swapEnd s fun t =>
        t.img.committed = some new ∧ t.img.swap = none ∧ t.img.pending = none ∧
        t.fld R.rndEpoch 7 0 = s.fld R.rndEpoch 15 8 ∧ t.inSwap = false) ∧
    (∀ (w : Swap) (s : State), s.unitsRun = true → s.img.swap = some w → s.fld R.imgShiftCfg 31 10 ≠ 0 → w.live = true →
      w.cut = false → w.start + s.fld R.imgShiftCfg 31 10 ≤ s.rnd.round →
      Does .swapMaxRounds s fun t => t.img.swap = some { w with cut := true })

/-- The integer instructions write their result in each acting lane and change nothing else (R293, R294, R297, R298, R300, R303, R315). -/
def Obligations.IntegerArithmetic : Prop :=
  ∀ (g : GroupRef) (f : CoreFields) (x : Group) (b : Blk) (s : State),
    (s.issues g f (intSpec f true false true) x b → f.mod < 2 → Does (.iadd g f) s (Writes g f (intSpec f true false true) x (wide f) (fun l => (x.regs' l f.a (wide f) + x.srcB (intSpec f true false true) f l) % 2 ^ (32 * (wide f))) s)) ∧
    (s.issues g f (intSpec f true false true) x b → f.mod < 2 → Does (.isub g f) s (Writes g f (intSpec f true false true) x (wide f) (fun l => (x.regs' l f.a (wide f) + 2 ^ width f - x.srcB (intSpec f true false true) f l % 2 ^ width f) % 2 ^ (32 * (wide f))) s)) ∧
    (s.issues g f (intSpec f true false true) x b → f.mod < 2 → Does (.imul g f) s (Writes g f (intSpec f true false true) x (wide f) (fun l => (x.regs' l f.a (wide f) * x.srcB (intSpec f true false true) f l) % 2 ^ (32 * (wide f))) s)) ∧
    (s.issues g f (intSpec f true false true) x b → f.mod < 4 → Does (.imulhi g f) s (Writes g f (intSpec f true false true) x (wide f) (fun l => (if bit f.mod 1 then x.regs' l f.a (wide f) * x.srcB (intSpec f true false true) f l / 2 ^ width f else unsigned (width f) (signed (width f) (x.regs' l f.a (wide f)) * signed (width f) (x.srcB (intSpec f true false true) f l) / 2 ^ width f)) % 2 ^ (32 * (wide f))) s)) ∧
    (s.issues g f (intSpec f true true true) x b → f.mod < 2 → Does (.imac g f) s (Writes g f (intSpec f true true true) x (wide f) (fun l => (x.regs' l f.a (wide f) * x.srcB (intSpec f true true true) f l + x.regs' l f.c (wide f)) % 2 ^ (32 * (wide f))) s)) ∧
    (s.issues g f (intSpec f true false true) x b → f.mod < 4 → Does (.imin g f) s (Writes g f (intSpec f true false true) x (wide f) (fun l => (if (if bit f.mod 1 then x.regs' l f.a (wide f) ≤ x.srcB (intSpec f true false true) f l else signed (width f) (x.regs' l f.a (wide f)) ≤ signed (width f) (x.srcB (intSpec f true false true) f l)) then x.regs' l f.a (wide f) else x.srcB (intSpec f true false true) f l) % 2 ^ (32 * (wide f))) s)) ∧
    (s.issues g f (intSpec f true false true) x b → f.mod < 4 → Does (.imax g f) s (Writes g f (intSpec f true false true) x (wide f) (fun l => (if (if bit f.mod 1 then x.srcB (intSpec f true false true) f l ≤ x.regs' l f.a (wide f) else signed (width f) (x.srcB (intSpec f true false true) f l) ≤ signed (width f) (x.regs' l f.a (wide f))) then x.regs' l f.a (wide f) else x.srcB (intSpec f true false true) f l) % 2 ^ (32 * (wide f))) s)) ∧
    (s.issues g f (intSpec f true false true) x b → f.mod < 2 → Does (.and g f) s (Writes g f (intSpec f true false true) x (wide f) (fun l => ((x.regs' l f.a (wide f)) &&& (x.srcB (intSpec f true false true) f l)) % 2 ^ (32 * (wide f))) s)) ∧
    (s.issues g f (intSpec f true false true) x b → f.mod < 2 → Does (.or g f) s (Writes g f (intSpec f true false true) x (wide f) (fun l => ((x.regs' l f.a (wide f)) ||| (x.srcB (intSpec f true false true) f l)) % 2 ^ (32 * (wide f))) s)) ∧
    (s.issues g f (intSpec f true false true) x b → f.mod < 2 → Does (.xor g f) s (Writes g f (intSpec f true false true) x (wide f) (fun l => ((x.regs' l f.a (wide f)) ^^^ (x.srcB (intSpec f true false true) f l)) % 2 ^ (32 * (wide f))) s))

/-- Shifts, counts, selects, moves and integer compares (R294, R297, R298, R299, R300, R303, R315). -/
def Obligations.ShiftsCountsAndSelects : Prop :=
  ∀ (g : GroupRef) (f : CoreFields) (x : Group) (b : Blk) (s : State),
    (s.issues g f (intSpec f true false true) x b → f.mod < 2 → Does (.shl g f) s (Writes g f (intSpec f true false true) x (wide f) (fun l => (if width f ≤ x.srcB (intSpec f true false true) f l % 256 then 0 else x.regs' l f.a (wide f) * 2 ^ (x.srcB (intSpec f true false true) f l % 256)) % 2 ^ (32 * (wide f))) s)) ∧
    (s.issues g f (intSpec f true false true) x b → f.mod < 4 → Does (.shr g f) s (Writes g f (intSpec f true false true) x (wide f) (fun l => (if bit f.mod 1 then (if width f ≤ x.srcB (intSpec f true false true) f l % 256 then 0 else x.regs' l f.a (wide f) % 2 ^ width f / 2 ^ (x.srcB (intSpec f true false true) f l % 256)) else unsigned (width f) (signed (width f) (x.regs' l f.a (wide f)) / 2 ^ min (x.srcB (intSpec f true false true) f l % 256) (width f))) % 2 ^ (32 * (wide f))) s)) ∧
    (s.issues g f (intSpec f false false true) x b → f.mod < 2 → Does (.bcnt g f) s (Writes g f (intSpec f false false true) x (wide f) (fun l => (((List.range (width f)).filter fun i => bit (x.regs' l f.a (wide f)) i).length) % 2 ^ (32 * (wide f))) s)) ∧
    (s.issues g f (intSpec f false false true) x b → f.mod < 2 → Does (.lzcnt g f) s (fun t => ∃ y n, OnlyGroup g y s t ∧ x.after y (intSpec f false false true) f ∧
        y.preds = x.preds ∧ x.wrote y f (wide f) n ∧ ∀ l ∈ x.acting f,
          n l ≤ width f ∧ x.regs' l f.a (wide f) < 2 ^ (width f - n l) ∧ (x.regs' l f.a (wide f) ≠ 0 → 2 ^ (width f - n l) ≤ 2 * (x.regs' l f.a (wide f))))) ∧
    (s.issues g f (.alu (.regs 1) (.regs 1) (.regs 1) (.regs 1) true) x b → f.mod = 0 →
      Does (.bsel g f) s (fun t => ∃ y n, OnlyGroup g y s t ∧ x.after y (.alu (.regs 1) (.regs 1) (.regs 1) (.regs 1) true) f ∧
        y.preds = x.preds ∧ x.wrote y f 1 n ∧ ∀ l ∈ x.acting f, ∀ i, i < 4 →
          bits (n l) (8 * i + 7) (8 * i) =
            bits (x.reg l f.a + 2 ^ 32 * x.srcB (.alu (.regs 1) (.regs 1) (.regs 1) (.regs 1) true) f l)
              (8 * bits (x.reg l f.c) (4 * i + 2) (4 * i) + 7) (8 * bits (x.reg l f.c) (4 * i + 2) (4 * i)))) ∧
    (s.issues g f (.alu (.regs (wide f)) (.regs (wide f)) (.regs (wide f)) .pred true) x b → f.mod < 2 → Does (.sel g f) s (Writes g f (.alu (.regs (wide f)) (.regs (wide f)) (.regs (wide f)) .pred true) x (wide f) (fun l => (if x.pred l f.c then x.regs' l f.a (wide f) else x.srcB (.alu (.regs (wide f)) (.regs (wide f)) (.regs (wide f)) .pred true) f l) % 2 ^ (32 * (wide f))) s)) ∧
    (s.issues g f ({ OpSpec.alu (.regs (wide f)) .unused (.regs (wide f)) .unused true with imm64 := bit f.mod 0 }) x b → f.mod < 2 → Does (.mov g f) s (Writes g f ({ OpSpec.alu (.regs (wide f)) .unused (.regs (wide f)) .unused true with imm64 := bit f.mod 0 }) x (wide f) (fun l => (if f.long then (if f.mod = 1 then f.w1 else f.w1 % 2 ^ 32) else x.regs' l f.b (wide f)) % 2 ^ (32 * (wide f))) s)) ∧
    (s.issues g f (.alu .pred (.regs (wide f)) (.regs (wide f)) .unused true) x b → f.mod < 32 → bits f.mod 4 2 < 6 →
      Does (.icmp g f) s (WritesPred g f (.alu .pred (.regs (wide f)) (.regs (wide f)) .unused true) x (fun l =>
        let a := x.regs' l f.a (wide f)
        let c := x.srcB (.alu .pred (.regs (wide f)) (.regs (wide f)) .unused true) f l
        let lt := if bit f.mod 1 then decide (a < c) else decide (signed (width f) a < signed (width f) c)
        let eq := if bit f.mod 1 then decide (a = c) else decide (signed (width f) a = signed (width f) c)
        [lt, lt || eq, eq, !eq, !lt, !lt && !eq].getD (bits f.mod 4 2) false) s))

/-- NOP, special registers, lane exchange and votes (R297, R300, R302, R303, R315). -/
def Obligations.LaneInstructions : Prop :=
  ∀ (g : GroupRef) (f : CoreFields) (x : Group) (b : Blk) (s : State),
    (s.issues g f (.alu .unused .unused .unused .unused true) x b → f.mod = 0 →
      Does (.nop g f) s fun t => ∃ y, OnlyGroup g y s t ∧ y = { x with pc := x.pc + f.len, savedRows := y.savedRows }) ∧
    (∀ k v, (f.mod, k, v) ∈ ([(0, 1, id), (1, 1, fun _ => x.gidx), (2, 1, fun _ => b.gcnt), (3, 1, fun _ => b.tidx),
        (4, 1, fun _ => g.core), (5, 1, fun _ => b.lhalf), (6, 2, fun _ => b.param), (7, 2, fun _ => b.argBase),
        (8, 1, fun l => Map.getD x.gprog l 0), (9, 1, fun _ => x.mask), (10, 1, fun _ => s.rnd.round), (11, 1, fun _ => s.rnd.turn),
        (12, 1, fun _ => b.phase), (13, 1, fun _ => b.part), (14, 1, fun _ => if x.unconf = [] then 0 else 1)]
          : List (Nat × Nat × (Nat → Nat))) →
      s.issues g f (.alu (.regs k) .unused .unused .unused true) x b →
      Does (.rdsr g f) s (Writes g f (.alu (.regs k) .unused .unused .unused true) x k (fun l => v l % 2 ^ (32 * k)) s)) ∧
    (∀ src : Nat → Int,
      (∀ l, let n := x.srcB (.alu (.regs 1) (.regs 1) (.regs 1) .unused true) f l
        src l = ([(n % 32 : Nat), (l : Int) - n, (l : Int) + n, (l ^^^ (n % 32) : Nat)] : List Int).getD f.mod 0) →
      s.issues g f (.alu (.regs 1) (.regs 1) (.regs 1) .unused true) x b → f.mod < 4 →
      Does (.xlane g f) s (Writes g f (.alu (.regs 1) (.regs 1) (.regs 1) .unused true) x 1
        (fun l => x.reg (if 0 ≤ src l ∧ src l < 32 ∧ (src l).toNat ∈ x.acting f then (src l).toNat else l) f.a % 2 ^ 32) s)) ∧
    (s.issues g f (.alu .pred .pred .unused .unused true) x b → f.mod < 2 →
      Does (.lvote g f) s (WritesPred g f (.alu .pred .pred .unused .unused true) x (fun _ =>
        if f.mod = 0 then decide (∃ l ∈ x.acting f, x.pred l f.a = true) else decide (∀ l ∈ x.acting f, x.pred l f.a = true)) s)) ∧
    (s.issues g f (.alu (.regs 1) .pred .unused .unused true) x b → f.mod = 2 →
      Does (.lvote g f) s fun t => ∃ y n, OnlyGroup g y s t ∧ x.after y (.alu (.regs 1) .pred .unused .unused true) f ∧
        y.preds = x.preds ∧ x.wrote y f 1 (fun _ => n) ∧ ∀ i, bit n i = (decide (i ∈ x.acting f) && x.pred i f.a))

/-- The FP32 instructions write each lane's result, keep the flags sticky, and trap where enabled (R297, R298, R299, R300, R315, R322, R323, R329). -/
def Obligations.FpInstructions : Prop :=
  ∀ (g : GroupRef) (f : CoreFields) (x : Group) (b : Blk) (s : State),
    (s.issues g f (.alu (.regs 1) (.regs 1) (.regs 1) .unused true) x b → f.mod < 8 → Does (.fadd g f) s (FpWrites g f (.alu (.regs 1) (.regs 1) (.regs 1) .unused true) x b (1) (fun l => FFmt.f32.add (bits f.mod 1 0) (bit f.mod 2) (x.reg l f.a) (x.srcB (.alu (.regs 1) (.regs 1) (.regs 1) .unused true) f l)) s)) ∧
    (s.issues g f (.alu (.regs 1) (.regs 1) (.regs 1) .unused true) x b → f.mod < 8 → Does (.fmul g f) s (FpWrites g f (.alu (.regs 1) (.regs 1) (.regs 1) .unused true) x b (1) (fun l => FFmt.f32.mul (bits f.mod 1 0) (bit f.mod 2) (x.reg l f.a) (x.srcB (.alu (.regs 1) (.regs 1) (.regs 1) .unused true) f l)) s)) ∧
    (s.issues g f (.alu (.regs 1) (.regs 1) (.regs 1) (.regs 1) true) x b → f.mod < 8 → Does (.ffma g f) s (FpWrites g f (.alu (.regs 1) (.regs 1) (.regs 1) (.regs 1) true) x b (1) (fun l => FFmt.f32.fma (bits f.mod 1 0) (bit f.mod 2) (x.reg l f.a) (x.srcB (.alu (.regs 1) (.regs 1) (.regs 1) (.regs 1) true) f l) (x.reg l f.c)) s)) ∧
    (s.issues g f (.alu (.regs 1) (.regs 1) (.regs 1) .unused true) x b → f.mod < 8 → Does (.fmin g f) s (FpWrites g f (.alu (.regs 1) (.regs 1) (.regs 1) .unused true) x b (1) (fun l => FFmt.f32.minMax true (bit f.mod 2) (x.reg l f.a) (x.srcB (.alu (.regs 1) (.regs 1) (.regs 1) .unused true) f l)) s)) ∧
    (s.issues g f (.alu (.regs 1) (.regs 1) (.regs 1) .unused true) x b → f.mod < 8 → Does (.fmax g f) s (FpWrites g f (.alu (.regs 1) (.regs 1) (.regs 1) .unused true) x b (1) (fun l => FFmt.f32.minMax false (bit f.mod 2) (x.reg l f.a) (x.srcB (.alu (.regs 1) (.regs 1) (.regs 1) .unused true) f l)) s)) ∧
    (s.issues g f (.alu (.regs 1) (.regs 1) .unused .unused true) x b → f.mod < 64 → bits f.mod 5 3 < 7 → (bits f.mod 5 3 = 0 ∨ bits f.mod 5 3 = 2 ∨ bits f.mod 1 0 = 0) → Does (.fmf g f) s (FpWrites g f (.alu (.regs 1) (.regs 1) .unused .unused true) x b (1) (fun l => FFmt.f32.mathFn (bits f.mod 5 3) (bits f.mod 1 0) (bit f.mod 2) (x.reg l f.a)) s)) ∧
    (s.issues g f (.alu .pred (.regs 1) (.regs 1) .unused true) x b → f.mod < 64 →
      Does (.fcmp g f) s (FpWritesPred g f (.alu .pred (.regs 1) (.regs 1) .unused true) x b (fun l =>
        FFmt.f32.compare (bits f.mod 5 3) (bit f.mod 2) (x.reg l f.a) (x.srcB (.alu .pred (.regs 1) (.regs 1) .unused true) f l)) s))

/-- The packed and conversion instructions write each lane's result, keep the flags sticky, and trap where enabled (R297, R298, R300, R301, R315, R322, R323, R329). -/
def Obligations.PackedAndConversionInstructions : Prop :=
  ∀ (g : GroupRef) (f : CoreFields) (x : Group) (b : Blk) (s : State),
    (s.issues g f (.alu (.regs 1) (.regs 1) (.regs 1) .unused true) x b → f.mod < 2 → Does (.padd g f) s (FpWrites g f (.alu (.regs 1) (.regs 1) (.regs 1) .unused true) x b 1 (fun l =>
        let lo := (if f.mod = 1 then FFmt.bf16 else FFmt.f16).add 0 false (bits (x.reg l f.a) 15 0) (bits (x.srcB (.alu (.regs 1) (.regs 1) (.regs 1) .unused true) f l) 15 0)
        let hi := (if f.mod = 1 then FFmt.bf16 else FFmt.f16).add 0 false (bits (x.reg l f.a) 31 16) (bits (x.srcB (.alu (.regs 1) (.regs 1) (.regs 1) .unused true) f l) 31 16)
        (lo.1 + 2 ^ 16 * hi.1, lo.2.or hi.2)) s)) ∧
    (s.issues g f (.alu (.regs 1) (.regs 1) (.regs 1) .unused true) x b → f.mod < 2 → Does (.pmul g f) s (FpWrites g f (.alu (.regs 1) (.regs 1) (.regs 1) .unused true) x b 1 (fun l =>
        let lo := (if f.mod = 1 then FFmt.bf16 else FFmt.f16).mul 0 false (bits (x.reg l f.a) 15 0) (bits (x.srcB (.alu (.regs 1) (.regs 1) (.regs 1) .unused true) f l) 15 0)
        let hi := (if f.mod = 1 then FFmt.bf16 else FFmt.f16).mul 0 false (bits (x.reg l f.a) 31 16) (bits (x.srcB (.alu (.regs 1) (.regs 1) (.regs 1) .unused true) f l) 31 16)
        (lo.1 + 2 ^ 16 * hi.1, lo.2.or hi.2)) s)) ∧
    (s.issues g f (.alu (.regs 1) (.regs 1) (.regs 1) (.regs 1) true) x b → f.mod < 2 → Does (.pfma g f) s (FpWrites g f (.alu (.regs 1) (.regs 1) (.regs 1) (.regs 1) true) x b 1 (fun l =>
        let lo := (if f.mod = 1 then FFmt.bf16 else FFmt.f16).fma 0 false (bits (x.reg l f.a) 15 0) (bits (x.srcB (.alu (.regs 1) (.regs 1) (.regs 1) (.regs 1) true) f l) 15 0) (bits (x.reg l f.c) 15 0)
        let hi := (if f.mod = 1 then FFmt.bf16 else FFmt.f16).fma 0 false (bits (x.reg l f.a) 31 16) (bits (x.srcB (.alu (.regs 1) (.regs 1) (.regs 1) (.regs 1) true) f l) 31 16) (bits (x.reg l f.c) 31 16)
        (lo.1 + 2 ^ 16 * hi.1, lo.2.or hi.2)) s)) ∧
    (s.issues g f (.alu (.regs 1) (.regs 1) (.regs 1) .unused true) x b → f.mod < 2 → Does (.pmin g f) s (FpWrites g f (.alu (.regs 1) (.regs 1) (.regs 1) .unused true) x b 1 (fun l =>
        let lo := (if f.mod = 1 then FFmt.bf16 else FFmt.f16).minMax true false (bits (x.reg l f.a) 15 0) (bits (x.srcB (.alu (.regs 1) (.regs 1) (.regs 1) .unused true) f l) 15 0)
        let hi := (if f.mod = 1 then FFmt.bf16 else FFmt.f16).minMax true false (bits (x.reg l f.a) 31 16) (bits (x.srcB (.alu (.regs 1) (.regs 1) (.regs 1) .unused true) f l) 31 16)
        (lo.1 + 2 ^ 16 * hi.1, lo.2.or hi.2)) s)) ∧
    (s.issues g f (.alu (.regs 1) (.regs 1) (.regs 1) .unused true) x b → f.mod < 2 → Does (.pmax g f) s (FpWrites g f (.alu (.regs 1) (.regs 1) (.regs 1) .unused true) x b 1 (fun l =>
        let lo := (if f.mod = 1 then FFmt.bf16 else FFmt.f16).minMax false false (bits (x.reg l f.a) 15 0) (bits (x.srcB (.alu (.regs 1) (.regs 1) (.regs 1) .unused true) f l) 15 0)
        let hi := (if f.mod = 1 then FFmt.bf16 else FFmt.f16).minMax false false (bits (x.reg l f.a) 31 16) (bits (x.srcB (.alu (.regs 1) (.regs 1) (.regs 1) .unused true) f l) 31 16)
        (lo.1 + 2 ^ 16 * hi.1, lo.2.or hi.2)) s)) ∧
    (s.issues g f (.alu (.regs (cvtRegs (bits f.mod 7 4))) (.regs (cvtRegs (bits f.mod 3 0))) .unused .unused true) x b → bits f.mod 3 0 < 13 → bits f.mod 7 4 < 13 → Does (.cvt g f) s (FpWrites g f (.alu (.regs (cvtRegs (bits f.mod 7 4))) (.regs (cvtRegs (bits f.mod 3 0))) .unused .unused true) x b (cvtRegs (bits f.mod 7 4)) (fun l => convert (bits f.mod 3 0) (bits f.mod 7 4) false (x.regs' l f.a (cvtRegs (bits f.mod 3 0)))) s)) ∧
    (s.issues g f (.alu (.regs (cvtRegs (bits f.mod 7 4))) (.regs (cvtRegs (bits f.mod 3 0))) .unused .unused true) x b → bits f.mod 3 0 < 13 → bits f.mod 7 4 < 13 → Does (.cvts g f) s (FpWrites g f (.alu (.regs (cvtRegs (bits f.mod 7 4))) (.regs (cvtRegs (bits f.mod 3 0))) .unused .unused true) x b (cvtRegs (bits f.mod 7 4)) (fun l => convert (bits f.mod 3 0) (bits f.mod 7 4) true (x.regs' l f.a (cvtRegs (bits f.mod 3 0)))) s))

/-- A float result is the value nearest to the exact one, or next to it on the side its rounding mode names (R300, R301). -/
def Obligations.FloatRounding : Prop :=
  ∀ (f : FFmt) (rm m : Nat) (n : Bool) (e : Int), f ∈ [FFmt.f32, FFmt.f16, FFmt.bf16, FFmt.e5m2, FFmt.e4m3] → rm < 4 → 0 < m →
    (f.round rm false false n m e false).2.overflow = false →
    ∃ (m' : Nat) (e' : Int), f.unpack (f.round rm false false n m e false).1 = .fin n m' e' ∧
      let lo := min e e'
      let x := m * 2 ^ (e - lo).toNat
      let y := m' * 2 ^ (e' - lo).toNat
      let u := 2 ^ (e' - lo).toNat
      (rm = 0 → 2 * x ≤ 2 * y + u ∧ 2 * y ≤ 2 * x + u ∧ ((2 * x = 2 * y + u ∨ 2 * y = 2 * x + u) → m' % 2 = 0)) ∧
      ((rm = 1 ∨ (rm = 2 ∧ n = false) ∨ (rm = 3 ∧ n = true)) → y ≤ x ∧ x < y + u) ∧
      (((rm = 2 ∧ n = true) ∨ (rm = 3 ∧ n = false)) → x ≤ y ∧ y < x + u)

/-- NaN operands, infinities of unlike sign, minimum and maximum, and float compares (R300, R322). -/
def Obligations.FloatSpecialCases : Prop :=
  ∀ (f : FFmt) (rm a b c : Nat) (z : Bool), f ∈ [FFmt.f32, FFmt.f16, FFmt.bf16] →
    FFmt.f32.nan = 0x7FC00000 ∧ FFmt.f16.nan = 0x7E00 ∧ FFmt.bf16.nan = 0x7FC0 ∧
    ((f.unpack a).isNaN = true ∨ (f.unpack b).isNaN = true →
      let bad : Bool := (f.unpack a).isSig || (f.unpack b).isSig
      f.add rm z a b = (f.nan, if bad then .bad else .none) ∧ f.mul rm z a b = (f.nan, if bad then .bad else .none) ∧
      (f.fma rm z a b c).1 = f.nan ∧
      ∀ code, code < 8 → (f.compare code z a b).1 = decide (code = 3 ∨ code = 6)) ∧
    (∀ n, f.unpack a = .inf n → f.unpack b = .inf (!n) → f.add rm z a b = (f.nan, .bad)) ∧
    (∀ n k e, f.unpack a = .inf n → f.unpack b = .fin k 0 e → f.mul rm z a b = (f.nan, .bad) ∧ f.mul rm z b a = (f.nan, .bad)) ∧
    (∀ least, (f.unpack a).isNaN = true → (f.unpack b).isNaN = false → (f.minMax least false a b).1 = b ∧ (f.minMax least false b a).1 = b) ∧
    (∀ k e, f.unpack a = .fin k 0 e → (f.mathFn 0 rm z a).1 = f.inf k ∧ (f.mathFn 0 rm z a).2.divzero = true ∧
      (f.mathFn 4 0 z a).1 = f.inf true ∧ (f.mathFn 4 0 z a).2.divzero = true)

/-- Conversions to integers truncate and saturate, NaN gives 0, and narrow results fill their register (R301). -/
def Obligations.ConversionRules : Prop :=
  ∀ (src dst w w' a : Nat) (sg sg' sat : Bool) (f : FFmt), cvtType dst = .int w' sg' →
    let reg : Int → Nat := fun v => (v % 2 ^ max w' 32).toNat
    let lo : Int := if sg' then -(2 : Int) ^ (w' - 1) else 0
    let hi : Int := if sg' then (2 : Int) ^ (w' - 1) - 1 else (2 : Int) ^ w' - 1
    (cvtType src = .flt f →
      (∀ q, f.unpack (a % 2 ^ f.width) = .nan q → (convert src dst sat a).1 = 0) ∧
      (∀ n, f.unpack (a % 2 ^ f.width) = .inf n → (convert src dst sat a).1 = reg (if n then lo else hi)) ∧
      (∀ n m e, f.unpack (a % 2 ^ f.width) = .fin n m e →
        let k : Nat := if 0 ≤ e then m * 2 ^ e.toNat else m / 2 ^ (-e).toNat
        let v : Int := if n then -(k : Int) else k
        (convert src dst sat a).1 = reg (max lo (min hi v)))) ∧
    (cvtType src = .int w sg →
      let v : Int := if sg then signed w a else ((a % 2 ^ w : Nat) : Int)
      (lo ≤ v → v ≤ hi → (convert src dst sat a).1 = reg v) ∧ (convert src dst true a).1 = reg (max lo (min hi v)))

/-- Illegal words, registers out of range and a pc outside the kernel stop the group with their trap (R292, R296, R298, R299, R312, R321, R323, R324). -/
def Obligations.InstructionTraps : Prop :=
  ∀ (g : GroupRef) (f : CoreFields) (x : Group) (b : Blk) (s : State),
    ∀ c p, (c, p) ∈ intRows g f ++ fpRows g f ++ otherRows g f →
    s.comesTo g f p x b → x.unconf = [] → x.pendRegs = [] → x.pendPreds = [] → x.pathPending = false →
    (¬ x.inKernel b → Does c s (Traps g x 0x04 0 x.mask s)) ∧
    (x.inKernel b → p.legal f = false → Does c s (Traps g x 0x01 0 (maskOf (x.acting f)) s)) ∧
    (x.inKernel b → p.legal f = true → p.inRange f x.regsPer = false → Does c s (Traps g x 0x02 0 (maskOf (x.acting f)) s))

/-- Branches diverge, reconverge and overflow as the divergence rules give (R283, R284, R285, R287, R297, R316). -/
def Obligations.Branches : Prop :=
  ∀ (g : GroupRef) (f : CoreFields) (x : Group) (b : Blk) (s : State),
    (s.issues g f (ctlSpec .unused .b false false false true) x b → f.mod = 0 →
      let fall := (setBitsOf 32 x.mask).filter fun l => decide (l ∉ x.acting f)
      let path := x.pathPending || x.pendPreds.contains f.pred
      let r := f.w1 / 2 ^ 32
      Does (.bra g f) s fun t =>
        (x.acting f = [] → OnlyGroup g { x with pc := x.pc + f.len, pathPending := path } s t) ∧
        (x.acting f ≠ [] → fall = [] → OnlyGroup g { x with pc := f.w1 % 2 ^ 32, pathPending := path } s t) ∧
        (x.acting f ≠ [] → fall ≠ [] → x.stack.length + 2 ≤ 32 →
          OnlyGroup g { x with
            pathPending := path, mask := maskOf fall, pc := x.pc + f.len, rpc := r,
            stack := (maskOf (x.acting f), f.w1 % 2 ^ 32, r) :: (x.mask, r, x.rpc) :: x.stack } s t) ∧
        (x.acting f ≠ [] → fall ≠ [] → 32 < x.stack.length + 2 → x.unconf = [] →
          Traps g { x with pathPending := path } 0x03 0 x.mask
            (s.halfEvent g.half 0x0405 [(1, g.half), (1, g.core), (1, g.slot), (4, x.pc)]) t)) ∧
    (∀ ts : List (Nat × Nat), s.issues g f (ctlSpec (.regs 1) .bri false false false true) x b → f.mod = 0 →
      ts.Pairwise (fun p q => p.2 < q.2) → (∀ q, (∃ m, (m, q) ∈ ts) ↔ ∃ l ∈ x.acting f, x.reg l f.a = q) →
      (∀ m q, (m, q) ∈ ts → m = maskOf ((x.acting f).filter fun l => x.reg l f.a == q)) →
      let fall := (setBitsOf 32 x.mask).filter fun l => decide (l ∉ x.acting f)
      let path := x.pathPending || x.pendRegs.contains f.a
      let r := f.w1 / 2 ^ 32
      Does (.bri g f) s fun t =>
        ∀ m q rest, (if fall = [] then [] else [(maskOf fall, x.pc + f.len)]) ++ ts = (m, q) :: rest →
          (rest = [] → OnlyGroup g { x with pc := q, pathPending := path } s t) ∧
          (rest ≠ [] → x.stack.length + rest.length + 1 ≤ 32 →
            OnlyGroup g { x with
              pathPending := path, mask := m, pc := q, rpc := r,
              stack := rest.map (fun p => (p.1, p.2, r)) ++ (x.mask, r, x.rpc) :: x.stack } s t) ∧
          (rest ≠ [] → 32 < x.stack.length + rest.length + 1 → x.unconf = [] →
            Traps g { x with pathPending := path } 0x03 0 x.mask
              (s.halfEvent g.half 0x0405 [(1, g.half), (1, g.core), (1, g.slot), (4, x.pc)]) t)) ∧
    (∀ m pc rpc st, g.wf = true → f.wf = true → s.mayIssue g = true → s.group? g = some x → s.blk? g x.block = some b →
      x.wait = .ready → x.stack = (m, pc, rpc) :: st → (x.pc = x.rpc ∨ x.mask = 0) → m ≠ 0 → (st = [] ∨ pc ≠ rpc) →
      pc % 8 = 0 → pc < b.kernelLen → x.unconf = [] → (OpSpec.alu .unused .unused .unused .unused true).legal f = true → f.mod = 0 →
      Does (.nop g f) s (OnlyGroup g { x with mask := m, pc := pc + f.len, rpc := rpc, stack := st } s))

/-- EXIT, BRK and TRAP (R286, R297, R320, R321, R327, R329, R842). -/
def Obligations.ExitsBreaksAndTraps : Prop :=
  ∀ (g : GroupRef) (f : CoreFields) (x : Group) (b : Blk) (s : State),
    (s.issues g f (ctlSpec .unused .r false false true true) x b → f.mod = 0 →
      let out := maskOf (x.acting f)
      let rest := (setBitsOf 32 x.mask).filter fun l => decide (l ∉ x.acting f)
      let st := x.stack.map fun e => (maskOf ((setBitsOf 32 e.1).filter fun l => decide (l ∉ x.acting f)), e.2)
      Does (.exit g f) s fun t =>
        (rest ≠ [] → OnlyGroup g { x with mask := maskOf rest, exited := x.exited ||| out, pc := x.pc + f.len, stack := st } s t) ∧
        (rest = [] → x.stack = [] → ∃ y, OnlyGroup g y s t ∧ y.done = true ∧ y.exited = x.exited ||| out) ∧
        (∀ m pc rpc tail, rest = [] → st = (m, pc, rpc) :: tail → m ≠ 0 → (tail = [] ∨ pc ≠ rpc) →
          OnlyGroup g { x with mask := m, exited := x.exited ||| out, pc := pc, rpc := rpc, stack := tail } s t)) ∧
    (s.issues g f (ctlSpec .unused .r false false true true) x b → f.mod = 0 → Does (.brk g f) s fun t =>
        (x.acting f = [] → OnlyGroup g { x with pc := x.pc + f.len } s t) ∧
        (x.acting f ≠ [] → b.brkHalt = true → s.flag R.jtgArmed g.half = true → t.flag R.jtgState g.half = true ∧
          ∃ u, OnlyGroup g { x with pc := x.pc + f.len } s u ∧
            t = (u.haltHalf g.half).halfEvent g.half 0x0408 [(1, g.half), (1, g.core), (1, g.slot), (4, x.pc)]) ∧
        (x.acting f ≠ [] → (b.brkHalt = false ∨ s.flag R.jtgArmed g.half = false) → Traps g x 0x0A 0 (maskOf (x.acting f)) s t)) ∧
    (s.issues g f (ctlSpec .unused .r true false true true) x b → f.mod = 0 → Does (.trap g f) s fun t =>
        (x.acting f = [] → OnlyGroup g { x with pc := x.pc + f.len } s t) ∧
        (x.acting f ≠ [] → Traps g x 0x0B f.imm (maskOf (x.acting f)) s t))

/-- BAR with a guard raises ILLEGAL, and BAR_DIV where the mask is not the threads that have not exited (R312). -/
def Obligations.BarrierDivergence : Prop :=
  ∀ (g : GroupRef) (f : CoreFields) (x : Group) (b : Blk) (s : State),
    (s.comesTo g f (ctlSpec .unused .r true true true true) x b → x.inKernel b → (f.pred ≠ 7 ∨ f.neg = true) →
      Does (.bar g f) s (Traps g x 0x01 0 (maskOf (x.acting f)) s)) ∧
    (s.issues g f (ctlSpec .unused .r true true true true) x b → f.mod = 0 → f.imm < 16 →
      (x.mask ≠ maskOf ((List.range 32).filter fun l => !bit x.exited l) → Does (.bar g f) s (Traps g x 0x09 0 x.mask s)) ∧
      (x.mask = maskOf ((List.range 32).filter fun l => !bit x.exited l) → Does (.bar g f) s fun t =>
        ∃ y, t.group? g = some y ∧ y.wait = .barrier f.imm ∧ y.trap = x.trap))

/-- BAR arrives, a barrier completes for every group, and FENCE, MXS and MXW wait for what is outstanding (R310, R311, R313, R373, R375, R400). -/
def Obligations.BarriersFencesAndWaits : Prop :=
  ∀ (g : GroupRef) (f : CoreFields) (x : Group) (b : Blk) (s : State),
    (s.issues g f (ctlSpec .unused .r true true true true) x b → f.mod = 0 → f.imm < 16 →
      x.mask = maskOf ((List.range 32).filter fun l => !bit x.exited l) →
      Does (.bar g f) s (OnlyBlock g { x with pc := x.pc + f.len, wait := .barrier f.imm } x.block
        { b with arrived := Map.set b.arrived f.imm (Map.getD b.arrived f.imm [] ++ [x.gidx]) } s)) ∧
    (∀ (half core k n slot : Nat), s.unitsRun = true → core < 128 →
      s.group? { half := half, core := core, slot := slot } = some x → x.block = n → x.done = false →
      (∀ q ∈ s.blockGroups half core n, q.2.done = false → q.2.wait = .barrier k) →
      Does (.barComplete half core n k) s fun t =>
        (∀ i y, s.group? { half := half, core := core, slot := i } = some y →
          t.group? { half := half, core := core, slot := i } = some (if y.block = n ∧ y.done = false then { y with wait := .ready } else y)) ∧
        (∀ h : GroupRef, h.core < 128 → (h.half ≠ half ∨ h.core ≠ core) → t.group? h = s.group? h) ∧
        t = { s with cor := { s.cor with cores := t.cor.cores } }) ∧
    (s.issues g f (ctlSpec .unused .r false true true true) x b → f.mod < 4 → Does (.fence g f) s fun t =>
        ((f.mod < 2 ∨ x.storesOut = 0) → OnlyGroup g { x with pc := x.pc + f.len } s t) ∧
        (2 ≤ f.mod → 0 < x.storesOut → OnlyGroup g { x with wait := .fence f.mod } s t)) ∧
    (s.issues g f (ctlSpec (.regs 2) .r false false true true) x b → f.mod = 0 → Does (.mxs g f) s fun t =>
        (x.acting f = [] → OnlyGroup g { x with pc := x.pc + f.len } s t) ∧
        (∀ l ls, x.acting f = l :: ls → s.poisoned (x.regs' l f.a 2) 128 = false → t.group? g = some { x with wait := .submit } ∧
          ∃ q, (t.array g.half).asks = (s.array g.half).asks ++ [q] ∧ q.group = g ∧ q.addr = x.regs' l f.a 2 ∧ q.pc = x.pc ∧
            (q.desc = none ↔ (q.addr % 128 ≠ 0 ∨ s.inHbm q.addr = false)))) ∧
    (s.issues g f (ctlSpec .unused .r false false false true) x b → f.mod = 0 →
      Does (.mxw g f) s (OnlyGroup g { x with pc := x.pc + f.len, wait := if x.tilesOut = 0 ∨ x.acting f = [] then .ready else .tiles } s))

/-- LDS, STS and ATOMS act on the block's window (R271, R300, R301, R306, R309, R331, R332, R340, R341, R342). -/
def Obligations.LocalStoreAccess : Prop :=
  ∀ (g : GroupRef) (f : CoreFields) (x : Group) (b : Blk) (s : State),
    (let n := [1, 1, 2, 2, 4, 8, 16].getD (bits f.mod 2 0) 0
      let k := [1, 1, 1, 1, 1, 2, 4].getD (bits f.mod 2 0) 0
      s.issues g f (memSpec (.regs k) .unused .unused 1 true false false) x b → f.mod < 7 → (∀ l ∈ x.acting f, x.lsAddr f l % n = 0 ∧ x.lsAddr f l + n ≤ b.window) →
      Does (.lds g f) s (Writes g f (memSpec (.regs k) .unused .unused 1 true false false) x k (fun l =>
        let v := Mem.readLE b.ls (x.lsAddr f l) n
        (if f.mod = 1 ∨ f.mod = 3 then unsigned 32 (signed (8 * n) v) else v) % 2 ^ (32 * k))
        (s.count (R.corLsReplay g.half) (lsReplays ((x.acting f).map fun l => (x.lsAddr f l, n)))))) ∧
    (let n := [1, 1, 2, 2, 4, 8, 16].getD (bits f.mod 2 0) 0
      let k := [1, 1, 1, 1, 1, 2, 4].getD (bits f.mod 2 0) 0
      s.issues g f (memSpec .unused (.regs k) .unused 1 true true false) x b → f.mod < 7 → (∀ l ∈ x.acting f, x.lsAddr f l % n = 0 ∧ x.lsAddr f l + n ≤ b.window) →
      Does (.sts g f) s fun t => ∃ ls,
        OnlyBlock g { x with pc := x.pc + f.len } x.block { b with ls := ls }
          (s.count (R.corLsReplay g.half) (lsReplays ((x.acting f).map fun l => (x.lsAddr f l, n)))) t ∧
        Overlays (x.acting f) (x.lsAddr f) (fun l => x.regs' l f.b k) n (fun a => (Mem.read b.ls a).toNat) (fun a => (Mem.read ls a).toNat)) ∧
    (∀ o, bits f.mod 3 0 = o → o < 8 → bits f.mod 7 6 = 0 → bit f.mod 4 = false → (bit f.mod 5 = true → o = 1 ∨ o = 2) →
      s.issues g f (atomSpec f 1 1 true) x b → (∀ l ∈ x.acting f, x.lsAddr f l % 4 = 0 ∧ x.lsAddr f l + 4 ≤ b.window) →
      Does (.atoms g f) s fun t => ∃ (y : Group) (ls : Mem) (m : Nat → Mem),
        OnlyBlock g y x.block { b with ls := ls }
          (s.count (R.corLsReplay g.half) (atomsReplays ((x.acting f).map (x.lsAddr f)))) t ∧
        y = { x with regs := y.regs, pc := x.pc + f.len } ∧ m 0 = b.ls ∧ m (x.acting f).length = ls ∧
        (∀ l r, r < 256 → (l ∉ x.acting f ∨ r ≠ f.d) → y.reg l r = x.reg l r) ∧
        ∀ i l, (x.acting f)[i]? = some l →
          let a := x.lsAddr f l
          let old := Mem.readLE (m i) a 4
          let v := x.reg l f.b
          let lt : Bool := if bit f.mod 5 then decide (old ≤ v) else decide (signed 32 old ≤ signed 32 v)
          let gt : Bool := if bit f.mod 5 then decide (v ≤ old) else decide (signed 32 v ≤ signed 32 old)
          (f.d < 255 → y.reg l f.d = old) ∧
          m (i + 1) = Mem.writeLE (m i) a 4 ([(old + v) % 2 ^ 32, if lt then old else v, if gt then old else v, old &&& v, old ||| v, old ^^^ v, v,
            if old = x.reg l f.c then v else old].getD o 0))

/-- Misaligned addresses and addresses outside what an instruction may use raise MISALIGN, ADDR, LS_RANGE or ATOM_ADDR (R306, R307, R308, R309, R321, R330). -/
def Obligations.MemoryTraps : Prop :=
  ∀ (g : GroupRef) (f : CoreFields) (x : Group) (b : Blk) (s : State),
    (∀ k, s.issues g f (memSpec (.regs k) .unused .unused 2 true false true) x b → x.unconf = [] → x.pendRegs = [] → x.pendPreds = [] → x.pathPending = false → memModOk f.mod = true → k = [1, 1, 1, 1, 1, 2, 4].getD (bits f.mod 2 0) 0 →
      let n := [1, 1, 2, 2, 4, 8, 16].getD (bits f.mod 2 0) 1
      let bad := (x.acting f).filter fun l => x.addr f l % n != 0
      let out := (x.acting f).filter fun l => !s.addrOk b (x.addr f l)
      (bad ≠ [] → Does (.ld g f) s (Traps g x 0x05 0 (maskOf bad) s)) ∧
      (bad = [] → out ≠ [] → Does (.ld g f) s (Traps g x 0x06 0 (maskOf out) s))) ∧
    (∀ k, s.issues g f (memSpec .unused (.regs k) .unused 2 true true false) x b → x.unconf = [] → x.pendRegs = [] → x.pendPreds = [] → x.pathPending = false → memModOk f.mod = true → k = [1, 1, 1, 1, 1, 2, 4].getD (bits f.mod 2 0) 0 →
      let n := [1, 1, 2, 2, 4, 8, 16].getD (bits f.mod 2 0) 1
      let bad := (x.acting f).filter fun l => x.addr f l % n != 0
      let out := (x.acting f).filter fun l => !s.addrOk b (x.addr f l)
      (bad ≠ [] → Does (.st g f) s (Traps g x 0x05 0 (maskOf bad) s)) ∧
      (bad = [] → out ≠ [] → Does (.st g f) s (Traps g x 0x06 0 (maskOf out) s))) ∧
    (∀ k, s.issues g f (memSpec (.regs k) .unused .unused 2 true false true) x b → x.unconf = [] → x.pendRegs = [] → x.pendPreds = [] → x.pathPending = false → (f.mod = 4 ∨ f.mod = 5 ∨ f.mod = 6) → k = [1, 1, 1, 1, 1, 2, 4].getD (bits f.mod 2 0) 0 →
      let n := [1, 1, 2, 2, 4, 8, 16].getD (bits f.mod 2 0) 1
      let bad := (x.acting f).filter fun l => x.addr f l % n != 0
      let out := (x.acting f).filter fun l => !s.addrOk b (x.addr f l)
      (bad ≠ [] → Does (.ldc g f) s (Traps g x 0x05 0 (maskOf bad) s)) ∧
      (bad = [] → out ≠ [] → Does (.ldc g f) s (Traps g x 0x06 0 (maskOf out) s))) ∧
    (∀ k, s.issues g f (atomSpec f k 2 true) x b → x.unconf = [] → x.pendRegs = [] → x.pendPreds = [] → x.pathPending = false → atomModOk f.mod = true → k = (if bit f.mod 4 then 2 else 1) →
      let n := 4 * k
      let bad := (x.acting f).filter fun l => x.addr f l % n != 0
      let out := (x.acting f).filter fun l => !s.inHbm (x.addr f l)
      (bad ≠ [] → Does (.atom g f) s (Traps g x 0x05 0 (maskOf bad) s)) ∧
      (bad = [] → out ≠ [] → Does (.atom g f) s (Traps g x 0x08 0 (maskOf out) s))) ∧
    (∀ k, s.issues g f (memSpec (.regs k) .unused .unused 1 true false false) x b → x.unconf = [] → x.pendRegs = [] → x.pendPreds = [] → x.pathPending = false → f.mod < 7 → k = [1, 1, 1, 1, 1, 2, 4].getD (bits f.mod 2 0) 0 →
      let n := [1, 1, 2, 2, 4, 8, 16].getD (bits f.mod 2 0) 1
      let bad := (x.acting f).filter fun l => x.lsAddr f l % n != 0
      let out := (x.acting f).filter fun l => decide (b.window < x.lsAddr f l + n)
      (bad ≠ [] → Does (.lds g f) s (Traps g x 0x05 0 (maskOf bad) s)) ∧
      (bad = [] → out ≠ [] → Does (.lds g f) s (Traps g x 0x07 0 (maskOf out) s))) ∧
    (∀ k, s.issues g f (memSpec .unused (.regs k) .unused 1 true true false) x b → x.unconf = [] → x.pendRegs = [] → x.pendPreds = [] → x.pathPending = false → f.mod < 7 → k = [1, 1, 1, 1, 1, 2, 4].getD (bits f.mod 2 0) 0 →
      let n := [1, 1, 2, 2, 4, 8, 16].getD (bits f.mod 2 0) 1
      let bad := (x.acting f).filter fun l => x.lsAddr f l % n != 0
      let out := (x.acting f).filter fun l => decide (b.window < x.lsAddr f l + n)
      (bad ≠ [] → Does (.sts g f) s (Traps g x 0x05 0 (maskOf bad) s)) ∧
      (bad = [] → out ≠ [] → Does (.sts g f) s (Traps g x 0x07 0 (maskOf out) s))) ∧
    (∀ k, s.issues g f (atomSpec f k 1 true) x b → x.unconf = [] → x.pendRegs = [] → x.pendPreds = [] → x.pathPending = false → k = 1 → atomModOk f.mod = true → bits f.mod 3 0 < 8 → bit f.mod 4 = false → bit f.mod 6 = false →
      let n := 4
      let bad := (x.acting f).filter fun l => x.lsAddr f l % n != 0
      let out := (x.acting f).filter fun l => decide (b.window < x.lsAddr f l + n)
      (bad ≠ [] → Does (.atoms g f) s (Traps g x 0x05 0 (maskOf bad) s)) ∧
      (bad = [] → out ≠ [] → Does (.atoms g f) s (Traps g x 0x07 0 (maskOf out) s)))

/-- Loads whose sectors the L1 or the constant cache holds complete at once with their bytes (R300, R301, R304, R305, R331, R334, R344, R481). -/
def Obligations.LoadsServedByTheCore : Prop :=
  ∀ (g : GroupRef) (f : CoreFields) (x : Group) (b : Blk) (s : State),
    (let n := [1, 1, 2, 2, 4, 8, 16].getD (bits f.mod 2 0) 0
      let k := [1, 1, 1, 1, 1, 2, 4].getD (bits f.mod 2 0) 0
      s.issues g f (memSpec (.regs k) .unused .unused 2 true false true) x b → x.addrPending f [f.a, f.a + 1] = false → memModOk f.mod = true → b.shadow = false → x.replay = [] →
      bits f.mod 4 3 ≠ 1 → (bit f.mod 5 = false ∨ bits f.mod 7 6 < 2) → x.acting f ≠ [] →
      (∀ l ∈ x.acting f, x.addr f l % n = 0 ∧ s.inHbm (x.addr f l) = true ∧
        ∃ z, s.l1Line (s.l1Key g) (x.addr f l / 128) = some z ∧ z.st.readable = true ∧ bit z.valid (x.addr f l / 32 % 4) = true) →
      Does (.ld g f) s fun t => ∃ y, t.group? g = some y ∧
        y = { x with regs := y.regs, pc := x.pc + f.len, memop := none, savedRows := y.savedRows } ∧
        x.wrote y f k (fun l => match s.l1Line (s.l1Key g) (x.addr f l / 128) with
          | some z =>
            let v := lineGet z.data (x.addr f l % 128) n
            if bits f.mod 2 0 = 1 ∨ bits f.mod 2 0 = 3 then unsigned 32 (signed (8 * n) v) else v
          | none => 0) ∧
        (∀ h : GroupRef, h.core < 128 → h ≠ g → t.group? h = s.group? h) ∧ t.hbm = s.hbm ∧ t.mem.net = s.mem.net ∧
        t.reg (R.corGsect g.half) = min (s.reg (R.corGsect g.half) + (((x.acting f).map fun l => x.addr f l / 32).eraseDups).length) (2 ^ 32 - 1)) ∧
    (∀ n, [4, 8, 16][bits f.mod 1 0]? = some n → bits f.mod 4 2 < 5 → bits f.mod 7 6 ≠ 1 → bits f.mod 7 6 < 3 → f.a < 255 → f.d % 4 = 0 → f.b % 4 = 0 →
      f.d + n ≤ x.regsPer → f.b + n ≤ x.regsPer → x.regsPer ≤ 255 → rangesApart f.d n f.b n = true → rangesApart f.d n f.a 2 = true → rangesApart f.b n f.a 2 = true →
      s.issues g f (memSpec (.regs 1) (.regs 1) .unused 2 true false true) x b → x.unconf = [] → x.pendRegs = [] → x.pendPreds = [] → x.pathPending = false →
      b.shadow = false → x.replay = [] → x.acting f ≠ [] →
      let addr : Nat → Nat → Nat := fun l i => unsigned 64 ((x.regs' l f.a 2 : Int) + f.offset +
        (if bit f.mod 5 then signed 32 (x.reg l (f.b + i)) else (x.reg l (f.b + i) : Int)) * 2 ^ bits f.mod 4 2)
      (∀ l ∈ x.acting f, ∀ i, Map.getD x.gprog l 0 ≤ i → i < n → addr l i % 4 = 0 ∧ s.inHbm (addr l i) = true ∧
        ∃ z, s.l1Line (s.l1Key g) (addr l i / 128) = some z ∧ z.st.readable = true ∧ bit z.valid (addr l i / 32 % 4) = true) →
      Does (.ldGn g f) s fun t => ∃ y, t.group? g = some y ∧
        y = { x with regs := y.regs, pc := x.pc + f.len, memop := none, gprog := [] } ∧
        (∀ l ∈ x.acting f, ∀ i, Map.getD x.gprog l 0 ≤ i → i < n → ∀ z, s.l1Line (s.l1Key g) (addr l i / 128) = some z →
          y.reg l (f.d + i) = lineGet z.data (addr l i % 128) 4) ∧
        (∀ l r, r < 256 → (l ∉ x.acting f ∨ r < f.d + Map.getD x.gprog l 0 ∨ f.d + n ≤ r) → y.reg l r = x.reg l r) ∧
        (∀ h : GroupRef, h.core < 128 → h ≠ g → t.group? h = s.group? h) ∧ t.hbm = s.hbm ∧ t.mem.net = s.mem.net) ∧
    (∀ ln d, let n := [1, 1, 2, 2, 4, 8, 16].getD (bits f.mod 2 0) 0
      let k := [1, 1, 1, 1, 1, 2, 4].getD (bits f.mod 2 0) 0
      s.issues g f (memSpec (.regs k) .unused .unused 2 true false true) x b → x.addrPending f [f.a, f.a + 1] = false → (f.mod = 4 ∨ f.mod = 5 ∨ f.mod = 6) → x.acting f ≠ [] →
      (∀ l ∈ x.acting f, x.addr f l % n = 0 ∧ s.inHbm (x.addr f l) = true ∧ x.addr f l / 128 = ln ∧
        (x.addr f l < b.argBase ∨ b.argBase + b.argLen < x.addr f l + n)) → (s.core g.half g.core).const? ln = some d →
      Does (.ldc g f) s fun t => ∃ y, t.group? g = some y ∧
        y = { x with regs := y.regs, pc := x.pc + f.len, memop := none, savedRows := y.savedRows } ∧
        x.wrote y f k (fun l => lineGet d (x.addr f l % 128) n) ∧
        (∀ h : GroupRef, h.core < 128 → h ≠ g → t.group? h = s.group? h) ∧ t.hbm = s.hbm ∧ t.mem.net = s.mem.net)

/-- Stores write an owned line; misses, bypassing and volatile accesses and atomics ask the home (R300, R308, R331, R332, R337, R338, R468, R469, R481, R508, R509, R510). -/
def Obligations.StoresAndRequestsOfACore : Prop :=
  ∀ (g : GroupRef) (f : CoreFields) (x : Group) (b : Blk) (s : State) (ln : Nat),
    (let n := [1, 1, 2, 2, 4, 8, 16].getD (bits f.mod 2 0) 0
      let k := [1, 1, 1, 1, 1, 2, 4].getD (bits f.mod 2 0) 0
      s.issues g f (memSpec .unused (.regs k) .unused 2 true true false) x b → memModOk f.mod = true → bits f.mod 4 3 ≠ 1 → (bit f.mod 5 = false ∨ bits f.mod 7 6 < 2) → x.acting f ≠ [] → (∀ l ∈ x.acting f, x.addr f l % n = 0 ∧ s.inHbm (x.addr f l) = true ∧ x.addr f l / 128 = ln) →
      ∀ z, s.l1Line (s.l1Key g) ln = some z → (z.st = .m ∨ z.st = .e) → (∀ l ∈ x.acting f, bit z.valid (x.addr f l / 32 % 4) = true) →
      (s.l1 (s.l1Key g)).isOpen ln = false →
      Does (.st g f) s fun t => t.group? g = some { x with pc := x.pc + f.len, memop := none } ∧
        (∀ h : GroupRef, h.core < 128 → h ≠ g → t.group? h = s.group? h) ∧ t.hbm = s.hbm ∧ t.mem.net = s.mem.net ∧
        ∃ w, t.l1Line (s.l1Key g) ln = some w ∧ w.st = .m ∧ w.valid = z.valid ∧
          (∀ i, i < 4 → bit w.dirty i = (bit z.dirty i || decide (∃ l ∈ x.acting f, x.addr f l / 32 % 4 = i))) ∧
          Overlays (x.acting f) (x.addr f) (fun l => x.regs' l f.b k) n (fun a => if a / 128 = ln then lineGet z.data (a % 128) 1 else 0) (fun a => if a / 128 = ln then lineGet w.data (a % 128) 1 else 0)) ∧
    (let n := [1, 1, 2, 2, 4, 8, 16].getD (bits f.mod 2 0) 0
      let k := [1, 1, 1, 1, 1, 2, 4].getD (bits f.mod 2 0) 0
      s.issues g f (memSpec (.regs k) .unused .unused 2 true false true) x b → memModOk f.mod = true → b.shadow = false → x.replay = [] → x.addrPending f [f.a, f.a + 1] = false → bits f.mod 4 3 ≠ 1 → (bit f.mod 5 = false ∨ bits f.mod 7 6 < 2) → x.acting f ≠ [] → (∀ l ∈ x.acting f, x.addr f l % n = 0 ∧ s.inHbm (x.addr f l) = true ∧ x.addr f l / 128 = ln) → s.l1Line (s.l1Key g) ln = none →
      ((s.l1 (s.l1Key g)).lines.filter fun z => z.line % 64 == ln % 64 && z.st != .miA && z.st != .iiA).length < l1Ways (s.l1 (s.l1Key g)).split →
      Does (.ld g f) s fun t => ∃ y op m, t.group? g = some y ∧ y = { x with wait := .memory, memop := some op, savedRows := y.savedRows } ∧ op.tag = s.mem.nextLoad + 1 ∧
        m < 16 ∧ (∀ i, i < 4 → (bit m i = true ↔ ∃ l ∈ x.acting f, x.addr f l / 32 % 4 = i)) ∧
        Sends { CohMsg.mk0 .getS (.core (s.l1Key g)) (.home (s.homeOf ln)) ln with mask := m } s t ∧
        ∃ w, t.l1Line (s.l1Key g) ln = some w ∧ w.st = .isD) ∧
    (let n := [1, 1, 2, 2, 4, 8, 16].getD (bits f.mod 2 0) 0
      let k := [1, 1, 1, 1, 1, 2, 4].getD (bits f.mod 2 0) 0
      s.issues g f (memSpec .unused (.regs k) .unused 2 true true false) x b → memModOk f.mod = true → bits f.mod 4 3 ≠ 1 → (bit f.mod 5 = false ∨ bits f.mod 7 6 < 2) → x.acting f ≠ [] → (∀ l ∈ x.acting f, x.addr f l % n = 0 ∧ s.inHbm (x.addr f l) = true ∧ x.addr f l / 128 = ln) → s.l1Line (s.l1Key g) ln = none →
      ((s.l1 (s.l1Key g)).lines.filter fun z => z.line % 64 == ln % 64 && z.st != .miA && z.st != .iiA).length < l1Ways (s.l1 (s.l1Key g)).split →
      Does (.st g f) s fun t => ∃ y op m, t.group? g = some y ∧ y = { x with wait := .memory, memop := some op, savedRows := y.savedRows } ∧ op.tag = s.mem.nextLoad + 1 ∧
        m < 16 ∧ (∀ i, i < 4 → (bit m i = true ↔ ∃ l ∈ x.acting f, x.addr f l / 32 % 4 = i)) ∧
        Sends { CohMsg.mk0 .getM (.core (s.l1Key g)) (.home (s.homeOf ln)) ln with mask := m } s t ∧
        ∃ w, t.l1Line (s.l1Key g) ln = some w ∧ w.st = .imD) ∧
    (let n := [1, 1, 2, 2, 4, 8, 16].getD (bits f.mod 2 0) 0
      let k := [1, 1, 1, 1, 1, 2, 4].getD (bits f.mod 2 0) 0
      s.issues g f (memSpec (.regs k) .unused .unused 2 true false true) x b → memModOk f.mod = true → b.shadow = false → x.replay = [] → x.addrPending f [f.a, f.a + 1] = false → (bits f.mod 4 3 = 1 ∨ (bit f.mod 5 = true ∧ 2 ≤ bits f.mod 7 6)) → x.acting f ≠ [] → (∀ l ∈ x.acting f, x.addr f l % n = 0 ∧ s.inHbm (x.addr f l) = true ∧ x.addr f l / 128 = ln) →
      Does (.ld g f) s fun t => ∃ y op m, t.group? g = some y ∧ y = { x with wait := .memory, memop := some op, savedRows := y.savedRows } ∧ op.tag = s.mem.nextLoad + 1 ∧
        m < 16 ∧ (∀ i, i < 4 → (bit m i = true ↔ ∃ l ∈ x.acting f, x.addr f l / 32 % 4 = i)) ∧
        Sends { CohMsg.mk0 .rdNC (.core (s.l1Key g)) (.home (s.homeOf ln)) ln with
          mask := m, tag := s.mem.nextLoad + 1,
          floor := bit f.mod 5 && decide (2 ≤ bits f.mod 7 6) && decide (m ∈ [1, 2, 4, 8]) } s t) ∧
    (let n := [1, 1, 2, 2, 4, 8, 16].getD (bits f.mod 2 0) 0
      let k := [1, 1, 1, 1, 1, 2, 4].getD (bits f.mod 2 0) 0
      s.issues g f (memSpec .unused (.regs k) .unused 2 true true false) x b → memModOk f.mod = true → (bits f.mod 4 3 = 1 ∨ (bit f.mod 5 = true ∧ 2 ≤ bits f.mod 7 6)) → x.acting f ≠ [] → (∀ l ∈ x.acting f, x.addr f l % n = 0 ∧ s.inHbm (x.addr f l) = true ∧ x.addr f l / 128 = ln) →
      Does (.st g f) s fun t => ∃ y op m, t.group? g = some y ∧ y = { x with wait := .memory, memop := some op, savedRows := y.savedRows } ∧ op.tag = s.mem.nextLoad + 1 ∧
        m < 16 ∧ (∀ i, i < 4 → (bit m i = true ↔ ∃ l ∈ x.acting f, x.addr f l / 32 % 4 = i)) ∧ ∃ bm d,
        (∀ i, i < 128 → (bit bm i = true ↔ ∃ l ∈ x.acting f, x.addr f l ≤ ln * 128 + i ∧ ln * 128 + i < x.addr f l + n)) ∧
        Overlays (x.acting f) (x.addr f) (fun l => x.regs' l f.b k) n (fun _ => 0) (fun a => if a / 128 = ln then lineGet d (a % 128) 1 else 0) ∧
        Sends { CohMsg.mk0 .wrNC (.core (s.l1Key g)) (.home (s.homeOf ln)) ln with
          mask := m, bytes := bm, data := d, tag := s.mem.nextLoad + 1 } s t) ∧
    (let k := if bit f.mod 4 then 2 else 1
      let n := 4 * k
      s.issues g f (atomSpec f k 2 true) x b → atomModOk f.mod = true → x.acting f ≠ [] → (∀ l ∈ x.acting f, x.addr f l % n = 0 ∧ s.inHbm (x.addr f l) = true ∧ x.addr f l / 128 = ln) →
      Does (.atom g f) s fun t => ∃ y op m, t.group? g = some y ∧ y = { x with wait := .memory, memop := some op, savedRows := y.savedRows } ∧ op.tag = s.mem.nextLoad + 1 ∧
        m < 16 ∧ (∀ i, i < 4 → (bit m i = true ↔ ∃ l ∈ x.acting f, x.addr f l / 32 % 4 = i)) ∧
        Sends { CohMsg.mk0 .atom (.core (s.l1Key g)) (.home (s.homeOf ln)) ln with
          mask := m, tag := s.mem.nextLoad + 1,
          ops := (x.acting f).map fun l => {
            lane := l, off := x.addr f l % 128, op := bits f.mod 3 0, len := n, uns := bit f.mod 5,
            val := x.regs' l f.b k, cmp := x.regs' l f.c k } } s t)

/-- A resume or an abort of a half with no group stopped is ignored (R361). -/
def Obligations.MemoryFaultControlIgnored : Prop :=
  ∀ (half : Nat) (s : State), s.stoppedOf half = [] → Ignored (.mfltResume half) s ∧ Ignored (.mfltAbort half) s

/-- Traps and resumable faults are reported, resumed, aborted and timed out (R323, R324, R325, R327, R356, R357, R358, R359, R360, R368). -/
def Obligations.TrapsAndMemoryFaults : Prop :=
  (∀ (part lh : Nat) (g : GroupRef) (x : Group) (tr : TrapInfo) (others : List (Nat × GroupRef × Group × TrapInfo)) (s : State),
      s.unitsRun = true → (∀ q ∈ s.trapped part, tr.turn ≤ q.2.2.2.turn) →
      ((s.trapped part).filter fun q => q.2.2.2.turn == tr.turn) = (lh, g, x, tr) :: others → tr.code < 256 → tr.user < 2048 → g.slot < 64 →
      g.half < 16 → (∀ q ∈ others, q.2.1.half < 16) →
      Does (.trapReport part) s fun t => ∃ u : State, u.fld (R.corTrapInfo g.half) 7 0 = tr.code ∧ u.fld (R.corTrapInfo g.half) 18 8 = tr.user ∧
        u.fld (R.corTrapInfo g.half) 24 19 = g.slot ∧ u.reg (R.corTrapPc g.half) = x.pc % 2 ^ 32 ∧
        u.reg (R.corTrapLanes g.half) = tr.lanes % 2 ^ 32 ∧ u.reg (R.corTrapCore g.half) = g.core % 2 ^ 32 ∧ u.jobs = s.jobs ∧ u.cor = s.cor ∧
        t = u.resetPart part 3 ([tr.code, lh, g.slot, 0] ++ leBytes 2 g.core ++ leBytes 2 tr.user ++ leBytes 4 x.pc ++ leBytes 4 tr.lanes)) ∧
    (∀ (half : Nat) (s : State), half < 16 → Does (.trapClear half) s fun t =>
      t.reg (R.corTrapInfo half) = 0 ∧ t.reg (R.corTrapPc half) = 0 ∧ t.reg (R.corTrapLanes half) = 0 ∧ t.reg (R.corTrapCore half) = 0 ∧
      RegsBut [R.corTrapInfo half, R.corTrapPc half, R.corTrapLanes half, R.corTrapCore half] s t ∧ OnlyRegs s t) ∧
    (∀ (g : GroupRef) (x : Group) (op : MemOp) (c : Nat) (p : Piece) (s : State), s.unitsRun = true → g.wf = true → s.group? g = some x →
      x.wait = .fault c → c < 8 → x.memop = some op → x.faultRound = 0 → x.unconf = [] → p ∈ op.pieces → p.faultCode ≠ 0 → p.lane < 32 →
      (∀ q ∈ op.pieces, q.faultCode ≠ 0 → q ≠ p → p.lane < q.lane ∨ (p.lane = q.lane ∧ p.elem < q.elem)) →
      s.flag (R.corMemCfg (g.half / 2)) 16 = false →
      Does (.resumableFaultReport g) s fun t => ∃ (u : State) (d : List Nat), t = (u.memNotice g.half d).showStopped g.half ∧
        u.group? g = some { x with faultRound := s.mod.islandUs + 1, faultTimeout := s.fld (R.corMemCfg (g.half / 2)) 15 0 } ∧
        (s.flag (R.corMfltInfo g.half) 0 = false → u.flag (R.corMfltInfo g.half) 0 = true ∧ u.fld (R.corMfltInfo g.half) 3 1 = c ∧
          u.fld (R.corMfltInfo g.half) 11 6 = g.slot ∧ u.fld (R.corMfltInfo g.half) 16 12 = p.lane ∧ u.fld (R.corMfltInfo g.half) 27 21 = g.core ∧
          u.pair (R.corMfltAddrLo g.half) (R.corMfltAddrHi g.half) = p.addr % 2 ^ 48) ∧
        (s.flag (R.corMfltInfo g.half) 0 = true → u.reg (R.corMfltInfo g.half) = s.reg (R.corMfltInfo g.half) ∧
          u.fld (R.corMfltStop g.half) 31 16 = min (s.fld (R.corMfltStop g.half) 31 16 + 1) (2 ^ 16 - 1))) ∧
    (∀ (half : Nat) (g : GroupRef) (x : Group) (s : State), half < 16 → s.unitsRun = true → s.stoppedOf half = [(g, x)] →
      Does (.mfltResume half) s fun t => ∃ u : State, u.reg (R.corMfltInfo half) = 0 ∧ u.reg (R.corMfltStop half) = 0 ∧
        u.pair (R.corMfltAddrLo half) (R.corMfltAddrHi half) = 0 ∧ u.cor = s.cor ∧ u.mem = s.mem ∧
        t = ((u.setGroup g { x with
          wait := .memory, faultRound := 0,
          memop := x.memop.map fun op => { op with pieces := op.pieces.map fun p => { p with st := .idle } } }).tryMem g).showStopped half) ∧
    (∀ (half p : Nat) (s : State), half < 16 → s.unitsRun = true → s.stoppedOf half ≠ [] → s.partOfHalf half = some p →
      (Does (.mfltAbort half) s fun t => ∃ d, t = ((s.halfEvent half 0x040B [(1, half), (1, s.fld (R.corMfltInfo half) 3 1), (1, 0)]).resetPart p 4 d).showStopped half) ∧
      ((∃ q ∈ s.stoppedOf half, q.2.faultRound ≠ 0 ∧ q.2.faultTimeout ≠ 0 ∧ q.2.faultRound - 1 + q.2.faultTimeout * 1000 ≤ s.mod.islandUs) →
        Does (.mfltTimeout half) s fun t => ∃ d, t = ((s.halfEvent half 0x040B [(1, half), (1, s.fld (R.corMfltInfo half) 3 1), (1, 1)]).resetPart p 4 d).showStopped half))

/-- The end of a block, and confirmations that confirm or deny shadow reads (R274, R314, R319, R377, R517, R518, R519, R522). -/
def Obligations.BlocksAndConfirmations : Prop :=
  (∀ (half core b : Nat) (x : Blk) (s : State), s.unitsRun = true → Map.get? (s.core half core).blocks b = some x →
      (∀ q ∈ s.blockGroups half core b, q.2.done = true ∧ q.2.tilesOut = 0 ∧ q.2.unconf = []) →
      Does (.blockEnd half core b) s fun t =>
        (t.core half core).groups = (s.core half core).groups.filter (fun q => q.2.block != b) ∧
        Map.get? (t.core half core).blocks b = none ∧
        (∀ j, j ≠ b → Map.get? (t.core half core).blocks j = Map.get? (s.core half core).blocks j) ∧
        (∀ h c, coreKey h c ≠ coreKey half core → t.core h c = s.core h c) ∧
        ((t.core half core).blocks ≠ [] → t = { s with cor := t.cor, mem := { s.mem with l1 := t.mem.l1 } }) ∧
        ((∀ q ∈ s.blockGroups half core b, q.2.storesOut = 0) → t.mem = s.mem)) ∧
    (∀ (msg half id : Nat) (m : CohMsg) (e : ConfEntry) (l : UnconfLoad) (g : GroupRef) (x : Group) (c : Checkpoint) (s : State),
      s.unitsRun = true → half < 16 → g.wf = true → g.half = half → s.msgOf msg .data = some m → m.dst = .conf half → m.bad = false →
      Map.get? s.mem.conf m.tag = some e → e.loads = [id] → Map.get? s.mem.loads id = some l → l.half = half → l.core = g.core → l.slot = g.slot →
      l.waits = [m.tag] → s.group? g = some x → x.unconf = [id] → x.ckpt = some c → x.wait ≠ .memory →
      (∀ q ∈ s.cor.cores, q.1 / 128 = half → ∀ p ∈ q.2.groups, (p.2.window ++ p.2.replay).any (fun w => w.conf == m.tag) = true →
        q.1 = coreKey half g.core ∧ p = (g.slot, x)) →
      Does (.confirmationResponse msg) s fun t => ∃ y, t.group? g = some y ∧ y.unconf = [] ∧ y.pendRegs = [] ∧ y.pendPreds = [] ∧
        y.pathPending = false ∧ y.ckpt = none ∧ y.window = [] ∧ Map.get? t.mem.loads id = none ∧ Map.get? t.mem.conf m.tag = none ∧
        (l.agrees m.line m.data = true → y.regs = x.regs ∧ y.preds = x.preds ∧ y.pc = x.pc ∧ y.mask = x.mask ∧ y.stack = x.stack ∧ y.wait = x.wait ∧
          t.reg (R.ucShdDeny half) = s.reg (R.ucShdDeny half)) ∧
        (l.agrees m.line m.data = false → y.regs = c.regs ∧ y.preds = c.preds ∧ y.pc = c.pc ∧ y.mask = c.mask ∧ y.rpc = c.rpc ∧ y.stack = c.stack ∧
          y.gprog = c.gprog ∧ y.wait = .ready ∧ t.reg (R.ucShdDeny half) = min (s.reg (R.ucShdDeny half) + 1) (2 ^ 32 - 1)))

/-- An array accepts, pairs and refuses tile submissions (R374, R375, R380, R381, R401, R404, R405). -/
def Obligations.MatrixTilesAccepted : Prop :=
  (∀ (h : Nat) (q : MxsAsk) (d : TileDesc) (x : Group) (s : State), h < 16 → s.unitsRun = true →
      (s.array h).asks.find? (s.canSettle h) = some q → s.tileReason h q = 0 → q.desc = some d → s.group? q.group = some x →
      (d.role = 0 → Does (.tileAccept h) s fun t =>
        t.group? q.group = some { x with wait := .ready, pc := x.pc + 8, tilesOut := x.tilesOut + 1 } ∧
        (t.array h).asks = (s.array h).asks.filter (· != q) ∧ (t.array h).running = (s.array h).running ∧
        ∃ tile, (t.array h).queue = (s.array h).queue ++ [tile] ∧ tile.group = q.group ∧ tile.desc = d ∧ tile.addr = q.addr ∧
          tile.acc = List.replicate (d.m * d.n) 0 ∧ tile.chunks = 0 ∧ tile.st = .queued ∧ tile.mate = none) ∧
      (∀ (k : Nat) (e : MxsAsk) (de : TileDesc) (y : Group), d.role ≠ 0 → s.mateHalf h d = some k → k ≠ h → s.mateAsk h k d = some e →
        e.desc = some de → e.group ≠ q.group → e.group.core < 128 → q.group.core < 128 → s.group? e.group = some y → d.agrees de = true →
        Does (.tileAccept h) s fun t =>
          t.group? q.group = some { x with wait := .ready, pc := x.pc + 8, tilesOut := x.tilesOut + 1 } ∧
          t.group? e.group = some { y with wait := .ready, pc := y.pc + 8, tilesOut := y.tilesOut + 1 } ∧
          (t.array h).partner = some k ∧ (t.array k).partner = some h ∧
          (t.array h).queue.length = (s.array h).queue.length + 1 ∧ (t.array k).queue.length = (s.array k).queue.length + 1)) ∧
    (∀ (h r : Nat) (q : MxsAsk) (x : Group) (s : State), h < 16 → s.unitsRun = true → q.group.wf = true → s.group? q.group = some x → 0 < r →
      let refused : State → Prop := fun t =>
        t.fld (R.mxaErr h) 3 0 = r ∧ t.flag (R.mxaErr h) 31 = true ∧ t.fld (R.mxaErr h) 9 4 = q.group.slot ∧
        t.fld (R.mxaErr h) 16 10 = q.group.core ∧ t.reg (R.mxaErrPc h) = q.pc % 2 ^ 32 ∧
        t.group? q.group = some { x with wait := .trap, trap := some { code := 0x0D, user := 0, lanes := x.mask, turn := s.absTurn } } ∧
        (t.array h).asks = (s.array h).asks.filter (· != q) ∧ (t.array h).queue = (s.array h).queue
      ((s.array h).asks.find? (s.canSettle h) = some q → s.tileReason h q = r → Does (.tileAccept h) s refused) ∧
      (∀ d, (s.array h).asks = [q] → q.desc = some d → d.role ≠ 0 → s.tileReason h q = 0 → (s.array h).timeout ≠ 0 →
        q.round + (s.array h).timeout ≤ s.rnd.round → r = 8 → Does (.pairTimeout h) s refused))

/-- Chunks are staged, main loops start and end, and tiles complete (R383, R385, R387, R396, R400, R406, R409). -/
def Obligations.MatrixTilesRun : Prop :=
  (∀ (h : Nat) (tile : Tile) (s : State), h < 16 → s.unitsRun = true → (s.array h).staging = some tile → tile.desc.role = 0 →
      (s.array h).queue = [tile] → (s.array h).running = [] →
      let d := tile.desc
      let lo := tile.chunks * d.chunkLen
      let len := min d.chunkLen (d.k - lo)
      s.chunkPoisoned d false lo len = false → s.chunkPoisoned d true lo len = false →
      Does (.chunkStaged h) s fun t => ∃ u, (t.array h).queue = [u] ∧ u = { tile with chunks := tile.chunks + 1, acc := u.acc, inbox := tile.inbox.drop 1 } ∧
        t = { s with arr := t.arr, regs := t.regs } ∧
        (d.fmtA = 1 → d.fmtB = 1 → bits d.pro 1 0 = 0 → tile.acc.length = d.m * d.n → ∀ i j, i < d.m → j < d.n →
          u.acc.getD (i * d.n + j) 0 = tile.acc.getD (i * d.n + j) 0 +
            ((List.range len).map fun k => signed 8 (s.deviceByte (d.aAddr + i * d.lda + lo + k)) *
              signed 8 (s.deviceByte (d.bAddr + j * d.ldb + lo + k))).sum)) ∧
    (∀ (h : Nat) (tile : Tile) (rest : List Tile) (s : State), h < 16 → s.unitsRun = true → (s.array h).queue = tile :: rest →
      (∀ u ∈ (s.array h).running, u.st ≠ .main) → (s.array h).running.length < 2 → tile.desc.role = 0 → tile.mate = none → s.drawsOf h = [] →
      (if tile.desc.full then 72 else 56) ≤ s.shareOf h →
      Does (.mainLoopStart h) s fun t => (t.array h).queue = rest ∧
        (t.array h).running = (s.array h).running ++ [{ tile with st := .main, asked := none }] ∧ t.drawGranted h drawMain = true) ∧
    (∀ (h stall : Nat) (tile : Tile) (s : State), h < 16 → s.unitsRun = true → (s.array h).running = [tile] → tile.st = .main →
      tile.desc.chunks ≤ tile.chunks → Does (.mainLoopEnd h stall) s fun t => ∃ u : State, t = u.startEpilogue h ∧
        (u.array h).running = [{ tile with st := .ended }] ∧ u.drawGranted h drawMain = false ∧ u.drawGranted h drawLead = false ∧
        u.pair (R.mxaMainLo h) (R.mxaMainHi h) =
          (s.pair (R.mxaMainLo h) (R.mxaMainHi h) + (if tile.desc.full then 1 else 2) * tile.desc.k + stall) % 2 ^ 64 ∧
        u.reg (R.mxaStall h) = min (s.reg (R.mxaStall h) + stall) (2 ^ 32 - 1)) ∧
    (∀ (h : Nat) (tile : Tile) (x : Group) (s : State), h < 16 → s.unitsRun = true → (s.array h).running = [tile] → tile.st = .epi →
      s.writesOut (tagTile h tile.no) = 0 → s.group? tile.group = some x →
      Does (.tileComplete h) s fun t => (t.array h).running = [] ∧ (t.array h).queue = (s.array h).queue ∧
        t.group? tile.group = some { x with tilesOut := x.tilesOut - 1, wait := if x.tilesOut = 1 ∧ x.wait = .tiles then .ready else x.wait } ∧
        t.pair (R.mxaTilesLo h) (R.mxaTilesHi h) = (s.pair (R.mxaTilesLo h) (R.mxaTilesHi h) + 1) % 2 ^ 64 ∧ t.drawGranted h drawEpi = false)

/-- A home answers GetS, GetM, Upg, Fill and RdNC from slice, stack, owner or value holder (R425, R470, R471, R472, R473, R474, R477, R480). -/
def Obligations.HomeServesReadsAndOwnership : Prop :=
  ∀ (n h : Nat) (m : CohMsg) (s : State),
    (∀ k, s.orders .getS n m h → m.src = .core k → s.dirHasRoom m.line →
      (s.dirEntry m.line = none → Does (.gets n) s fun t => ∃ d x e,
        Sends { CohMsg.mk0 .data (.home h) m.src m.line with mask := m.mask, data := d, grant := if s.kindF m.line then .f else .e, tag := m.tag, asked := m.asked } s t ∧
        s.holdsBytes m.line m.mask d ∧ Map.get? t.mem.txns m.line = some x ∧ x.doneDue = [(k, if s.kindF m.line then .f else .e)] ∧
        x.invDue = [] ∧ x.fwdDue = none ∧ t.dirEntry m.line = some e ∧ e.st = (if s.kindF m.line then .f else .em)) ∧
      (∀ e o, s.dirEntry m.line = some e → e.st = .em → e.owner = some o → Does (.gets n) s fun t => ∃ x,
        Sends { CohMsg.mk0 .fwdS (.home h) (.core o) m.line with
          reqs := [(m.src, m.mask)], grant := if s.kindF m.line then .f else .s } s t ∧
        Map.get? t.mem.txns m.line = some x ∧ x.fwdDue = some o ∧ x.doneDue = [(k, if s.kindF m.line then .f else .s)])) ∧
    (∀ k, s.orders .getM n m h → m.src = .core k → s.dirHasRoom m.line →
      (s.dirEntry m.line = none → Does (.getm n) s fun t => ∃ d x, Sends { CohMsg.mk0 .data (.home h) m.src m.line with mask := m.mask, data := d, grant := .m, tag := m.tag, asked := m.asked } s t ∧
        s.holdsBytes m.line m.mask d ∧ Map.get? t.mem.txns m.line = some x ∧ x.doneDue = [(k, .m)] ∧ x.invDue = []) ∧
      (∀ e, s.dirEntry m.line = some e → e.st = .s → Does (.getm n) s fun t => ∃ d x,
        SentFrom s.mem.nextMsg (e.sharing.map fun j => CohMsg.mk0 .invS (.home h) (.core j) m.line) t ∧
        SentFrom (s.mem.nextMsg + e.sharing.length) [{ CohMsg.mk0 .data (.home h) m.src m.line with mask := m.mask, data := d, grant := .m, tag := m.tag, asked := m.asked }] t ∧
        Map.get? t.mem.txns m.line = some x ∧ x.doneDue = [(k, .m)] ∧ x.invDue = e.sharing) ∧
      (∀ e o, s.dirEntry m.line = some e → e.st = .em → e.owner = some o → Does (.getm n) s fun t => ∃ x,
        Sends { CohMsg.mk0 .fwdM (.home h) (.core o) m.line with reqs := [(m.src, m.mask)], grant := .m } s t ∧
        Map.get? t.mem.txns m.line = some x ∧ x.fwdDue = some o ∧ x.giver = some o ∧ x.doneDue = [(k, .m)])) ∧
    (∀ k e, s.orders .upg n m h → m.src = .core k → s.dirEntry m.line = some e → e.st = .s → k ∈ e.holders → Does (.upg n) s fun t => ∃ d x,
        let others := e.sharing.filter fun j => some k != some j
        SentFrom s.mem.nextMsg (others.map fun j => CohMsg.mk0 .invS (.home h) (.core j) m.line) t ∧
        SentFrom (s.mem.nextMsg + others.length) [{ CohMsg.mk0 .grant (.home h) m.src m.line with mask := m.mask, data := d }] t ∧
        Map.get? t.mem.txns m.line = some x ∧ x.doneDue = [(k, .m)] ∧ x.invDue = others) ∧
    (∀ c kind, (c, kind) ∈ [(Instr.fill n, MsgKind.fill), (.rdnc n, .rdNC)] → s.arrives kind n m → m.dst = .home h → h < 16 → s.homeOf m.line = h →
      m.line ∉ s.flt.poison → (s.letIn h n m).2 = true →
      (s.valueHolder m.line = none → Does c s fun t => ∃ d, Sends { CohMsg.mk0 .data (.home h) m.src m.line with mask := m.mask, data := d, grant := .i, tag := m.tag, asked := m.asked } s t ∧ s.holdsBytes m.line m.mask d ∧ t.mem.txns = s.mem.txns) ∧
      (∀ k, s.valueHolder m.line = some k → (kind = .rdNC ∨ k ≠ m.src.key) → Does c s fun t => ∃ d,
        Sends { CohMsg.mk0 .fwdR (.home h) (.core k) m.line with
          mask := m.mask, data := d, reqs := [(m.src, m.mask)], tag := m.tag, asked := m.asked } s t ∧
        t.mem.fwdrOut = s.mem.fwdrOut ++ [(m.line, k)] ∧ t.mem.txns = s.mem.txns ∧ t.mem.dir = s.mem.dir))

/-- A home takes back copies, and performs writes and atomics of requesters that keep no copy (R308, R332, R473, R475, R476, R479, R509, R510). -/
def Obligations.HomeServesPutsWritesAndAtomics : Prop :=
  ∀ (n h : Nat) (m : CohMsg) (s : State),
    (∀ k c kind, (c, kind) ∈ [(Instr.putm n, MsgKind.putM), (.pute n, .putE), (.putf n, .putF)] → s.orders kind n m h → m.kind = kind →
      m.src = .core k → s.mem.fwdrOut.contains (m.line, k) = false →
      let ack := { CohMsg.mk0 .putAck (.home h) m.src m.line with tag := m.tag, asked := m.asked }
      (∀ e, s.dirEntry m.line = some e → e.owner = some k → e.st = .em → kind ≠ .putF → Does c s fun t => Sends ack s t ∧ t.dirEntry m.line = none ∧
        (kind = .putM → ∀ i, i < 128 → bit m.dirty (i / 32) = true → t.deviceByte (m.line * 128 + i) = lineGet m.data i 1)) ∧
      (∀ e, s.dirEntry m.line = some e → e.owner = some k → e.st = .f → kind = .putF → Does c s fun t => Sends ack s t ∧
        t.dirEntry m.line = (if e.sharers = [] ∧ e.coarse = 0 then none else some { e with st := .s, owner := none })) ∧
      ((∀ e, s.dirEntry m.line = some e → e.owner ≠ some k) → Does c s fun t => Sends ack s t ∧ t.mem.dir = s.mem.dir ∧ t.hbm = s.hbm ∧
        t.mem.sets = s.mem.sets)) ∧
    (s.orders .wrNC n m h → m.kind = .wrNC → s.dirEntry m.line = none → m.halves = 0 → Does (.wrnc n) s fun t =>
        Sends { CohMsg.mk0 .wrAck (.home h) m.src m.line with tag := m.tag, asked := m.asked } s t ∧ Map.get? t.mem.txns m.line = none ∧
        ∀ i, i < 128 → t.deviceByte (m.line * 128 + i) = if bit m.bytes i then lineGet m.data i 1 else s.deviceByte (m.line * 128 + i)) ∧
    (s.orders .atom n m h → m.kind = .atom → s.dirEntry m.line = none → Does (.atomRequest n) s fun t => ∃ d, s.holdsBytes m.line m.mask d ∧
        Sends { CohMsg.mk0 .atomRsp (.home h) m.src m.line with tag := m.tag, asked := m.asked, olds := (atomLanes d m.ops).2 } s t ∧
        Map.get? t.mem.txns m.line = none ∧ t.holdsBytes m.line m.mask (atomLanes d m.ops).1 ∧
        ∀ i, i < 128 → bit m.mask (i / 32) = false → t.deviceByte (m.line * 128 + i) = s.deviceByte (m.line * 128 + i)) ∧
    (∀ (ops : List AtomLane) (o : AtomLane) (d : Nat), atomLanes d (ops ++ [o]) =
      (linePut (atomLanes d ops).1 o.off o.len (atomResult o.op o.len o.uns (lineGet (atomLanes d ops).1 o.off o.len) o.val o.cmp),
        (atomLanes d ops).2 ++ [(o.lane, lineGet (atomLanes d ops).1 o.off o.len)]))

/-- Acknowledgements close transactions, and answers that match none are protocol faults (R471, R473, R476, R479, R480, R487). -/
def Obligations.HomeTakesAnswers : Prop :=
  ∀ (n h k : Nat) (m : CohMsg) (x : Txn) (s : State),
    (s.arrives .invAck n m → m.dst = .home h → h < 16 → m.src = .core k → Map.get? s.mem.txns m.line = some x → k ∈ x.invDue →
      (x.invDue.erase k ≠ [] → Does (.invack n) s fun t => Map.get? t.mem.txns m.line = some { x with invDue := x.invDue.erase k } ∧
        t.mem.dir = s.mem.dir ∧ ∀ i, i < 128 → bit m.dirty (i / 32) = true → lineGet (t.readHome m.line m.dirty).2 i 1 = lineGet m.data i 1) ∧
      (x.invDue = [k] → x.req = none → x.fwdDue = none → x.doneDue = [] → x.doneGot = [] → x.giver = none → Does (.invack n) s fun t =>
        Map.get? t.mem.txns m.line = none ∧ t.dirEntry m.line = none)) ∧
    (s.arrives .fwdAck n m → m.dst = .home h → h < 16 → m.src = .core k → m.confirm = false → Map.get? s.mem.txns m.line = some x → x.fwdDue = some k → x.invDue = [] → x.act = .none → x.giver = none →
      (∃ d, x.doneDue = [d]) → x.doneGot = [] → ∀ r e, x.req = some r → r.kind = .getS → s.dirEntry m.line = some e → e.st = .em → e.sharers = [] → e.coarse = 0 →
      Does (.fwdack n) s fun t => Map.get? t.mem.txns m.line = some { x with fwdDue := none } ∧
        (s.kindF m.line = false → m.grant = .m → t.dirEntry m.line = some { e with st := .o }) ∧
        ((s.kindF m.line = true ∨ m.grant ≠ .m) → t.dirEntry m.line = some { e with st := .s, owner := none, sharers := [k] })) ∧
    (s.arrives .fwdAck n m → m.dst = .home h → h < 16 → m.src = .core k → m.confirm = true → s.mem.releaseDue.contains (m.line, k) = false → Does (.fwdack n) s fun t =>
        t.mem.fwdrOut = s.mem.fwdrOut.erase (m.line, k) ∧ t.mem.dir = s.mem.dir ∧ t.mem.txns = s.mem.txns) ∧
    (∀ g, s.arrives .done n m → m.dst = .home h → h < 16 → m.src = .core k → Map.get? s.mem.txns m.line = some x → x.doneDue = [(k, g)] → x.doneGot = [] → x.invDue = [] → x.fwdDue = none → x.act = .none →
      x.giver = none → x.req.isSome = true → x.home = h → k < 2048 → k % 128 < 72 → Does (.done n) s fun t => Map.get? t.mem.txns m.line = none ∧
        SentFrom s.mem.nextMsg [CohMsg.mk0 .doneAck (.home h) (.core k) m.line] t ∧
        ∃ e, t.dirEntry m.line = some e ∧ e.line = m.line ∧ k ∈ e.holders ∧
          ((g = .e ∨ g = .m) → e.st = .em ∧ e.owner = some k ∧ e.sharers = [] ∧ e.coarse = 0) ∧ (g = .f → e.st = .f ∧ e.owner = some k)) ∧
    (∀ c kind, (c, kind) ∈ [(Instr.invack n, MsgKind.invAck), (.done n, .done)] → s.arrives kind n m → m.dst = .home h → h < 16 → m.src = .core k → Map.get? s.mem.txns m.line = none →
      Does c s fun t => t.flt.notices.length = s.flt.notices.length + 1 ∧ t.mem.dir = s.mem.dir ∧ t.mem.txns = s.mem.txns)

/-- Multicast copies, write acknowledgements, refusals with tickets, retries, expiries, and the patrol scrub (R442, R446, R449, R456, R460, R476, R493, R495, R496, R898). -/
def Obligations.CopiesTicketsRetriesAndScrubs : Prop :=
  ∀ (n h : Nat) (m : CohMsg) (s : State),
    (s.arrives .copy n m → m.dst = .home h → h < 16 → s.homeOf m.line ≠ h → 0 < s.fld (R.ucCfg h) 3 0 → s.fld (R.ucCfg h) 3 0 ≤ 15 → Does (.multicastCopyInstall n) s fun t =>
        (∃ w, t.guestWay h m.line = some w ∧ w.valid = m.mask ∧ w.dirty = 0 ∧
          ∀ i, i < 128 → bit m.mask (i / 32) = true → lineGet w.data i 1 = lineGet m.data i 1) ∧
        t.reg (R.ucMcCopies h) = min (s.reg (R.ucMcCopies h) + 1) (2 ^ 32 - 1) ∧ ((s.ways h m.line).length < 16 → t.hbm = s.hbm)) ∧
    (∀ k, s.arrives .wrAck n m → m.dst = .engine k → 0x200000 ≤ m.tag → Does (.wrack n) s fun t =>
        t.writesOut m.tag = s.writesOut m.tag - 1) ∧
    (∀ a, s.unitsRun = true → s.msg? n = some m → m.stage = .nacked → m.src = a → (∀ k, a ≠ .core k) → exec (.nack n) s = .next (s.setMsg n { m with stage := .held })) ∧
    (∀ k x, s.unitsRun = true → s.msg? n = some m → m.stage = .nacked → m.src = .core k → s.l1Line k m.line = some x →
      x.st ∈ [.isD, .imD, .smG, .omG, .miA, .iiA] → exec (.nack n) s = .next (s.setMsg n { m with stage := .held })) ∧
    (s.unitsRun = true → s.msg? n = some m → m.stage = .held → s.brokenRoute m.src m.dst = none →
      exec (.retrySend n) s = .next (s.setMsg n { m with stage := .sent })) ∧
    (∀ no tk, h < 16 → s.unitsRun = true → (s.ticketsOf h).find? (fun t => t.no == no) = some tk → tk.expire ≤ s.rnd.round → Does (.ticketExpire h no) s fun t =>
        t.ticketsOf h = (s.ticketsOf h).filter (· != tk) ∧
        t.fld (R.ucCohTicket h) 31 10 = min (s.fld (R.ucCohTicket h) 31 10 + 1) (2 ^ 22 - 1)) ∧
    (∀ (peak ch a : Nat) (fixed : List (Nat × Nat)), peak < 8 → s.unitsRun = true → s.stackUp peak = true → s.fld (R.ucCfg (2 * peak)) 15 8 ≠ 0 →
      (Does (.patrolScrub peak fixed []) s fun t => t.fld (R.ucEcc (2 * peak)) 31 16 = min (s.fld (R.ucEcc (2 * peak)) 31 16 + fixed.length) (2 ^ 16 - 1) ∧
        t.hbm = s.hbm ∧ t.flt.poison = s.flt.poison) ∧
      (Does (.patrolScrub peak [] [(ch, a)]) s fun t => a / 128 ∈ t.flt.poison ∧ t.hbm = s.hbm))

/-- An L1 answers InvS, FwdS, FwdM, FwdR and Recall, or defers them while a line is held (R473, R474, R475, R481, R482, R483, R484). -/
def Obligations.L1AnswersForwards : Prop :=
  ∀ (n k : Nat) (m : CohMsg) (x : L1Line) (s : State), k < 2048 →
    (s.receives .invS n m k → s.l1Line k m.line = some x → x.hold = false → x.st = .s ∨ x.st = .f → Does (.invs n) s fun t => ∃ (u : State),
        t = u.retryCore k ∧ u.l1Line k m.line = none ∧ Sends (CohMsg.mk0 .invAck (.core k) (.home (s.homeOf m.line)) m.line) s u) ∧
    (∀ old new d, (old, new, d) ∈ [(L1St.e, L1St.s, 0), (.m, .o, x.data)] → s.receives .fwdS n m k → s.l1Line k m.line = some x → x.hold = false →
      x.st = old → s.kindF m.line = false → Does (.fwds n) s fun t => t.l1Line k m.line = some { x with st := new } ∧
        SentFrom s.mem.nextMsg ((m.reqs.zipIdx.map fun r => { CohMsg.mk0 .data (.core k) r.1.1 m.line with
          mask := x.valid &&& r.1.2, data := x.data, grant := if r.2 = 0 then m.grant else .s }) ++
          [{ CohMsg.mk0 .fwdAck (.core k) (.home (s.homeOf m.line)) m.line with grant := old, data := d }]) t) ∧
    (∀ a j, s.receives .fwdM n m k → s.l1Line k m.line = some x → x.hold = false → x.st = .e ∨ x.st = .m → m.reqs = [(a, j)] →
      (s.wakeFree k = true → Does (.fwdm n) s fun t => ∃ (u : State), t = u.retryCore k ∧ u.l1Line k m.line = none ∧
        (u.l1 k).wake = (s.l1 k).wake ++ [{ line := m.line, valid := x.valid, data := x.data }] ∧
        SentFrom s.mem.nextMsg [{ CohMsg.mk0 .data (.core k) a m.line with mask := x.valid, dirty := x.dirty, data := x.data, grant := .m },
          { CohMsg.mk0 .fwdAck (.core k) (.home (s.homeOf m.line)) m.line with grant := x.st }] u) ∧
      (s.wakeFree k = false → Does (.fwdm n) s fun t => t.l1Line k m.line = some x ∧ n ∈ (t.l1 k).wakeWait ∧ t.mem.net = s.mem.net)) ∧
    (∀ a j, s.arrives .fwdR n m → m.dst = .core k → s.l1Line k m.line = some x → x.st ∈ [.e, .m, .o, .omG, .miA] → m.reqs = [(a, j)] →
      Does (.fwdr n) s fun t => t.mem.l1 = s.mem.l1 ∧
        SentFrom s.mem.nextMsg [{ CohMsg.mk0 .data (.core k) a m.line with
            mask := m.mask, data := mergeSectors x.valid m.data x.data, tag := m.tag, asked := m.asked },
          { CohMsg.mk0 .fwdAck (.core k) (.home (s.homeOf m.line)) m.line with confirm := true }] t) ∧
    (s.receives .recall n m k → s.l1Line k m.line = some x → x.hold = false → x.st = .e ∨ x.st = .m ∨ x.st = .o → s.wakeFree k = true →
      Does (.recall n) s fun t => ∃ (u : State), t = u.retryCore k ∧ u.l1Line k m.line = none ∧
        (u.l1 k).wake = (s.l1 k).wake ++ [{ line := m.line, valid := x.valid, data := x.data }] ∧
        Sends { CohMsg.mk0 .invAck (.core k) (.home (s.homeOf m.line)) m.line with mask := x.dirty, dirty := x.dirty, data := x.data } s u) ∧
    (∀ c kind, (c, kind) ∈ [(Instr.invs n, MsgKind.invS), (.fwds n, .fwdS), (.fwdm n, .fwdM), (.recall n, .recall)] → s.receives kind n m k →
      s.l1Line k m.line = some x → x.hold = true → n ∉ x.deferred → Does c s fun t =>
        t.l1Line k m.line = some { x with deferred := x.deferred ++ [n] } ∧ t.mem.net = s.mem.net)

/-- An L1 installs what Data and Grant bring, and takes DoneAck, Release, PutAck and AtomRsp (R308, R472, R476, R481, R482, R483, R484, R485). -/
def Obligations.L1TakesAnswers : Prop :=
  ∀ (n k : Nat) (m : CohMsg) (x : L1Line) (s : State), k < 2048 →
    (s.arrives .data n m → m.dst = .core k → m.tag = 0 → m.grant ≠ .i → s.l1Line k m.line = some x → x.st = .isD → Does (.data n) s fun t =>
        ∃ (u : State), t = u.retryCore k ∧ u.l1Line k m.line = some { x with st := m.grant, valid := m.mask, dirty := m.dirty, data := mergeSectors m.mask 0 m.data, hold := true } ∧
        (u.l1 k).opens = (s.l1 k).opens ++ [(m.line, [])] ∧ Sends (CohMsg.mk0 .done (.core k) (.home (s.homeOf m.line)) m.line) s u) ∧
    (s.arrives .grant n m → m.dst = .core k → s.l1Line k m.line = some x → x.st = .smG ∨ x.st = .omG ∨ x.st = .imD → Does (.grant n) s fun t =>
        let new := sectorsMinus m.mask x.valid
        ∃ (u : State), t = u.retryCore k ∧ u.l1Line k m.line = some { x with st := .m, valid := x.valid ||| new, data := mergeSectors new x.data m.data, hold := true } ∧
        (u.l1 k).opens = (s.l1 k).opens ++ [(m.line, [])] ∧ Sends (CohMsg.mk0 .done (.core k) (.home (s.homeOf m.line)) m.line) s u) ∧
    (∀ g y op, m.dst = .core k → m.tag ≠ 0 → s.groupOfTag k m.tag = some g → s.group? g = some y → y.memop = some op → op.tag = m.tag → op.kind ≠ .st →
      (s.arrives .data n m → (∀ p ∈ op.pieces, p.addr / 128 = m.asked ∧ p.st = .out) → Does (.data n) s fun t => t.group? g =
        some (y.finish { op with pieces := op.pieces.map fun p => { p with st := .done (lineGet m.data (p.addr % 128) p.len) } })) ∧
      (∀ old : Nat → Nat, s.arrives .atomRsp n m → (∀ p ∈ op.pieces, p.addr / 128 = m.line ∧ p.st = .out ∧
          ∃ o, m.olds.find? (fun o => o.1 == p.lane) = some o ∧ o.2 = old p.lane) → Does (.atomrsp n) s fun t => t.group? g =
        some (y.finish { op with pieces := op.pieces.map fun p => { p with st := .done (old p.lane) } }))) ∧
    (∀ l i y rest, s.arrives .doneAck n m → m.dst = .core k → s.logicalOf (k / 128) (k % 128) = some l →
      takeFirst (fun q => q.1 == m.line) (s.l1 k).opens = some ((m.line, [i]), rest) →
      s.group? { half := k / 128, core := l, slot := i } = some y → y.wait = .ready → Does (.doneack n) s fun t => ∃ (u : State),
        t = u.retryCore k ∧ (u.l1 k).opens = rest ∧ u.group? { half := k / 128, core := l, slot := i } = some { y with storesOut := y.storesOut - 1 }) ∧
    (∀ w rest, s.arrives .release n m → m.dst = .core k → takeFirst (fun w : WakeCopy => w.line == m.line) (s.l1 k).wake = some (w, rest) →
      ((s.l1 k).wakeWait = [] → Does (.release n) s fun t => (t.l1 k).wake = rest ∧ t.mem.net = Map.erase s.mem.net n) ∧
      (∀ j js f, (s.l1 k).wakeWait = j :: js → j ≠ n → s.msg? j = some f → Does (.release n) s fun t => ∃ (u : State),
        t = u.onForward j f ∧ (u.l1 k).wake = rest ∧ (u.l1 k).wakeWait = js)) ∧
    (s.arrives .putAck n m → m.dst = .core k → s.l1Line k m.line = some x → x.st = .miA ∨ x.st = .iiA → Does (.putack n) s fun t => ∃ (u : State),
        t = u.retryCore k ∧ u.l1Line k m.line = none) ∧
    (∀ h p, s.unitsRun = true → k = coreKey h p → h < 16 → p < 72 → s.l1Line k m.line = some x → x.hold = true →
      (x.deferred = [] → Does (.l1HoldEnd h p m.line) s fun t => t.l1Line k m.line = some { x with hold := false } ∧ t.mem.net = s.mem.net) ∧
      (∀ d f, x.deferred = [d] → s.msg? d = some f → Does (.l1HoldEnd h p m.line) s fun t => ∃ (u : State), t = u.onForward d f ∧
        u.l1Line k m.line = some { x with hold := false, deferred := [] }))

/-- Cols: slots, replays, credits, marks, sparing, degradation, failure and retraining (R535, R538, R539, R540, R543, R545, R546, R548, R549, R550, R552, R555). -/
def Obligations.ColSlotsReplaysAndRetirement : Prop :=
  ∀ (c d : Nat) (x : ColSt) (s : State), c < 14 → d < 2 → s.unitsRun = true → s.col c = x →
    (∀ (sl : GroupSlot) (i : Nat), x.carries = true → x.active.findIdx? (· == sl.group) = some i →
      (sl.crcOk = true → sl.seq = s.colTurn c % 65536 → sl.mapver = x.mapver → sl.slot = i → sl.replay = false → Does (.colGroupSlotReceive c d sl) s
        fun t => (t.col c).dir d = (((x.dir d).gotSlot (s.colTurn c) i).takeRides.deliver).1) ∧
      (∀ f, sl.crcOk = false → (x.dir d).held.find? (fun f => f.seq == s.colTurn c) = some f → f.rides = [] → Does (.colGroupSlotReceive c d sl) s
        fun t => ((t.col c).dir d).damaged = (x.dir d).damaged ++
            [{ seq := s.colTurn c, slot := i, group := sl.group, tries := 0, turn := s.colTurn c }] ∧
          Map.getD ((t.col c).dir d).counts sl.group 0 = Map.getD (x.dir d).counts sl.group 0 + 1)) ∧
    (∀ q k f, (x.dir d).sent.find? (fun f => f.seq % 65536 == q) = some f → k < f.groups →
      (x.dir d).due.find? (fun r => r.seq == f.seq && r.slot == k) = none → Does (.colNakReceive c d q k) s fun t =>
        (t.col c).dir d = { x.dir d with due := (x.dir d).due ++
          [{ seq := f.seq, slot := k, turn := max (f.seq + 3) (s.colTurn c + 1), done := false }] }) ∧
    (∀ ch k, 0 < k → Does (.colCreditReturn c d [(ch, k)]) s fun t =>
        Map.getD ((t.col c).dir d).credits ch 256 = min 256 (Map.getD (x.dir d).credits ch 256 + k)) ∧
    (∀ g, x.carries = true → g ∈ x.active → (∀ m ∈ x.marks, m.group ≠ g) → Does (.colLockLoss c g) s fun t =>
        t.col c = { x with marks := x.marks ++ [{ group := g, cause := 1, landed := none }] }) ∧
    (∀ g, Does (.colRetireMessage c g) s fun t => (∀ m ∈ (t.col c).marks, m.group = g → m.landed ≠ none) ∧
        (t.col c).marks.map (·.group) = x.marks.map (·.group)) ∧
    (∀ cmd peak m top, (cmd = .colSpareReplace c ∨ cmd = .colRetireReplace peak ∧ peak < 8 ∧ c ∈ colsOf peak ∧ s.seqRuns peak = true) →
      s.dueMarks c = [m] → m.group ∈ x.active → m.group ∉ x.spares → x.spares.getLast? = some top → Does cmd s fun t =>
        (t.col c).active = x.active.map (fun a => if a = m.group then top else a) ∧ (t.col c).spares = x.spares.filter (· != top) ∧
        (t.col c).mapver = (x.mapver + 1) % 16 ∧ m.group ∈ (t.col c).retired) ∧
    (∀ m l, s.dueMarks c = m :: l → x.spares = [] → m.group ∈ x.active → 7 < x.g → Does (.colDegrade c) s fun t =>
        (t.col c).active = sortAsc (x.active.filter (· != m.group)) ∧ (t.col c).st = 4 ∧ (t.col c).mapver = (x.mapver + 1) % 16 ∧
        ∃ n, t.flt.notices = s.flt.notices ++ [n] ∧ n.kind = 7 ∧ n.code = 0x0805) ∧
    (x.carries = true → Does (.colFail c true) s fun t => (t.col c).st = 5 ∧ (t.col c).active = [] ∧ bit t.flt.colsFailed c = true ∧
        ∃ n l, t.flt.notices = s.flt.notices ++ n :: l ∧ n.kind = 8 ∧ n.code = 0x0806) ∧
    (∀ g, x.carries = true → g ∈ x.retraining →
      (Does (.colRetrainDone c g true) s fun t => (t.col c).spares = insertAsc g x.spares ∧ (t.col c).retired = x.retired.filter (· != g) ∧
        (t.col c).active = x.active) ∧
      (Does (.colRetrainDone c g false) s fun t => t.col c = { x with retraining := x.retraining.filter (· != g) })) ∧
    (∀ cmd peak, (cmd = .colCtlRetrain peak ∨ cmd = .colRetrain peak ∧ s.seqRuns peak = true) → c ∈ colsOf peak → x.carries = true → Does cmd s
        fun t => t.col c = { x with retraining := x.retired })

/-- Channels: doorbells, invalidations, enables, flushes, items read, records posted and priority changes (R561, R568, R571, R573, R576, R586, R589, R592, R593, R597, R599, R600). -/
def Obligations.ChannelsDoorbellsAndRecords : Prop :=
  ∀ (c : Nat) (x : Channel) (e : ChanEntry) (s : State), s.chan c = x → x.entry = some e → s.unitsRun = true →
    (∀ v, x.st = .active → e.enable = true →
      (dist32 x.head v ≤ 2 ^ e.sqLog2 → dist32 x.head x.tail ≤ dist32 x.head v →
        exec (.doorbellTail e.port e.func c v) s = .next (s.setChan c { x with tail := v % 2 ^ 32 })) ∧
      (dist32 x.cqHead v ≤ dist32 x.cqHead x.posted →
        exec (.doorbellCqHead e.port e.func c v) s = .next (s.setChan c { x with cqHead := v % 2 ^ 32 })) ∧
      (∀ port func cmd, (port ≠ e.port ∨ func ≠ e.func) → cmd = Instr.doorbellTail port func c v ∨ cmd = .doorbellCqHead port func c v →
        Does cmd s fun t => t.jobs = s.jobs ∧ t.fld R.chnErr 7 0 = 4 ∧ t.reg R.chnErrCount = min (s.reg R.chnErrCount + 1) (2 ^ 32 - 1))) ∧
    (∀ v : Word, s.jobs.inval = none → Does (.chnInval v) s fun t => t.flag R.chnStatus 0 = true ∧
        t.jobs = { s.jobs with inval := some (if bit v.toNat 16 then 4096 else bits v.toNat 11 0, s.rnd.round) }) ∧
    (∀ k r, s.jobs.inval = some (k, r) → Does .chnInvalDone s fun t =>
        (k = 4096 ∨ c = k → t.chan c = { x with entry := none, st := if x.st = .badEntry then .disabled else x.st }) ∧
        (k ≠ 4096 → c ≠ k → t.chan c = x) ∧ t.jobs.invalHeld = none ∧
        (s.jobs.invalHeld = none → t.jobs.inval = none) ∧ ∀ h, s.jobs.invalHeld = some h → t.jobs.inval = some (h, s.rnd.round)) ∧
    (x.st = .disabled → e.enable = true →
      exec (.chnEnable c) s = .next (s.setChan c { x with st := .active, posted := 0, cqHead := 0, wbHead := x.head })) ∧
    (x.st = .active → exec (.chnDisable c) s = .next (s.setChan c { x with st := .disabled })) ∧
    (∀ cmd op, (cmd, op) ∈ [(Instr.chnFlush c, 3), (.chnFlushKill c, 4)] → x.st ≠ .flushing → x.st ≠ .badEntry → x.flushOp = 0 →
      s.rnd.running = true → Does cmd s fun t => t.chan c = { x with flushOp := op } ∧ t.flag R.chnStatus 1 = true) ∧
    (∀ j y, s.hubActs = true → x.st = .flushing → x.flushTail = some x.head → x.head < 2 ^ 32 → s.chanJobs c = [(j, y)] → s.job? j = some y →
      y.st ≠ .running → y.st ≠ .ended → y.channel = c → s.holderOf y.part ≠ some j → Does (.flush c) s fun t =>
        t.chan c = { x with recs := x.recs ++ [y.record j 0 6 0 s.rnd.round []], flushJobs := x.flushJobs + 1 } ∧
        t.job? j = some { y with st := .ended, inPhase := false, claim := 0 }) ∧
    (x.st = .flushing → x.flushTail = some x.head → x.recs.any (Rec.ofFlush x.flushOp) = false →
      (∀ q ∈ s.chanJobs c, q.2.st = .running ∨ q.2.st = .ended) → Does (.flushComplete c) s fun t =>
        t.chan c = { x with st := .disabled, nextSeq := 0, flushOp := 0, flushTail := none }) ∧
    (∀ l b, e.enable = true → s.hubActs = true → s.toVisit = c :: l → x.st = .active → x.readThisRound < 4 → s.inHbm (e.slot x.head) = true →
      spanOf (e.slot x.head) = spanOf (e.slot x.head + 63) → s.poisoned (e.slot x.head) 64 = false → s.deviceBytes (e.slot x.head) 64 = b →
      dist32 x.head x.tail = 1 →
      (∀ j, itemFault b x.nextSeq x.head e.sqLog2 = 0 → fieldAt b 0 1 = 1 → fieldAt b 1 1 = 1 → bit (fieldAt b 5 1) 0 = false → s.freeJob = some j →
        Does .readItems s fun t =>
          t.chan c = { x with head := (x.head + 1) % 2 ^ 32, nextSeq := (x.nextSeq + 1) % 65536, readThisRound := x.readThisRound + 1 } ∧
          t.job? j = some (Job.fresh c (fieldAt b 2 2) e.part e.client e.func e.port
            (if fieldAt b 4 1 = 0xFF then e.prioDefault else min (fieldAt b 4 1) e.prioMax) s.rnd.round (fieldAt b 0x18 8)
            (bit (fieldAt b 5 1) 1) (fieldAt b 0x08 8) (fieldAt b 0x10 8) false)) ∧
      (itemFault b x.nextSeq x.head e.sqLog2 ≠ 0 → Does .readItems s fun t => t.chan c = { x with st := .error, recs := x.recs ++
          [itemRec b e 8 s.rnd.round ([itemFault b x.nextSeq x.head e.sqLog2, 0] ++ leBytes 2 (fieldAt b 2 2))] } ∧
        t.jobs.jobs = s.jobs.jobs)) ∧
    (∀ r rs, s.hubActs = true → x.recs = r :: rs → dist32 x.cqHead x.posted < 2 ^ e.cqLog2 → Does (.postCompletion c) s fun t =>
        t.chan c = { x with
          recs := rs, posted := (x.posted + 1) % 2 ^ 32, irqDue := x.irqDue || (e.irq && (r.notice || !r.quiet)) } ∧
        (let u := s.hubWrite (e.cqAddr + 64 * (x.posted % 2 ^ e.cqLog2)) (r.posted x.posted e.cqLog2)
         t.mem = u.mem ∧ t.host = u.host) ∧ ∀ j, r.job = some j → t.job? j = none) ∧
    (∀ v : Word, (s.jobs.prioReq = none → Does (.jobPrioCmd v) s fun t => t.flag R.jobPrioStatus 0 = true ∧
        t.jobs = { s.jobs with prioReq := some {
          channel := bits v.toNat 11 0, seq := s.fld R.jobPrioSeq 15 0, prio := bits v.toNat 13 12 } }) ∧
      (s.jobs.prioReq ≠ none → Does (.jobPrioCmd v) s fun t => t.fld R.jobPrioStatus 3 1 = 4 ∧ t.jobs = s.jobs)) ∧
    (∀ r j y, s.hubActs = true → s.atBoundary = true → s.jobs.prioReq = some r → r.channel = c → s.jobOfSeq c r.seq = some (j, y) →
      s.job? j = some y → r.prio ≤ e.prioMax → Does .priorityChange s fun t => t.jobs.prioReq = none ∧
        t.job? j = some { y with prio := r.prio } ∧ t.fld R.jobPrioStatus 3 1 = if y.st = .running then 1 else 0)

/-- Jobs: admission, dispatch, phases begun and ended by the hub, and what the peaks do in a phase (R50, R55, R57, R58, R270, R272, R345, R580, R583, R592, R612, R613). -/
def Obligations.JobsAdmittedDispatchedAndPhased : Prop :=
  ∀ (j : Nat) (x : Job) (s : State), s.job? j = some x →
    (∀ code h, s.hubActs = true → s.mayAdmit j x = true → s.writesOut tagHub = 0 → s.admitCheck x = (s, code, some h) →
      (code ≠ 0 → s.holderOf x.part ≠ some j → Does (.admitJob j) s fun t => (t.chan x.channel).recs = (s.chan x.channel).recs ++
        [{ x with planId := h.planId }.record j 0 1 code s.rnd.round []]) ∧
      (code = 0 → x.counted = false → s.clientRun x.client < s.clientQuota x.client → Does (.admitJob j) s fun t =>
        t.job? j = some { x.withPlan h with st := .admitted, counted := true, claim := h.leavePeak } ∧
        t.clientRun x.client = s.clientRun x.client + 1) ∧
      (code = 0 → x.counted = false → s.clientQuota x.client ≤ s.clientRun x.client → Does (.admitJob j) s fun t =>
        t.job? j = some { x.withPlan h with st := .deferred, wasDeferred := true })) ∧
    (Map.sorted s.jobs.jobs = true → s.hubActs = true → s.atBoundary = true → s.mod.power = .run → s.mod.readyReq = false →
      x.part < 16 → s.holderOf x.part = none → s.noDispatch x.part = false → s.nextJob x.part = some (j, x) → Does .dispatch s fun t =>
        t.holderOf x.part = some j ∧ t.fld (R.pwrPart x.part) 23 12 = x.leavePeak % 4096 ∧
        t.job? j = some { x with st := .running, dispatched := true, inPhase := false, claim := x.leavePeak, cut := false }) ∧
    (∀ h b p, s.hubActs = true → x.st = .running → x.inPhase = false → s.holderOf x.part = some j → s.jobPhase x = some (h, b, p) →
      Does (.hubPhaseStart j) s fun t => t.fld (R.pwrGrant x.part) 11 0 = (if x.cut then min p.leave x.claim else p.leave) % 4096 ∧
        t.job? j = some { x with inPhase := true, moved := [], launched := [], begun := 0, shared := 0, drained := 0 }) ∧
    (∀ r, s.hubActs = true → x.st = .running → x.inPhase = true → s.partRec x.part = some r → x.drained = maskOf r.peaks →
      (x.phases ≤ x.phase + 1 → s.holderOf x.part = some j → Map.get? s.flt.fenceAtEnd x.part = none → Does (.hubPhaseEnd j) s fun t =>
        t.holderOf x.part = none ∧ (t.chan x.channel).recs = (s.chan x.channel).recs ++ [Job.record
          { x with inPhase := false, phase := x.phase + 1, breach := x.voidCond == 0 && decide (x.bound < x.charged) } j 0 0 0 s.rnd.round []]) ∧
      (∀ h b p, x.phase + 1 < x.phases → s.jobPhase x = some (h, b, p) → p.point = false → Does (.hubPhaseEnd j) s fun t =>
        t.job? j = some { x with inPhase := false, phase := x.phase + 1 } ∧ t.holderOf x.part = s.holderOf x.part)) ∧
    (∀ peak hd b p, s.unitsRun = true → s.seqRuns peak = true → peak < 8 → s.phaseJob j = some x → s.jobPhase x = some (hd, b, p) →
      (∀ h i, bit x.begun peak = false → s.jobHalves x peak = [(h, i)] → h < 16 → Does (.peakPhaseStart peak j) s fun t =>
        t.fld (R.corResident h) 18 16 = p.l1 hd % 8 ∧ Map.get? t.cor.isa h = some (t.reg (R.corIsaCfg (h / 2)) % 32) ∧
        ∀ q ∈ t.cor.cores, q.1 / 128 = h → q.2.constLines = [] ∧ q.2.descLines = []) ∧
      (∀ r, s.partRec x.part = some r → ((s.jobHalves x peak).map (·.1)).Nodup → (∀ q ∈ s.jobHalves x peak, q.1 < 16) →
        Does (.shareUpdate peak j) s fun t => (∃ y, t.job? j = some y ∧ y.shared = putBit x.shared peak true) ∧
          ∀ q ∈ s.jobHalves x peak, t.fld (R.govShare q.1) 11 0 = shareSplit (s.fld (R.pwrGrant x.part) 11 0) r.halves.length q.2 % 4096) ∧
      (∀ h core i tl l, h / 2 = peak → core < 72 → (s.partOfHalf h).bind s.holderOf = some j → bit x.begun peak = true → bit x.shared peak = true →
        (s.physOf h core).any (s.coreGood h) = true → s.waitingTiles x h (s.logicalHalf h) core (phaseTiles b p) = (i, tl) :: l →
        (s.core h core).groups.length + tl.groups ≤ p.groupsMax → (s.drawsOf h).any (fun d => d.unit == core) = true →
        s.drawGranted h core = true → Does (.tileLaunch h core) s fun t =>
          let slots := (s.core h core).freeSlots tl.groups
          (∃ y, t.job? j = some y ∧ y.launched = i :: x.launched) ∧
          (∃ k, Map.get? (t.core h core).blocks ((slots.head?).getD 0) = some k ∧ k.job = j ∧ k.tidx = i ∧ k.gcnt = tl.groups ∧
            k.param = tl.param ∧ k.kernel = x.planAddr + p.kernelOff ∧ k.kernelLen = p.kernelLen ∧ k.window = tl.groups * p.lstore * 256) ∧
          ∀ q ∈ slots.zipIdx, Map.get? (t.core h core).groups q.1 =
            some (Group.fresh p.regs ((slots.head?).getD 0) q.2 (s.cor.launches + q.2))) ∧
      (∀ h i, s.jobHalves x peak = [(h, i)] → bit x.begun peak = true → (∀ q ∈ s.cor.cores, q.1 / 128 = h → q.2.blocks = []) →
        (s.array h).queue = [] → (s.array h).running = [] →
        (∀ q ∈ s.mem.net, q.2.src.half? = some h → q.2.kind ≠ .wrNC ∧ q.2.kind ≠ .atom) →
        (∀ q ∈ s.mem.l1, q.1 / 128 = h → ∀ o ∈ q.2.opens, o.2 = []) →
        (∀ q ∈ (phaseTiles b p).zipIdx, q.1.half = i → q.2 ∈ x.launched) → Does (.phaseDrain peak j) s fun t =>
          t.job? j = some { x with drained := putBit x.drained peak true }))

/-- Partition resets carried out, cleanses, self-tests and core maps of a peak, and patches applied, loaded and switched (R203, R251, R266, R267, R598, R633, R663, R670, R674, R675, R676). -/
def Obligations.PeakCommandsAndPatches : Prop :=
  (∀ (p : Nat) (r : ResetReq) (pr : PartRec) (s : State), s.unitsRun = true → s.partActive p = some r → s.partRec p = some pr →
      (s.seqRuns 8 = true → r.done = false → Does (.hubPartitionReset p) s fun t =>
        (∀ h ∈ pr.halves, ∀ q ∈ t.cor.cores, q.1 / 128 ≠ h) ∧
        (s.mem.net = [] → s.mem.txns = [] → ∀ j x, s.holderOf p = some j → s.job? j = some x → x.part = p →
          ∃ y, t.job? j = some y ∧ y.st = .ended)) ∧
      (∀ peak, s.seqRuns peak = true → Does (.peakPartitionReset peak p) s fun t =>
        ∀ h ∈ pr.halves, h / 2 = peak → ∀ q ∈ t.cor.cores, q.1 / 128 ≠ h)) ∧
    (∀ (peak : Nat) (w : Swap) (old new : Image) (s : State), peak < 8 → s.unitsRun = true → s.seqRuns peak = true →
      s.shift = some (w, old, new) → s.mayCleanse w old = true → w.cleansed = false → changedRegions old new ≠ [] → s.dieOn peak = true →
      Does (.cleanse peak) s fun t => (∀ q ∈ t.mem.sets, ∀ y ∈ q.2, inRegions (changedRegions old new) y.line = false) ∧
        ∃ v, t.img.swap = some v ∧ v.cleansedPeaks = putBit w.cleansedPeaks peak true) ∧
    (∀ (peak : Nat) (x : SelfTest) (s : State), peak < 8 →
      (s.boot.running = true ∧ s.peakSt peak ∈ [1, 2, 5]) ∨ (s.boot.running = false ∧ s.unitsRun = true ∧ s.seqRuns peak = true) →
      Does (.selfTest peak x) s fun t => (s.boot.running = true → t.peakSt peak = 3) ∧
        ∀ h bad vcal, (h, bad, vcal) ∈ [(2 * peak, x.badA, x.vcalA), (2 * peak + 1, x.badB, x.vcalB)] →
          Map.get? t.cor.rowBad h = some (bad % 2 ^ 72) ∧ t.fld (R.govRail h) 9 0 = min 850 (max 650 (vcal / 5 * 5)) ∧
          t.fld (R.govRail h) 19 10 = min 850 (max 650 (vcal / 5 * 5))) ∧
    (∀ (peak : Nat) (s : State), peak < 8 → s.unitsRun = true → s.seqRuns peak = true → Does (.coreRemap peak) s fun t =>
      ∀ h, h / 2 = peak → (s.partOfHalf h).bind s.holderOf = none → ∀ i, i < 18 → t.reg (R.corMap h i) = mapWord (s.computeMap h) i) ∧
    (∀ (v : Word) (k : Nat) (s : State), bits v.toNat 1 0 = 1 → bits v.toNat 31 16 = 0x9A7C → bits v.toNat 3 2 = k →
      ((k = 0 ∨ k = 3 ∨ s.slotBad 2 k ≠ 0) → Does (.patchApplyRequest v) s fun t => t.fld R.seqPatchStatus 4 1 = 1 ∧ t.seq = s.seq) ∧
      (∀ p, (k = 1 ∨ k = 2) → s.slotBad 2 k = 0 → s.slotPatch k = (p, 0) → s.fld R.seqLevel 15 0 ≤ p.level → s.seq.applying = none →
        s.img.swap = none → Does (.patchApplyRequest v) s fun t => t.flag R.seqPatchStatus 0 = true ∧ t.fld R.seqPatchStatus 13 5 = 0 ∧
          t.fld R.seqLevel 31 16 = p.level % 2 ^ 16 ∧
          t.seq = { s.seq with applying := some p, mustSwitch := maskOf ((List.range 9).filter s.dieOn) })) ∧
    (∀ (p : Patch) (d : Nat) (s : State), s.seq.applying = some p → s.seqGoes 8 = true → d < 9 → bit s.seq.mustSwitch d = true →
      s.flag R.seqPatchStatus (5 + d) = false → Does .patchLoad s fun t => (t.seqSt d).staged = some p.level ∧
        ∀ i w, (if d = 8 then p.hubWords else p.peakWords)[i]? = some w → Map.get? (t.seqSt d).ram (s.idleBank d * 4096 + i) = some w) ∧
    (∀ (l d : Nat) (s : State), d < 9 → s.seqGoes d = true → s.seqPhase d = 0 → s.topEvent d = 3 → (s.seqSt d).staged = some l →
      Does (.patchSwitch d) s fun t => (t.seqSt d).staged = none ∧ t.fld (R.seqVersion d) 15 0 = l % 2 ^ 16 ∧
        t.flag (R.seqVersion d) 24 = !s.flag (R.seqVersion d) 24)

/-- Sequencers: command boundaries, microwords, holds, refused opcodes, events served, and the watchdog (R656, R657, R658, R659, R660, R661, R663, R664, R666, R667, R668). -/
def Obligations.SequencersRunCommandsAndWords : Prop :=
  ∀ (d : Nat) (x : SeqSt) (s : State), d < 9 → s.seqGoes d = true → s.seqSt d = x →
    (∀ (arr : List (List Nat)), let q := x.queue ++ arr.map (padTo 4)
      (∀ c cs, s.seqPhase d = 0 → s.topEvent d = 0 → q = c :: cs → Does (.commandBoundary d arr) s fun t =>
        (t.seqSt d).queue = cs ∧ (t.seqSt d).cmd = padTo 4 c ∧ (t.seqSt d).serving = 0 ∧ t.seqPhase d = 1 ∧ t.fld (R.seqState d) 21 16 = c.headD 0 % 64) ∧
      (s.seqPhase d = 0 → s.topEvent d ≠ 0 → Does (.commandBoundary d arr) s fun t =>
        (t.seqSt d).queue = q ∧ (t.seqSt d).serving = s.topEvent d ∧ t.seqPhase d = 1) ∧
      (s.seqPhase d ≠ 0 → exec (.commandBoundary d arr) s = .next (s.setSeq d { x with queue := q }))) ∧
    (∀ (flips : List Nat) (u : State) (m : MicroWord), s.seqPhase d = 1 → s.fetchWord d flips = (u, some m) →
      (m.ok (d == 8) = true → (m.hold = false ∨ s.microCond d m.nxC0 = true) → u = s → m.busOp = 0 → m.msgOp = 0 → m.cntOp = 0 → m.trace = 0 →
        let r := microAlu m.aluOp (s.microSource d m.lit m.aluA) (s.microSource d m.lit m.aluB) s.free
        let c := (s.microCond d m.nxC0).toNat + 2 * (s.microCond d m.nxC1).toNat
        Does (.microwordExecute d flips) s fun t =>
          (m.nxMode = 0 → t.uaddr d = s.hooked d (m.nxBase.lor c % 2 ^ 13) % 2 ^ 13 ∧ t.seqPhase d = 1) ∧ (m.nxMode = 4 → t.seqPhase d = 0) ∧
          (m.nxMode = 0 → (m.aluD < 16 → m.aluOp ≠ 10 → Map.getD (t.seqSt d).scratch m.aluD 0 = r.1) ∧
            (m.flagsWe = true → (t.seqSt d).zero = (r.1 == 0) ∧ (t.seqSt d).neg = bit r.1 31 ∧ (t.seqSt d).carry = r.2) ∧
            (m.flagsWe = false → (t.seqSt d).zero = x.zero ∧ (t.seqSt d).neg = x.neg ∧ (t.seqSt d).carry = x.carry)) ∧
          t.hbm = s.hbm ∧ t.mem = s.mem ∧ t.jobs = s.jobs) ∧
      (m.ok (d == 8) = true → m.hold = true → u = s → s.microCond d m.nxC0 = false → exec (.microwordExecute d flips) s = .next (s.holdWord d)) ∧
      (m.ok (d == 8) = false → Does (.microwordExecute d flips) s fun t => t.seqPhase d = 5 ∧ t.fld (R.seqFault d) 3 1 = 4 ∧
        t.flt.notices.length = s.flt.notices.length + 1)) ∧
    (∀ flips u, s.seqPhase d = 1 → s.fetchWord d flips = (u, none) → Does (.microwordExecute d flips) s fun t =>
        t.seqPhase d = 5 ∧ t.fld (R.seqFault d) 3 1 = 2 ∧ t.flt.notices.length = s.flt.notices.length + 1) ∧
    (∀ m u, s.seqPhase d = 2 → s.fetchWord d [] = (u, some m) →
      (s.microCond d m.nxC0 = false → exec (.holdRelease d) s = .next s) ∧
      (s.microCond d m.nxC0 = true → m.busOp = 0 → m.msgOp = 0 → m.cntOp = 0 → m.trace = 0 → m.nxMode = 0 → Does (.holdRelease d) s fun t =>
        t.uaddr d = s.hooked d (m.nxBase.lor (1 + 2 * (s.microCond d m.nxC1).toNat) % 2 ^ 13) % 2 ^ 13 ∧ t.seqPhase d = 1)) ∧
    ((s.seqPhase d = 1 ∨ s.seqPhase d = 2) → x.serving = 0 → opcodeKnown d (x.cmd.headD 0 % 64) = false → Does (.unknownOpcode d) s fun t =>
        (t.seqSt d).result = 0xFFFFFFFF ∧ t.seqPhase d = 0 ∧ t.reg (R.seqCmdCount d) = min (s.reg (R.seqCmdCount d) + 1) (2 ^ 32 - 1)) ∧
    ((s.seqPhase d = 0 ∧ s.topEvent d = 4) ∨ (s.seqPhase d ≠ 0 ∧ x.serving = 4) → Does (.roundWork d) s fun t => (t.seqSt d).roundWork = false) ∧
    (∀ m ms, (s.seqPhase d = 0 ∧ s.topEvent d = 5) ∨ (s.seqPhase d ≠ 0 ∧ x.serving = 5) → x.inbox = m :: ms →
      Does (.seqInboundMessage d) s fun t => (t.seqSt d).inbox = ms ∧ (t.seqSt d).msgIn = m) ∧
    ((s.seqPhase d = 1 ∨ s.seqPhase d = 2) → x.outside = false → s.fld (R.seqCfg 8) 11 0 < s.cmdTurns d → Does (.seqWatchdog d) s fun t =>
        t.seqPhase d = 5 ∧ t.fld (R.seqFault d) 3 1 = 1 ∧ t.flt.notices.length = s.flt.notices.length + 1)

/-- Host ports: links, BAR2 accesses, refused requests, MSI-X unmasking, and what answers a read of a host (R644, R683, R687, R692, R699, R701, R702, R707, R708, R728). -/
def Obligations.HostLinksAccessesAndCompletions : Prop :=
  (∀ (port ep rate lanes f : Nat) (x : Bool) (s : State), port < 2 → ep < 2 → f < 64 → s.isUp = true → (ep = 1 → s.splitPort port = true) →
      s.linkUp port ep = false → s.fld (R.hptPortCfg port) 2 1 ≤ rate → rate ≤ 2 → 0 < lanes → lanes ≤ s.fullLanes port → s.endpointOf port f = ep →
      Does (.linkUp port ep rate lanes [(f, x)]) s fun t => t.linkUp port ep = true ∧
        t.fld (R.hptLink port) (8 * ep + 7) (8 * ep) = 1 + 2 * rate + 8 * lanes ∧
        t.hostFunc port f = { enabled := true, msix := x, table := [], pend := [] }) ∧
    (∀ (port ep : Nat) (s : State), port < 2 → ep < 2 → s.linkUp port ep = true → Does (.linkDown port ep) s fun t => ∃ (u : State),
        u.linkUp port ep = false ∧ u.hst = s.hst ∧ t = { u.flrAll (Config.freeValue s.free % 16) port ep with
          hst := { (u.flrAll (Config.freeValue s.free % 16) port ep).hst with
            retrain := putBit (u.flrAll (Config.freeValue s.free % 16) port ep).hst.retrain (linkNo port ep) false } }) ∧
    (∀ (v : Word) (s : State), Does (.linkRetrain v) s fun t => t = { s with hst := { s.hst with retrain := t.hst.retrain } } ∧
        ∀ i, i < 4 → bit t.hst.retrain i = (bit s.hst.retrain i || (bit v.toNat i && s.linkUp (i / 2) (i % 2)))) ∧
    (∀ (port func off n : Nat) (s : State), let a := s.bar2Addr port func off
      ((s.pwr.halted = true ∨ s.flag R.fltStatus 0 = true) → exec (.bar2Read port func off n) s = .next (s.hostAnswer 2 0)) ∧
      (s.pwr.halted = false → s.flag R.fltStatus 0 = false → s.inHbm a = true → s.inHbm (a + n - 1) = true →
        s.writesOut (tagBar2 (funcKey port func)) = 0 → Map.getD s.hst.bar2Out (funcKey port func) [] = [] →
        exec (.bar2Read port func off n) s = .next (s.hostAnswer (if s.poisoned a n then 3 else 0) (leVal (s.deviceBytes a n)))) ∧
      (s.pwr.halted = false → s.flag R.fltStatus 0 = false → s.inHbm a = false → Does (.bar2Read port func off n) s fun t =>
        t.hst.status = 1 ∧ t.hbm = s.hbm ∧ t.mem = s.mem)) ∧
    (∀ (port func off : Nat) (data : List Nat) (s : State), let a := s.bar2Addr port func off
      (∀ p, (s.pwr.halted = true ∨ s.flag R.fltStatus 0 = true ∨ p = true) → Ignored (.bar2Write port func off data p) s) ∧
      (port < 2 → func < 64 → s.pwr.halted = false → s.flag R.fltStatus 0 = false → data ≠ [] → (∀ b ∈ data, b < 256) → s.inHbm a = true →
        s.inHbm (a + data.length - 1) = true → a / 128 = (a + data.length - 1) / 128 → s.writesOut (tagBar2 (funcKey port func)) = 0 →
        Map.getD s.hst.bar2Out (funcKey port func) [] = [] → Does (.bar2Write port func off data false) s fun t => ∃ m,
          t.msg? s.mem.nextMsg = some m ∧ m.kind = .wrNC ∧ m.line = a / 128 ∧ m.dst = .home (s.homeOf (a / 128)) ∧
          (∀ i, i < 128 → bit m.bytes i = (decide (a % 128 ≤ i) && decide (i < a % 128 + data.length))) ∧
          ∀ i b, data[i]? = some b → lineGet m.data (a % 128 + i) 1 = b)) ∧
    (∀ (c : Instr) (port func : Nat) (s : State), c ∈ [Instr.atomicopRefuse port func, .translationRequestRefuse port func] → Does c s fun t =>
        t.hst = { s.hst with status := 1 } ∧ t.answer = 0 ∧ t.hbm = s.hbm ∧ t.host = s.host ∧ t.mem = s.mem) ∧
    (∀ (port func v : Nat) (s : State), let f := s.hostFunc port func
      (v ∈ f.pend → f.enabled = true → f.msix = true → Does (.msixUnmask port func v) s fun t => v ∉ (t.hostFunc port func).pend ∧
        bit ((t.hostFunc port func).word v 3) 0 = false ∧
        t.host = Mem.writeBytes s.host (hostKey port (f.word v 0 + 2 ^ 32 * f.word v 1)) (leBytes 4 (f.word v 2))) ∧
      (v ∉ f.pend → Does (.msixUnmask port func v) s fun t => t.host = s.host ∧ bit ((t.hostFunc port func).word v 3) 0 = false)) ∧
    (∀ (id st : Nat) (data : List Nat) (r : HostRead) (s : State), s.unitsRun = true → Map.get? s.hst.reads id = some r →
      (∀ h c sl tag line y op, let g : GroupRef := { half := h, core := c, slot := sl }
        r.who = .core h c sl tag line → s.group? g = some y → y.memop = some op → op.tag = tag → op.pieces ≠ [] → op.kind ≠ .st →
        (∀ p ∈ op.pieces, p.addr / 128 = line ∧ p.st = .out) →
        (Does (.hostCompletion id 0 data) s fun t => Map.get? t.hst.reads id = none ∧
          t.host = Mem.writeBytes s.host (hostKey r.port r.addr) (padTo r.len data) ∧ t.group? g = some (y.finish { op with
            pieces := op.pieces.map fun p => { p with st := .done (lineGet (leVal (padTo 128 data)) (p.addr % 128) p.len) } })) ∧
        (∀ cmd, (cmd = .hostCompletion id st data ∧ st ≠ 0) ∨ cmd = .hostCompletionTimeout id → Does cmd s fun t =>
          Map.get? t.hst.reads id = none ∧ t.host = s.host ∧
          t.group? g = some (y.stopMem { op with pieces := op.pieces.map fun p => { p with st := .fault 2 } }))) ∧
      (∀ d o, r.who = .seq d o → (Does (.hostCompletion id 0 data) s fun t =>
          (t.seqSt d).bus = leVal (data.take 4) % 2 ^ 32 ∧ (t.seqSt d).busDone = true) ∧
        Does (.hostCompletionTimeout id) s fun t => (t.seqSt d).busDone = true ∧ (t.seqSt d).bus = Config.freeValue s.free % 2 ^ 32))

/-- The system window's entry cache, host DMA engines and page streams (R706, R709, R711, R713, R716, R719, R720, R721, R722, R723, R724, R922). -/
def Obligations.MapCachesHostDmaAndPageStreams : Prop :=
  (∀ (v : Word) (s : State),
      (s.hst.swmInval = none → Does (.swmInval v) s fun t => t.flag R.hptStatus 0 = true ∧
        t.hst = { s.hst with swmInval := some (if bit v.toNat 31 then 4194304 else bits v.toNat 21 0, s.rnd.round) }) ∧
      (s.hst.pstInval = none → Does (.pstInval v) s fun t => t.flag R.pstStatus 0 = true ∧
        t.hst = { s.hst with pstInval := some (if bit v.toNat 16 then 64 else bits v.toNat 5 0, s.rnd.round) }) ∧
      (∀ q, s.hst.swmInval = some q → s.hst.swmHeld = none → exec (.swmInval v) s = .next
        { s with hst := { s.hst with swmHeld := some (if bit v.toNat 31 then 4194304 else bits v.toNat 21 0) } }) ∧
      (∀ q, s.hst.pstInval = some q → s.hst.pstHeld = none → exec (.pstInval v) s = .next
        { s with hst := { s.hst with pstHeld := some (if bit v.toNat 16 then 64 else bits v.toNat 5 0) } })) ∧
    (∀ (k r p : Nat) (s : State),
      (s.hst.swmInval = some (k, r) → Does .swmInvalDone s fun t =>
        (k = 4194304 ∨ p = k → Map.get? t.hst.swmCache p = none) ∧ (k ≠ 4194304 → p ≠ k → Map.get? t.hst.swmCache p = Map.get? s.hst.swmCache p) ∧
        (s.hst.swmHeld = none → t.hst.swmInval = none) ∧ ∀ h, s.hst.swmHeld = some h → t.hst.swmInval = some (h, s.rnd.round)) ∧
      (s.hst.pstInval = some (k, r) → Does .pstInvalDone s fun t =>
        ((k = 64 ∨ p = k) → (s.stream p).producer = none →
          t.stream p = { s.stream p with desc := none, st := if (s.stream p).st = 3 then 0 else (s.stream p).st }) ∧
        ((k ≠ 64 ∧ p ≠ k) ∨ (s.stream p).producer ≠ none → t.stream p = s.stream p) ∧
        (s.hst.pstHeld = none → t.hst.pstInval = none) ∧ ∀ h, s.hst.pstHeld = some h → t.hst.pstInval = some (h, s.rnd.round))) ∧
    (∀ (e : Nat) (v : Word) (s : State), e < 8 → s.unitsRun = true →
      let d : HostDma := {
        src := s.pair (R.hptDmaSrcLo e) (R.hptDmaSrcHi e), dst := s.pair (R.hptDmaDstLo e) (R.hptDmaDstHi e), len := s.fld (R.hptDmaLen e) 24 0,
        mask := bits v.toNat 31 16, irq := bit v.toNat 1, vector := bits v.toNat 12 2, sent := 0, lines := 0 }
      (bit v.toNat 0 = true → s.hostDma? e = none →
        (s.dmaRanges d = true → 4 ≤ s.poolSize → Does (.hostDmaStart e v) s fun t => t.hostDma? e = some d ∧
          t.fld (R.hptDmaStatus e) 2 0 = 1 ∧ t.fld (R.hptDmaStatus e) 20 3 = 0 ∧
          t.pwr.pool = s.pwr.pool ++ [{ user := .hostDma e, pips := 4, granted := false }]) ∧
        (s.dmaRanges d = true → s.poolSize < 4 → Does (.hostDmaStart e v) s fun t => t.hostDma? e = none ∧ t.fld (R.hptDmaStatus e) 2 0 = 5) ∧
        (s.dmaRanges d = false → Does (.hostDmaStart e v) s fun t => t.hostDma? e = none ∧ t.fld (R.hptDmaStatus e) 2 0 = 6)) ∧
      (∀ x, s.hostDma? e = some x → x.len ≤ 128 * x.lines → s.poolHas (.hostDma e) = true → s.writesOut (tagHostDma e) = 0 →
        Does (.hostDmaDone e) s fun t => t.hostDma? e = none ∧ t.fld (R.hptDmaStatus e) 2 0 = 2 ∧
          t.pwr.pool = s.pwr.pool.filter fun r => r.user != .hostDma e)) ∧
    (∀ (port func k n off : Nat) (x : PStream) (d : PageDesc) (s : State), s.pwr.halted = false → s.flag R.fltStatus 0 = false →
      s.isPf port func = true → k < 64 → s.stream k = x → x.desc = some d →
      (off < 0x10000 → (x.st = 1 ∨ x.st = 2) → Does (.pageViewRead port func k off n) s fun t => t.hst.status = 0 ∧
        t.answer = leVal ((List.range n).map fun i =>
          if off + i < x.lens.headD 0 then s.deviceByte (d.buf + x.r % d.pages * 2 ^ d.pageLog2 + off + i) else 0) ∧
        t.stream k = { x with st := 1, since := s.mod.islandUs, pos := if x.lens = [] then x.pos else max x.pos (min (off + n) 65536) }) ∧
      (0x10000 ≤ off → exec (.pageViewRead port func k off n) s = .next (s.hostAnswer 0 (x.reg (off - 0x10000)))) ∧
      (∀ (r : Word) l ls, d.enable = true → d.port = port → d.func = func → x.lens = l :: ls →
        (r.toNat = x.r % 2 ^ 32 → ls = [] → x.ended = true → Does (.pageAck port func k r) s fun t =>
          (t.stream k).st = 0 ∧ (t.stream k).producer = none ∧ (t.stream k).lens = [] ∧ (t.stream k).told = if x.incomplete then 2 else 1) ∧
        (r.toNat = x.r % 2 ^ 32 → (ls ≠ [] ∨ x.ended = false) → Does (.pageAck port func k r) s fun t => ∃ (u : State),
          u.stream k = { x.touched s.mod.islandUs with r := x.r + 1, lens := ls, pos := 0 } ∧
          t = if x.producer = some .tarn then u.tarnSlot else u.cairnPages 1) ∧
        (r.toNat ≠ x.r % 2 ^ 32 → Does (.pageAck port func k r) s fun t => t.hst = s.hst)) ∧
      (s.unitsRun = true → x.st = 1 → x.lens ≠ [] → s.fld R.pstTimeout 15 0 ≠ 0 → x.since + 1000 * s.fld R.pstTimeout 15 0 ≤ s.mod.islandUs →
        Does (.streamTimeout k) s fun t => t.stream k = { x with st := 2, incomplete := true, since := s.mod.islandUs }) ∧
      ((x.st = 1 ∨ x.st = 2) → d.enable = true → d.port = port → d.func = func → x.producer ≠ some .tarn → Does (.streamAbort port func k) s fun t =>
        t.stream k = { x with st := 0, producer := none, lens := [], ended := false, pos := 0, incomplete := false, told := 3 }))

/-- Ring ports, roll marks, joining and departure (R731, R733, R735, R736, R738, R743, R744, R746, R747, R749, R750, R751). -/
def Obligations.RingPortsMarksAndDepartures : Prop :=
  (∀ (p gen name id inc serial : Nat) (first : Bool) (s : State), p < 2 → gen < 4 → s.rng.switchesOpen = true →
      (s.portSt p ≠ 2 → Does (.ringPortUp p gen name id inc serial) s fun t =>
        t.portSt p = (if name = s.fld R.rngIdCfg 31 16 then 2 else 3) ∧ t.portGen p = gen ∧
        t.rport p = { RPort.fresh name id inc serial with rsps := (s.rport p).rsps, transit := (s.rport p).transit } ∧
        t.rng.firstUp = some (s.rng.firstUp.getD s.mod.islandUs) ∧ t.rng.loop = false ∧ t.rng.markDue = true ∧
        (2 ≤ s.portSt (1 - p) → t.rng.joining = false)) ∧
      (2 ≤ s.portSt p → Does (.ringPortDown p) s fun t => t.portSt p = 1 ∧ t.rng.loop = false ∧
        t.rport p = { RPort.fresh 0 0xFF 0 0 with rsps := (s.rport p).rsps, transit := (s.rport p).transit }) ∧
      (s.portSt p < 2 → Does (.ringTrainRetry p first) s fun t => t.portSt p = 1 ∧ OnlyRegs s t)) ∧
    (∀ (p turn slot cls n : Nat) (q : RPkt) (s : State), p < 2 → s.portSt p = 2 →
      let x := s.rport p
      (s.mod.power = .run → x.naks = [] → x.turns % 8192 ≠ 8191 → Does (.ringFrameSend p) s fun t => (t.rport p).turns = x.turns + 1 ∧
        (t.rport p).items = x.items.drop (ctlItems (s.portGen p)) ∧
        ∃ f, (t.rport p).sent = lastK 16 (x.sent ++ [f]) ∧ f.turn = x.turns ∧ f.items = x.items.take (ctlItems (s.portGen p))) ∧
      (s.mod.power = .run → x.turns % 8192 = 8191 → exec (.ringFrameSend p) s = .next (s.setRport p { x with turns := x.turns + 1 })) ∧
      (x.damaged = [] → exec (.ringSlotReceive p turn slot none false q) s = .next (s.setRport p { x with
        damaged := [(turn, slot, 1, q.kind.isRsp)],
        naks := (x.naks.filter fun n => !(n.1 == turn && n.2.1 == slot)) ++ [(turn, slot, 2)] })) ∧
      (s.mod.power = .run → x.turns % 8192 ≠ 8191 → x.naks = [(turn, slot, 2)] → Does (.ringFrameSend p) s fun t =>
        (t.rport p).naks = [(turn, slot, 1)] ∧ ∃ f, (t.rport p).sent = lastK 16 (x.sent ++ [f]) ∧ f.items.head? = some (.nak turn slot)) ∧
      (q.kind = .other → x.damaged = [] → x.held = [] → Does (.ringSlotReceive p turn slot none true q) s fun t =>
        t.rng.rx = s.rng.rx ∧ t.reg R.rngDrop = satAdd 32 (s.reg R.rngDrop) 1) ∧
      (x.damaged = [] → x.held = [] → q.kind.isRsp = false → q.kind ≠ .other → q.dst = s.myId → s.pwr.halted = false →
        Does (.ringSlotReceive p turn slot none true q) s fun t => t.rng.rx = s.rng.rx ++ [(p + 2 * s.rng.departing.isSome.toNat, q)]) ∧
      (x.damaged = [] → x.held = [] → q.kind.isRsp = false → q.kind ≠ .other → q.dst ≠ s.myId → q.hops < 31 →
        Does (.ringSlotReceive p turn slot none true q) s fun t =>
          (t.rport (1 - p)).transit = (s.rport (1 - p)).transit ++ [{ q with hops := q.hops + 1 }]) ∧
      (∀ f, x.sent.find? (fun f => f.turn % 65536 == turn) = some f → (f.turn, slot) ∉ x.replays →
        exec (.ringLinkNak p turn slot) s = .next (s.setRport p { x with replays := x.replays ++ [(f.turn, slot)] })) ∧
      (cls < 2 → exec (.ringCredit p cls n) s = .next (s.setRport p (if cls = 0 then { x with reqCredits := min 512 (x.reqCredits + n) }
        else { x with rspCredits := min 512 (x.rspCredits + n) })))) ∧
    (∀ (p : Nat) (m : RollMark) (x : Member) (s : State), p < 2 → s.portSt p = 2 →
      (m.name ≠ s.fld R.rngIdCfg 31 16 → Does (.rollMark p m) s fun t => t.portSt p = 3 ∧ t.rport p = s.rport p) ∧
      (m.name = s.fld R.rngIdCfg 31 16 → m.origin = s.myId →
        (m.serial ≠ s.serial % 2 ^ 32 → Does (.rollMark p m) s fun t => t.rng.duplicate = true) ∧
        (m.serial = s.serial % 2 ^ 32 → p = 1 → Does (.rollMark p m) s fun t => t.rng.loop = true)) ∧
      (m.name = s.fld R.rngIdCfg 31 16 → m.origin ≠ s.myId → m.hops < 32 →
        Does (.rollMark p m) s fun t => ∃ y, Map.get? t.rng.members m.origin = some y ∧ y.mark = m) ∧
      (m.origin ≠ s.myId → Map.get? s.rng.members m.origin = some x → x.mark.inc = m.inc →
        Does (.departureMark p m.origin m.inc) s fun t => Map.get? t.rng.members m.origin = none) ∧
      (∀ u, Map.get? s.rng.members m.origin = some x → x.missing = some u → u + 1000 * s.fld R.rngCfg 31 16 ≤ s.mod.islandUs →
        Does (.memberAbsent m.origin) s fun t => Map.get? t.rng.members m.origin = none)) ∧
    (∀ (v : Word) (c : DepartCause) (u : Nat) (s : State),
      ((s.mod.power = .ready ∨ s.mod.power = .run) → s.flag R.rngCfg 0 = true → s.mod.bypassReq = false → s.rng.departing = none →
        s.rng.switchesOpen = false → s.flag R.fltStatus 0 = false → Does .bypassSwitchOpen s fun t => t.rng.switchesOpen = true ∧
          t.rng.joining = true ∧ t.rng.duplicate = false ∧ t.rng.members = [] ∧ t.rng.ports = [] ∧ t.portSt 0 = 1 ∧ t.portSt 1 = 1 ∧
          t.myId = (s.fld R.rngIdCfg 4 0 + s.mod.slotId) % 32 ∧ t.flag R.glbModPins 12 = false ∧ t.flag R.glbModPins 13 = false) ∧
      (s.rng.firstUp = some u → s.rng.joining = true → u + 2000 ≤ s.mod.islandUs →
        Does .joinEnd s fun t => t.rng.joining = false ∧ t.rng.markDue = true) ∧
      (s.unitsRun = true → s.rng.departing = none → s.rng.switchesOpen = true →
        Does .ringDepart s fun t => t.rng.departing = some .op ∧ t.rng.departDone = false) ∧
      (s.rng.departing = some .op → Does .ringRejoin s fun t => t.rng.departing = none) ∧
      (s.rnd.running = true → bit v.toNat 0 = true → s.rng.departing ≠ some .cfg → Does (.ringCfgWrite v) s fun t =>
        t.delayed = s.delayed ++ [(R.rngCfg, BitVec.ofNat 32 (ringCfgValue (s.reg R.rngCfg) v.toNat))] ∧ t.rng = s.rng) ∧
      (bit v.toNat 0 = false → s.rng.departing = none → s.rng.switchesOpen = true → Does (.ringCfgWrite v) s fun t =>
        t.rng.departing = some .cfg) ∧
      (s.rng.departing = some c → s.rng.departDone = false → Does .departureComplete s fun t => t.rng.switchesOpen = false ∧
        t.rng.departDone = true ∧ t.rng.departing = some c ∧ t.rng.members = [] ∧ t.rng.ports = [] ∧ t.portSt 0 = 0 ∧ t.portSt 1 = 0))

/-- Requests served, answers taken, ring DMA engines and the census (R735, R752, R754, R755, R756, R757, R761, R764, R765, R767, R768, R769). -/
def Obligations.RingRequestsAnswersDmaAndCensus : Prop :=
  (∀ (c : Instr) (kind : PktKind) (pl : Nat) (q : RPkt) (rest : List (Nat × RPkt)) (s : State),
      s.pwr.halted = false → s.rng.switchesOpen = true → takeRx kind s.rng.rx [] = some ((pl, q), rest) →
      let p := pl % 2
      let answersWith (c : Instr) (a : RPkt) : Prop := Does c s fun t => (t.rport p).rsps = (s.rport p).rsps ++ [a] ∧ t.rng.rx = rest
      let adr := s.inboundAddr q (s.flag R.rngIn 29)
      let slot := s.censusBuf + 64 + 64 * (q.offset % 32)
      ((c, kind) ∈ [(.ringPut, .put), (.ringGet, .get), (.ringDoorbell, .doorbell), (.ringCrec, .crec)] →
        (s.admitRing (decide (2 ≤ pl)) q = .stale → answersWith c (s.answerTo q .stale 0 0)) ∧
        (s.admitRing (decide (2 ≤ pl)) q = .drop → Does c s fun t => t.rng.rx = rest ∧ (t.rport p).rsps = (s.rport p).rsps) ∧
        (kind ≠ .get → s.admitRing (decide (2 ≤ pl)) q = .old → ∀ a,
          (Map.getD s.rng.answers (pairKey q.src q.srcInc) []).find? (fun a => a.seq == q.seq) = some a → answersWith c a) ∧
        (s.admitRing (decide (2 ≤ pl)) q = .run → (kind = .put ∨ kind = .crec ∨ s.pairBusy q = false) → Does c s fun t =>
          t.rng.rx = rest ∧ Map.getD t.rng.expected (pairKey q.src q.srcInc) 0 = q.seq + 1)) ∧
      (kind = .put → s.admitRing (decide (2 ≤ pl)) q = .run →
        (adr.2 ≠ 0 → answersWith .ringPut (s.answerTo q .refused 0 adr.2)) ∧
        (adr.2 = 0 → adr.1 % 128 = 0 → q.byteMask = 2 ^ 128 - 1 → Does .ringPut s fun t =>
          Map.get? t.rng.inbound s.rng.nextIn = some { pkt := q, port := p } ∧
          Sends { CohMsg.mk0 .wrNC (.engine 0) (.home (s.homeOf (adr.1 / 128))) (adr.1 / 128) with
            bytes := 2 ^ 128 - 1, mask := 15, data := q.data % 2 ^ 1024, tag := tagRingIn s.rng.nextIn,
            halves := if q.mc = true ∧ s.flag R.rngIn 30 = true then q.halfMask else 0 } s t)) ∧
      (kind = .get → s.admitRing (decide (2 ≤ pl)) q = .run → s.pairBusy q = false → ∀ a, s.inboundAddr q (s.flag R.rngIn 28) = (a, 0) →
        s.poisoned a 128 = false → ∃ d, answersWith .ringGet (s.answerTo q .getData d 0) ∧ ∀ i, i < 128 →
          lineGet d i 1 = if bit q.mask (i / 32) then lineGet (leVal (s.deviceBytes a 128)) i 1 else 0) ∧
      (kind = .doorbell → s.admitRing (decide (2 ≤ pl)) q = .run → s.pairBusy q = false → s.flag (R.rngMboxBind (q.offset % 256)) 31 = false →
        answersWith .ringDoorbell (s.answerTo q .dbAck 0 0) ∧ Does .ringDoorbell s fun t =>
          t.pair (R.rngMboxLo (q.offset % 256)) (R.rngMboxHi (q.offset % 256)) = q.data % 2 ^ 64 ∧
          t.flag (R.rngMboxPend (q.offset % 256 / 32)) (q.offset % 256 % 32) = true ∧ t.rng.mboxDue = true) ∧
      (kind = .crec → s.admitRing (decide (2 ≤ pl)) q = .run → s.rng.census = none → s.inHbm slot = true → Does .ringCrec s fun t =>
        Map.get? t.rng.inbound s.rng.nextIn = some { pkt := q, port := p } ∧ t.writesOut (tagRingIn s.rng.nextIn) ≠ 0)) ∧
    (∀ (pl k : Nat) (x : RTxn) (q : RPkt) (rest : List (Nat × RPkt)) (s : State), s.pwr.halted = false → s.answeredTxn q = some (k, x) →
      let takes (kind : PktKind) : Prop := takeRx kind s.rng.rx [] = some ((pl, q), rest)
      (∀ c kind, (c, kind) ∈ [(Instr.ringPutAck, PktKind.putAck), (.ringGetData, .getData), (.ringDbAck, .dbAck), (.ringCrecAck, .crecAck)] →
        takes kind → Does c s fun t => ∃ (u : State), u.rtxn? k = none ∧ u.rng.rx = rest ∧
          (∀ h co sl tag line, x.who = .core h co sl tag line →
            (kind = .putAck → t = u.answerLine { half := h, core := co, slot := sl } tag line 0) ∧
            (kind = .getData → t = u.answerLine { half := h, core := co, slot := sl } tag line q.data)) ∧
          (∀ d off, x.who = .seq d off → kind = .getData → t = u.seqData d (lineGet q.data off 4)) ∧
          (∀ e n d, x.who = .ringDma e n → s.ringDma? e = some d → kind = .putAck →
            t = ((u.addFld (R.rngDmaStatus e) 20 3 1).setRingDma e { d with lines := d.lines + 1 }).ringDmaNext e) ∧
          (x.who = .census → t = u)) ∧
      (∀ c kind, (c, kind) ∈ [(Instr.ringStale, PktKind.stale), (.ringRefused, .refused)] → takes kind →
        (x.who = .census → s.rtxn? k = some x → Does c s fun t => t.rtxn? k = none ∧ t.rng.rx = rest ∧
          t.reg R.rngLost = satAdd 32 (s.reg R.rngLost) 1) ∧
        (∀ e n d, x.who = .ringDma e n → s.rtxn? k = some x → e < 8 → s.ringDma? e = some d → Does c s fun t => t.rtxn? k = none ∧
          t.ringDma? e = none ∧ t.fld (R.rngDmaStatus e) 2 0 = 3))) ∧
    (∀ (k : Nat) (x : RTxn) (s : State), s.rng.txns = [(k, x)] → x.sent = true → x.pkt.dst < 32 →
      (s.timerRuns x = false → exec (.ringRetryTimer x.pkt.dst x.pkt.tag) s = .next s) ∧
      (s.timerRuns x = true → x.tries < s.fld R.rngCfg 15 8 → Does (.ringRetryTimer x.pkt.dst x.pkt.tag) s fun t => ∃ dir, dir < 2 ∧
        (if dir = 0 then s.pathE x.pkt.dst else s.pathW x.pkt.dst) = true ∧
        t.rng.txns = [(k, { x with pkt := { x.pkt with retry := true }, tries := x.tries + 1, dir := dir })] ∧
        t.rng.queue = k :: s.rng.queue.filter (· != k) ∧ t.reg R.rngRetry = satAdd 32 (s.reg R.rngRetry) 1) ∧
      (s.timerRuns x = true → s.fld R.rngCfg 15 8 ≤ x.tries → x.who = .census → Does (.ringRetryTimer x.pkt.dst x.pkt.tag) s fun t =>
        t.rng.txns = [] ∧ t.reg R.rngLost = satAdd 32 (s.reg R.rngLost) 1)) ∧
    (∀ (e : Nat) (v : Word) (s : State), e < 8 → s.unitsRun = true →
      let n := v.toNat
      let d : RingDma := {
        src := s.pair (R.rngDmaSrcLo e) (R.rngDmaSrcHi e), dst := s.pair (R.rngDmaDstLo e) (R.rngDmaDstHi e), len := s.fld (R.rngDmaLen e) 24 0,
        mask := s.fld (R.rngDmaMask e) 15 0, irq := bit n 1, db := bit n 2, vector := bits n 13 3, mbox := bits n 21 14,
        value := s.pair (R.rngDmaDbvalLo e) (R.rngDmaDbvalHi e), sent := 0, lines := 0, halting := false }
      (bit n 0 = true → s.ringDma? e = none →
        (s.ringRanges d = true → 4 ≤ s.poolSize → Does (.ringDmaStart e v) s fun t => t.ringDma? e = some d ∧
          t.fld (R.rngDmaStatus e) 2 0 = 1 ∧ t.fld (R.rngDmaStatus e) 20 3 = 0 ∧
          t.pwr.pool = s.pwr.pool ++ [{ user := .ringDma e, pips := 4, granted := false }]) ∧
        (s.ringRanges d = true → s.poolSize < 4 → Does (.ringDmaStart e v) s fun t => t.ringDma? e = none ∧ t.fld (R.rngDmaStatus e) 2 0 = 5) ∧
        (s.ringRanges d = false → Does (.ringDmaStart e v) s fun t => t.ringDma? e = none ∧ t.fld (R.rngDmaStatus e) 2 0 = 4)) ∧
      (∀ x, s.ringDma? e = some x → x.len ≤ 128 * x.lines → x.db = false → s.rng.txns = [] → s.writesOut (tagRingDma e) = 0 →
        Does (.ringDmaDone e) s fun t => t.ringDma? e = none ∧ t.fld (R.rngDmaStatus e) 2 0 = 2 ∧
          t.pwr.pool = s.pwr.pool.filter fun r => r.user != .ringDma e)) ∧
    (∀ (p : Nat) (k : Token) (x : Census) (s : State), p < 2 → s.portSt p = 2 →
      (s.unitsRun = true → s.rng.census = none → s.maySend = true → s.portSt 0 = 2 → Does .censusGo s fun t =>
        t.rng.sweep = (s.rng.sweep + 1) % 65536 ∧ t.fld R.rngCensusStatus 1 0 = 1 ∧ t.fld R.rngCensusStatus 31 16 = (s.rng.sweep + 1) % 65536 ∧
        t.rng.census = some {
          sweep := (s.rng.sweep + 1) % 65536, closedAtStart := s.fld R.rngState 2 0 == 3, reissued := false, reverse := false,
          east := 2 ^ s.myId, west := 0, got := 2 ^ s.myId, start := s.rnd.round, returned := none } ∧
        (t.rport 0).items = (s.rport 0).items ++ [.token {
          origin := s.myId, sweep := (s.rng.sweep + 1) % 65536, reverse := false, returning := false, visited := 0, inc := s.myInc }]) ∧
      (k.origin ≠ s.myId → k.returning = false → s.maySend = true → s.portSt (1 - p) = 2 → Does (.censusToken p k) s fun t =>
        (t.rport (1 - p)).items = (s.rport (1 - p)).items ++ [.token { k with visited := k.visited + 1 }] ∧ ∃ r,
          t.rtxn? s.rng.nextTag = some r ∧ r.who = .census ∧ r.pkt.kind = .crec ∧ r.pkt.dst = k.origin ∧ r.pkt.offset = s.myId ∧
          r.pkt.data = leVal (s.censusRecord k.reverse)) ∧
      (k.origin ≠ s.myId → k.returning = false → s.maySend = true → s.portSt (1 - p) < 2 → Does (.censusToken p k) s fun t =>
        (t.rport p).items = (s.rport p).items ++ [.token { k with visited := k.visited + 1, returning := true }]) ∧
      (k.origin = s.myId → s.rng.census = some x → k.inc = s.myInc → k.sweep = x.sweep →
        (k.reverse = true → Does (.censusToken p k) s fun t => t.rng.census = none ∧ t.fld R.rngCensusStatus 1 0 = 0) ∧
        (k.reverse = false → x.reissued = false → k.returning = true → Does (.censusToken p k) s fun t =>
          t.rng.census = some { x with reissued := true, reverse := true, west := putBit x.west s.myId true } ∧ t.fld R.rngCensusStatus 1 0 = 2) ∧
        (k.reverse = false → x.reissued = false → k.returning = false → p = 1 → k.visited < popCount 32 x.east →
          Does (.censusToken p k) s fun t => t.rng.census = none ∧ t.fld R.rngCensusStatus 4 2 = 1)) ∧
      (s.rng.census = some x → s.pwr.halted = false →
        (x.reissued = true → Does .censusTimeout s fun t => t.rng.census = none ∧ t.fld R.rngCensusStatus 4 2 = 6) ∧
        (x.reissued = false → Does .censusTimeout s fun t => t.rng.census = some { x with reissued := true, reverse := true, west := putBit x.west s.myId true })))

/-- Tarn passes, UART characters, LIN frames and console readouts (R773, R774, R792, R795, R802, R812, R814, R816, R817, R827, R830, R872). -/
def Obligations.TarnPassesUartsLinAndConsole : Prop :=
  (∀ (q : Nat) (v : Word) (s : State), q < 4 →
      let h := s.reg (R.trnQHead q)
      let d (x : Nat) : Nat := (x + 2 ^ 32 - h) % 2 ^ 32
      let ok := d (s.reg (R.trnQTail q)) ≤ d v.toNat ∧ d v.toNat ≤ 2 ^ s.fld (R.trnQSize q) 3 0
      let a := s.pair (R.trnQBaseLo q) (R.trnQBaseHi q) + 64 * (h % 2 ^ s.fld (R.trnQSize q) 3 0)
      let p := (s.parsePass q h a (s.deviceBytes a 64)).1
      let lay := fieldAt (s.deviceBytes a 64) 0x18 8
      (ok → exec (.tarnQueueTail q v) s = .next (s.setReg (R.trnQTail q) v.toNat)) ∧
      (¬ok → Does (.tarnQueueTail q v) s fun t => OnlyRegs s t ∧ RegsBut [] s t) ∧
      (∀ port func off, s.funcOk port func = true → s.isPf port func = true → s.isCtl port func = true → off ∈ [0, 4, 8] →
        h ≠ s.reg (R.trnQTail q) → Does (.registerWrite port func (R.trnQBaseLo q + off) v) s fun t => OnlyRegs s t ∧ RegsBut [] s t) ∧
      (s.unitsRun = true → s.trn.pass = none → s.nextQueue = some q → s.rangeOk a 64 = true → inSwm a = false → s.poisoned a 64 = false →
        ((s.parsePass q h a (s.deviceBytes a 64)).2 = false → Does .passStart s fun t => t.trn.pass = some { p with ended := some (3, 0) }) ∧
        ((s.parsePass q h a (s.deviceBytes a 64)).2 = true → fieldAt (s.deviceBytes a 64) 1 1 = 1 → p.kind = 0 →
          inSwm lay = false → s.poisoned lay 32 = false → 16 ≤ s.poolSize → s.poolHas .tarn = false →
          (s.parseLayer (s.deviceBytes lay 32)).2 = true → (s.parseLayer (s.deviceBytes lay 32)).1.scree = false → Does .passStart s fun t =>
            t.trn.pass = some { p with layers := [(s.parseLayer (s.deviceBytes lay 32)).1], checked := true, pips := 16 } ∧
            t.pwr.pool = s.pwr.pool ++ [{ user := .tarn, pips := 16, granted := false }]))) ∧
    (∀ (p : TarnPass) (s : State), s.trn.pass = some p →
      (s.unitsRun = true → p.ended = none → p.checked = true →
        (p.granted = true → p.kind = 0 → p.layers = [] → p.bg.length = 4 → p.w = 1 → p.h = 1 → p.fmt ≤ 5 → p.tiles = 0 → p.band = [] → p.buf = [] →
          p.cancel = false → inSwm p.addr = false → p.addr % 128 = 0 → Does .tarnBandPublish s fun t =>
            t.trn.pass = some { p with tiles := 1, layer := 0, inTile := false, lines := [] } ∧
            Sends { CohMsg.mk0 .wrNC (.engine 0) (.home (s.homeOf (p.addr / 128))) (p.addr / 128) with
              bytes := 2 ^ pixelBytes p.fmt - 1, mask := 1, data := leVal (pixelOut p.fmt p.straight p.bg), tag := tagTarn } s t) ∧
        (p.kind = 0 → p.tiles = p.total → p.buf = [] → s.writesOut tagTarn = 0 → p.queue < 4 → Does .passEnd s fun t => t.trn.pass = none ∧
          t.reg (R.trnQHead p.queue) = (p.count + 1) % 2 ^ 32 ∧ t.reg R.trnPasses = satAdd 32 (s.reg R.trnPasses) 1 ∧
          t.reg R.trnFailed = s.reg R.trnFailed ∧ t.trn.vectors = (if p.irq then s.trn.vectors ++ [p.vector] else s.trn.vectors)) ∧
        (∀ x, s.stream p.stream = x → p.slotSince.isSome = true → x.st = 2 → x.producer = some .tarn → p.giveUp ≠ 0 →
          x.since + 1000 * p.giveUp ≤ s.mod.islandUs → Does .tarnGiveUp s fun t =>
            t.trn.pass = some { p with ended := some (11, 0) } ∧ (t.stream p.stream).st = 0 ∧ (t.stream p.stream).lens = [])) ∧
      (∀ d, s.unitsRun = true → p.ended = some (4, d) → p.kind = 0 → p.queue < 4 → Does .passEnd s fun t => t.trn.pass = none ∧
        t.reg (R.trnQHead p.queue) = (p.count + 1) % 2 ^ 32 ∧ t.reg R.trnFailed = satAdd 32 (s.reg R.trnFailed) 1) ∧
      (p.inTile = true → exec .tarnCancel s = .next (s.setPass { p with cancel := true })) ∧
      (p.inTile = false → p.ended = none → exec .tarnCancel s = .next (s.setPass { p with ended := some (13, 0) }))) ∧
    (∀ (u : Nat) (v : Word) (samples b : List Bool) (x : Uart) (s : State), u < 2 → s.uart u = x →
      let cfg := s.reg (R.uCfg u)
      (s.mod.power ≠ .off → uartMode cfg = 0 → rxBits cfg samples = some b →
        (x.rx.length < 64 → (rxClass cfg b < 256 ∨ bit cfg 27 = true) → Does (.uartRxCharacter u samples []) s fun t =>
          (t.uart u).rx = x.rx ++ [rxClass cfg b]) ∧
        (64 ≤ x.rx.length → (rxClass cfg b < 256 ∨ bit cfg 27 = true) → Does (.uartRxCharacter u samples []) s fun t =>
          (t.uart u).rx = (if bit cfg 26 then x.rx.dropLast ++ [rxClass cfg b] else x.rx) ∧ t.flag (R.uEvent u) 0 = true ∧
          t.fld (R.uCount u) 15 0 = satAdd 16 (s.fld (R.uCount u) 15 0) 1) ∧
        (256 ≤ rxClass cfg b → bit cfg 27 = false → Does (.uartRxCharacter u samples []) s fun t =>
          (t.uart u).rx = x.rx ∧ t.fld (R.uCount u) 31 16 = satAdd 16 (s.fld (R.uCount u) 31 16) 1)) ∧
      (x.rx = [] → exec (.uartDataRead u) s = .next { s with answer := 0 }) ∧
      (∀ c cs, x.rx = c :: cs → Does (.uartDataRead u) s fun t => t.answer = c + 2048 ∧ (t.uart u).rx = cs) ∧
      ((64 ≤ x.tx.length ∨ uartMode cfg = 2) → Does (.uartDataWrite u v) s fun t => t.uart u = x ∧ t.flag (R.uEvent u) 1 = true) ∧
      (x.tx.length < 64 → uartMode cfg ≠ 2 → x.shift.isSome = true →
        exec (.uartDataWrite u v) s = .next (s.setUart u { x with tx := x.tx ++ [v.toNat % 256] })) ∧
      (∀ c, x.shift = some c → x.cfg = none → u = 1 → Does (.uartTxCharacter u) s fun t =>
        (t.uart u).cells = charCells cfg c ∧ (uartMode cfg ≠ 2 → (t.uart u).shift = x.tx.head? ∧ (t.uart u).tx = x.tx.tail) ∧
        (uartMode cfg = 2 → (t.uart u).shift = none ∧ (t.uart u).tx = x.tx)) ∧
      (∀ sel c, x.cfg = some (sel, c) → sel < 3 → c < 2 ^ 32 → s.uartBetween u = true → Does (.uartCfgApply u) s fun t =>
        t.uart u = { x with cfg := none } ∧ t.reg (R.uSel u) = sel ∧ t.reg (R.uCfg u) = c) ∧
      (s.uartBetween u = false → exec (.uartCfgApply u) s = .next s)) ∧
    (∀ (k : Nat) (f : LinFrame) (back : List Nat) (recv : List (Nat × Bool)) (s : State), k < 8 →
      let d := s.reg (R.linSlot k)
      let data := (s.linBytes k).take (linLen d)
      (s.linRuns = true → s.ser.frame = none → s.flag R.glbOsc 1 = false → s.linDue k = true → (∀ j < k, s.linDue j = false) →
        Does .linSlotDue s fun t => t.ser.frame = some {
          slot := k, desc := d, sent := [0x55, linPid (bits d 5 0)] ++ if bit d 10 then data ++ [linCheck d data] else [] }) ∧
      (s.ser.frame = some f → f.slot = k →
        (linResult f back recv = 1 ∨ (f.sent.length ≤ back.length ∧ (bit f.desc 10 = true ∨ linLen f.desc < recv.length)) →
          Does (.linFrameEnd back recv) s fun t => t.ser.frame = none ∧ t.fld (R.linStat k) 2 0 = linResult f back recv ∧
            (linResult f back recv ≠ 0 → t.flag R.linEvent 0 = true ∧ t.linBytes k = s.linBytes k ∧
              t.fld (R.linStat k) 15 8 = satAdd 8 (s.fld (R.linStat k) 15 8) 1) ∧
            (linResult f back recv = 0 → bit f.desc 10 = false → t.flag (R.linStat k) 3 = true)) ∧
        (bit f.desc 10 = false → recv.length ≤ linLen f.desc → Does (.linResponseTimeout back recv) s fun t =>
          t.ser.frame = none ∧ t.fld (R.linStat k) 2 0 = linResult f back recv))) ∧
    (∀ (src : Nat) (r : Readout) (s : State), (s.uart 0).shift.isSome = true →
      (s.heldLine.bind commandSource = some src → src < 9 → s.crn.consoleRead = none → Does .consoleReadoutCommand s fun t =>
        t.flag R.crnCon 1 = true ∧ (t.uart 0).command = none ∧ t.crn.consoleRead = some {
          source := src, stream := 0, start := s.reg (R.crnCnt src), round := s.rnd.round, total := (s.cairn src).entries.length, sent := 0,
          result := 1 }) ∧
      (s.heldLine = some [63, 75, 88] → s.crn.consoleRead = some r → Does .consoleReadoutStop s fun t =>
        t.crn.consoleRead = none ∧ t.flag R.crnCon 1 = false) ∧
      (s.crn.consoleRead = some r → r.total ≤ r.sent → s.crn.conText = [] → Does .consoleReadoutEnd s fun t =>
        t.crn.consoleRead = none ∧ t.flag R.crnCon 1 = false ∧
        t.crn.conText = [75] ++ srcName r.source ++ [32, 69, 78, 68, 32] ++ hexDigits 4 (r.sent % 65536) ++ [13, 10]))

/-- The test access port, debug operations, cairns, the faceplate and fault records (R835, R836, R839, R840, R841, R845, R858, R865, R866, R868, R880, R910). -/
def Obligations.JtagDebugCairnsFaceplateAndFaults : Prop :=
  (∀ (v : Word) (s : State),
      (∀ c ∈ [Instr.trstAssert, .testLogicReset], Does c s fun t => t.ser.tap = { s.ser.tap with ir := 1, extest := false } ∧
        t.reg R.jtgArmed = 0 ∧ ∀ k, k < 26 → t.flag R.jtgState k = false) ∧
      (bit v.toNat 0 = true → Does (.jtgPolicyWrite v) s fun t => t.flag R.jtgPolicy 0 = false ∧ t.reg R.jtgArmed = 0 ∧
        (bit v.toNat 1 = true → t.flag R.jtgPolicy 1 = false) ∧ ∀ k, k < 25 → t.flag R.jtgState k = false) ∧
      (bit v.toNat 0 = false → exec (.jtgPolicyWrite v) s = .next (if bit v.toNat 1 then s.setFlag R.jtgPolicy 1 false else s)) ∧
      (Does .jtagBypass s fun t => t.ser.tap = { s.ser.tap with ir := 0xFF, extest := false } ∧ t.answer = 0) ∧
      (Does .jtagIdcode s fun t => t.ser.tap = { s.ser.tap with ir := 0x01, extest := false } ∧ t.answer % 2 ^ 28 = 0x0A58D5B ∧
        (bits (s.reg R.glbIdent) 23 16 = 0x10 → t.answer = 0x40A58D5B)) ∧
      (∀ (rx0 rx1 : Bool) (cells : Nat), ∀ c ∈ [(Instr.jtagSamplePreload rx0 rx1 cells, 0x02), (.jtagExtest rx0 rx1 cells, 0x03)], Does c.1 s fun t =>
        t.ser.tap = { s.ser.tap with ir := c.2, extest := c.2 == 0x03, cells := cells % 2 ^ 13 } ∧ bit t.answer 11 = rx0 ∧ bit t.answer 9 = rx1 ∧
        bit t.answer 8 = s.mod.flowOk ∧ bit t.answer 7 = !s.mod.perst ∧ bit t.answer 5 = !s.mod.bypassReq ∧
        (∀ k, k < 5 → bit t.answer k = bit s.mod.slotSeen (4 - k)))) ∧
    (∀ (w : Nat) (v : Word) (s : State),
      let off := 4 * (w % 2 ^ 23)
      (tableAt true off = none → (off < 0x01C08000 ∨ 0x01C08100 ≤ off) → Does (.mboxRead w) s fun t =>
        t.answer = ((s.tapIr 0x20).readReg off).answer ∧ t.ser.tap.data = t.answer ∧ t.ser.tap.done = true ∧ t.ser.tap.refused = false) ∧
      (s.flag R.jtgPolicy 1 = false → Does (.mboxWrite w v) s fun t => t.ser.tap.refused = true ∧ OnlyRegs { s with ser := t.ser, answer := s.ser.tap.mboxCapture } t ∧
        RegsBut [R.jtgState] s t) ∧
      (s.flag R.jtgPolicy 1 = true → tableAt true off = none → Does (.mboxWrite w v) s fun t => ∃ u, u.ser.tap.done = true ∧
        u.ser.tap.refused = false ∧ RegsBut [R.jtgState] s u ∧ t = u.writeReg s.ctlPort s.ctlFunc off v.toNat)) ∧
    (∀ (m slot : Nat) (s : State), m < 2 ^ 16 → slot < 64 →
      (s.flag R.jtgPolicy 0 = true →
        (Does (.dbgArm m) s fun t => ∀ h, h < 16 → t.flag R.jtgArmed h = (s.flag R.jtgArmed h || bit m h)) ∧
        (Does (.dbgDisarm m) s fun t => ∀ h, h < 16 → t.flag R.jtgArmed h = (s.flag R.jtgArmed h && !bit m h)) ∧
        (Does (.dbgHaltHalves m) s fun t => ∀ h, h < 16 → t.flag R.jtgState h = (s.flag R.jtgState h || bit m h)) ∧
        (Does (.dbgResumeHalves m) s fun t => ∀ h, h < 16 → t.flag R.jtgState h = (s.flag R.jtgState h && !bit m h)) ∧
        (Does (.dbgStep m slot) s fun t => ∀ h c, h < 16 → c < 72 → s.flag R.jtgState h = true → bit m h = true →
          Map.get? t.cor.stepOk (coreKey h c) = some slot) ∧
        (Does (.dbgHaltSequencers m) s fun t => ∀ d, d < 9 → bit m d = true → t.flag R.jtgState (16 + d) = true ∧ t.seqPhase d = 3) ∧
        (Does (.dbgResumeSequencers m) s fun t => ∀ d, d < 9 → bit m d = true → t.flag R.jtgState (16 + d) = false)) ∧
      (s.flag R.jtgPolicy 0 = false → ∀ c ∈ [Instr.dbgArm m, .dbgDisarm m, .dbgHaltHalves m, .dbgResumeHalves m, .dbgStep m slot,
        .dbgHaltSequencers m, .dbgResumeSequencers m], Does c s fun t => t.ser.tap.refused = true ∧ OnlyRegs { s with ser := t.ser, answer := s.dbgCapture } t ∧
          RegsBut [R.jtgState] s t ∧ ∀ k, k < 25 → t.flag R.jtgState k = s.flag R.jtgState k)) ∧
    (∀ (v : Word) (sn : Snapshot) (e : CairnEntry) (r : Readout) (s : State),
      (s.crn.snap = none → Does .crnFreezeCmd s fun t => t.flag R.crnStatus 0 = true ∧ t.flag R.crnStatus 1 = true ∧ ∃ k, k < 8 ∧
        Mem.readLE t.store.mem 0x000F1004 4 = k + 1 ∧ t.crn.snap = some {
          slot := k, number := topSnapshot s.store.mem + 1, code := 0x1101, triggers := 16,
          round := if s.rnd.running then s.rnd.round else 0, us := s.mod.islandUs }) ∧
      (s.crn.snap = some sn → exec .crnFreezeCmd s = .next
        { s with crn := { s.crn with snap := some { sn with triggers := putBit sn.triggers 4 true } } }) ∧
      (s.crn.snap = some sn → sn.triggers % 8 = 0 → s.boot.active = [] → s.mod.toStandby = none → s.crn.thermalStandby = false →
        Does .snapshotComplete s fun t => t.crn.snap = none ∧ t.flag R.crnStatus 0 = false ∧ t.flag R.crnStatus 1 = false ∧
          Mem.readLE t.store.mem 0x000F1004 4 = 0) ∧
      (popCount 8 (v.toNat % 256) ≤ 7 → exec (.crnPinWrite v) s = .next (s.setFld R.crnPin 7 0 (v.toNat % 256))) ∧
      (7 < popCount 8 (v.toNat % 256) → Does (.crnPinWrite v) s fun t => t.reg R.crnPin = s.reg R.crnPin) ∧
      (s.fld R.crnRdSel 4 0 < 9 → (s.cairn (s.fld R.crnRdSel 4 0)).entries[s.fld R.crnRdSel 29 16]? = some e → Does .cairnRdLatch s fun t =>
        t.crn.latched = e.bytes ∧ t.answer = leVal (e.bytes.take 4) ∧ ∀ k, k < 8 → t.reg (R.crnRdData k) = leVal ((e.bytes.drop (4 * k)).take 4) % 2 ^ 32) ∧
      (s.unitsRun = true → bit v.toNat 16 = true → s.crn.streamRead = none → 16 ≤ bits v.toNat 12 8 → bits v.toNat 12 8 < 24 →
        snapValid s.store.mem (bits v.toNat 12 8 - 16) = false → Does (.cairnStreamReadout v) s fun t => t.flag R.crnStreamStatus 3 = true ∧
          ∃ q, t.crn.streamRead = some q ∧ q.source = bits v.toNat 12 8 ∧ q.result = 5) ∧
      (s.unitsRun = true → bit v.toNat 16 = true → s.crn.streamRead = none → bits v.toNat 12 8 < 9 → Does (.cairnStreamReadout v) s fun t =>
        t.flag R.crnStreamStatus 3 = true ∧ ∃ q, t.crn.streamRead = some q ∧ q.source = bits v.toNat 12 8 ∧
          ((s.bindStream (bits v.toNat 5 0) .cairn).2 = false → q.result = 3) ∧
          ((s.bindStream (bits v.toNat 5 0) .cairn).2 = true → q.result = 0 ∧
            q.total = 64 + 32 * (s.cairn (bits v.toNat 12 8)).entries.length)) ∧
      (s.unitsRun = true → s.crn.streamRead = some r → r.result ≠ 0 → r.result < 8 → Does .cairnReadoutEnd s fun t =>
        t.crn.streamRead = none ∧ t.fld R.crnStreamStatus 2 0 = r.result ∧ t.flag R.crnStreamStatus 3 = false)) ∧
    (∀ (c : Nat) (s : State),
      (s.crn.drawing = none → s.crn.queued = some c → Does .faceplateUpdate s fun t => t.crn.drawing = some c ∧ t.crn.queued = none ∧
        Mem.readLE t.store.mem fplMark 4 = 1 ∧ t.reg R.fplTag = t.crn.panelLeft ∧ t.flag R.fplStatus 0 = true ∧
        Mem.readLE t.store.mem (fplRecord + 4) 4 = (Mem.readLE s.store.mem (fplRecord + 4) 4 + 1) % 2 ^ 32) ∧
      (s.crn.drawing = some c → s.crn.queued = none → Does .faceplateUpdateDone s fun t => t.crn.drawing = none ∧
        Mem.readLE t.store.mem fplMark 4 = 0 ∧ t.crn.panelBody = Mem.readLE s.store.mem (fplRecord + 8) 4 ∧ t.crn.panelRight = t.crn.panelBody ∧
        t.crn.panelLeft = t.crn.panelBody ∧ t.flag R.fplStatus 0 = false) ∧
      (Does .fplUpdateRequest s fun t => t.crn.queued = some 2 ∧ (s.crn.drawing.isSome = true → t.flag R.fplStatus 1 = true))) ∧
    (∀ (h k a : Nat) (n : Notice) (x : List Nat) (xs : List (List Nat)) (s : State),
      (s.unitsRun = true → h < 16 → s.flag R.crnCfg 0 = false → Does (.unitFaultDetect (.coreStore h k)) s fun t =>
        t.flt.notices = s.flt.notices ++ [{
          kind := 1, code := 0x0402, die := h / 2, unit := h % 2 + 2 * k, parts := s.partsHolding (· == h), round := s.rnd.round, half := h,
          line := 0, cfg := s.reg R.fltCfg }]) ∧
      (s.unitsRun = true → h < 8 → Does (.unitFaultDetect (.stackSector h k a)) s fun t => a / 128 ∈ t.flt.poison) ∧
      (s.unitsRun = true → s.mayServe 8 1 = true → s.flt.notices = [n] → n.kind = 11 → n.parts = 0 → Does .faultNotice s fun t =>
        t.flt.notices = [] ∧ t.flag R.fltFailed 16 = true ∧
        (s.flt.records.length < 32 → t.flt.records = s.flt.records ++ [n.record 0]) ∧ (32 ≤ s.flt.records.length → t.flag R.fltStatus 7 = true)) ∧
      (s.flt.records = x :: xs → Does .faultRecordPop s fun t => t.flt.records = xs ∧ t.flt.latched = x ∧ t.answer = leVal (x.take 4) ∧
        (xs.length < 32 → t.fld R.fltStatus 6 1 = xs.length)) ∧
      (s.flt.records = [] → exec .faultRecordPop s = .next { s with answer := leVal (s.flt.latched.take 4) }))
end

