-- ==== Sys2Proof/Laws/Bits.lean ====
section
/-! SUPPORT. Laws of bit fields: what a field reads after a field was written. -/

namespace Sys2Proof.Machine

theorem bits_lt (n hi lo : Nat) : bits n hi lo < 2 ^ (hi + 1 - lo) := Nat.mod_lt _ (Nat.two_pow_pos _)

/-- A field written, as its three parts: what lies above it, the field, what lies below it. -/
theorem putBits_eq (n hi lo v : Nat) :
    putBits n hi lo v =
      2 ^ lo * (2 ^ (hi + 1 - lo) * (n / 2 ^ lo / 2 ^ (hi + 1 - lo)) + v % 2 ^ (hi + 1 - lo)) + n % 2 ^ lo := by
  unfold putBits bits
  have h1 := Nat.div_add_mod n (2 ^ lo)
  have h2 := Nat.div_add_mod (n / 2 ^ lo) (2 ^ (hi + 1 - lo))
  generalize hq : n / 2 ^ lo = q at *
  generalize hw : 2 ^ (hi + 1 - lo) = W at *
  have h3 : 2 ^ lo * q = 2 ^ lo * (W * (q / W)) + q % W * 2 ^ lo := by
    rw [Nat.mul_comm (q % W), ← Nat.mul_add, h2]
  rw [Nat.mul_add, Nat.mul_comm (2 ^ lo) (v % W)]
  omega

theorem div_mul_add (a b r : Nat) (h : r < a) : (a * b + r) / a = b := by
  rw [Nat.add_comm, Nat.add_mul_div_left _ _ (by omega), Nat.div_eq_of_lt h, Nat.zero_add]

theorem putBits_div (n hi lo v : Nat) :
    putBits n hi lo v / 2 ^ lo =
      2 ^ (hi + 1 - lo) * (n / 2 ^ lo / 2 ^ (hi + 1 - lo)) + v % 2 ^ (hi + 1 - lo) := by
  rw [putBits_eq, div_mul_add _ _ _ (Nat.mod_lt _ (Nat.two_pow_pos _))]

/-- The field written reads the value written. -/
@[simp] theorem bits_putBits_self (n hi lo v : Nat) :
    bits (putBits n hi lo v) hi lo = v % 2 ^ (hi + 1 - lo) := by
  unfold bits
  rw [putBits_div, Nat.mul_add_mod, Nat.mod_mod]

/-- A field above the field written reads as before. -/
theorem bits_putBits_above (n hi lo v h2 l2 : Nat) (h : hi < l2) (h' : lo ≤ l2) :
    bits (putBits n hi lo v) h2 l2 = bits n h2 l2 := by
  unfold bits
  have e : (2 : Nat) ^ l2 = 2 ^ lo * 2 ^ (l2 - lo) := by rw [← Nat.pow_add]; congr 1; omega
  have e2 : (2 : Nat) ^ (l2 - lo) = 2 ^ (hi + 1 - lo) * 2 ^ (l2 - lo - (hi + 1 - lo)) := by
    rw [← Nat.pow_add]; congr 1; omega
  have k : putBits n hi lo v / 2 ^ l2 = n / 2 ^ l2 := by
    rw [e, ← Nat.div_div_eq_div_mul, putBits_div, ← Nat.div_div_eq_div_mul, e2, ← Nat.div_div_eq_div_mul,
      ← Nat.div_div_eq_div_mul, div_mul_add _ _ _ (Nat.mod_lt _ (Nat.two_pow_pos _))]
  rw [k]

/-- A field below the field written reads as before. -/
theorem bits_putBits_below (n hi lo v h2 l2 : Nat) (h : h2 < lo) (h' : l2 ≤ h2) :
    bits (putBits n hi lo v) h2 l2 = bits n h2 l2 := by
  unfold bits
  rw [← Nat.mod_mul_right_div_self, ← Nat.mod_mul_right_div_self (m := n), ← Nat.pow_add]
  have e : l2 + (h2 + 1 - l2) = h2 + 1 := by omega
  rw [e]
  have d : (2 : Nat) ^ (h2 + 1) ∣ 2 ^ lo := Nat.pow_dvd_pow 2 h
  have k : putBits n hi lo v % 2 ^ lo = n % 2 ^ lo := by rw [putBits_eq, Nat.mul_add_mod, Nat.mod_mod]
  rw [← Nat.mod_mod_of_dvd _ d, k, Nat.mod_mod_of_dvd _ d]

/-- Fields that do not meet: the other one reads as before. -/
theorem bits_putBits_ne (n hi lo v h2 l2 : Nat) (h : hi < l2 ∨ h2 < lo) (h1 : lo ≤ hi + 1) (h' : l2 ≤ h2) :
    bits (putBits n hi lo v) h2 l2 = bits n h2 l2 := by
  rcases h with h | h
  · exact bits_putBits_above n hi lo v h2 l2 h (by omega)
  · exact bits_putBits_below n hi lo v h2 l2 h h'

/-- Writing a field inside `w` bits keeps the number inside `w` bits. -/
theorem putBits_lt (n hi lo v w : Nat) (h : n < 2 ^ w) (h1 : hi < w) (h2 : lo ≤ hi + 1) :
    putBits n hi lo v < 2 ^ w := by
  have a : putBits n hi lo v / 2 ^ w = n / 2 ^ w := by
    have := bits_putBits_above n hi lo v
    have e : (2 : Nat) ^ w = 2 ^ lo * 2 ^ (w - lo) := by rw [← Nat.pow_add]; congr 1; omega
    have e2 : (2 : Nat) ^ (w - lo) = 2 ^ (hi + 1 - lo) * 2 ^ (w - lo - (hi + 1 - lo)) := by
      rw [← Nat.pow_add]; congr 1; omega
    rw [e, ← Nat.div_div_eq_div_mul, putBits_div, ← Nat.div_div_eq_div_mul, e2, ← Nat.div_div_eq_div_mul,
      ← Nat.div_div_eq_div_mul, div_mul_add _ _ _ (Nat.mod_lt _ (Nat.two_pow_pos _))]
  rw [Nat.div_eq_of_lt h] at a
  exact (Nat.div_eq_zero_iff_lt (Nat.two_pow_pos _)).mp a

/-- A field's own value written back changes nothing. -/
theorem putBits_bits (n hi lo : Nat) : putBits n hi lo (bits n hi lo) = n := by
  rw [putBits_eq]
  unfold bits
  rw [Nat.mod_mod, Nat.div_add_mod, Nat.div_add_mod]

theorem bit_eq_bits (n i : Nat) : bit n i = (bits n i i == 1) := by
  unfold bit bits; simp

/-- The bit written reads the value written. -/
@[simp] theorem bit_putBit_self (n i : Nat) (b : Bool) : bit (putBit n i b) i = b := by
  rw [bit_eq_bits, putBit, bits_putBits_self]
  cases b <;> simp

/-- Another bit reads as before. -/
theorem bit_putBit_ne (n i j : Nat) (b : Bool) (h : j ≠ i) : bit (putBit n i b) j = bit n j := by
  rw [bit_eq_bits, bit_eq_bits, putBit, bits_putBits_ne _ _ _ _ _ _ (by omega) (by omega) (by omega)]

@[simp] theorem bit_putBits_single (n i v : Nat) : bit (putBits n i i v) i = (v % 2 == 1) := by
  rw [bit_eq_bits, bits_putBits_self]; simp

/-- A bit outside the field written reads as before. -/
theorem bit_putBits_ne (n hi lo v j : Nat) (h : hi < j ∨ j < lo) (h1 : lo ≤ hi + 1) :
    bit (putBits n hi lo v) j = bit n j := by
  rw [bit_eq_bits, bit_eq_bits, bits_putBits_ne _ _ _ _ _ _ h h1 (by omega)]

/-- A field outside the bit written reads as before. -/
theorem bits_putBit_ne (n i hi lo : Nat) (b : Bool) (h : i < lo ∨ hi < i) (h1 : lo ≤ hi) :
    bits (putBit n i b) hi lo = bits n hi lo := bits_putBits_ne _ _ _ _ _ _ h (by omega) h1

/-- The whole word as a field. -/
theorem bits_word (n : Nat) : bits n 31 0 = n % 2 ^ 32 := by simp [bits]

theorem satAdd_eq (w a b : Nat) (h : a + b < 2 ^ w) : satAdd w a b = a + b := by unfold satAdd; omega

end Sys2Proof.Machine
end

