-- ==== Sys2Proof/Laws/Maps.lean ====
section
/-! SUPPORT. Laws of sparse tables and sparse memory: read after write, frames, and the canonical form. They
hold of every table, canonical or not, but for those that say so. -/

namespace Sys2Proof.Machine

variable {α : Type}

@[simp] theorem Map.get?_set_self (t : Table α) (k : Nat) (v : α) : Map.get? (Map.set t k v) k = some v := by
  induction t with
  | nil => simp [Map.set, Map.get?]
  | cons p t ih =>
    obtain ⟨j, w⟩ := p
    simp only [Map.set]
    split
    · simp [Map.get?]
    · split <;> simp_all [Map.get?]

theorem Map.get?_set_ne (t : Table α) {k i : Nat} (v : α) (h : i ≠ k) :
    Map.get? (Map.set t k v) i = Map.get? t i := by
  induction t with
  | nil => simp [Map.set, Map.get?, Ne.symm h]
  | cons p t ih =>
    obtain ⟨j, w⟩ := p
    simp only [Map.set]
    split
    · next hj => simp [Map.get?, hj, Ne.symm h]
    · split
      · simp [Map.get?, Ne.symm h]
      · simp [Map.get?, ih]

@[simp] theorem Map.get?_erase_self (t : Table α) (k : Nat) : Map.get? (Map.erase t k) k = none := by
  induction t with
  | nil => rfl
  | cons p t ih =>
    obtain ⟨j, w⟩ := p
    unfold Map.erase at *
    simp only [List.filter_cons]
    split
    · next hj => simpa [Map.get?, show j ≠ k by simpa using hj] using ih
    · exact ih

theorem Map.get?_erase_ne (t : Table α) {k i : Nat} (h : i ≠ k) :
    Map.get? (Map.erase t k) i = Map.get? t i := by
  induction t with
  | nil => rfl
  | cons p t ih =>
    obtain ⟨j, w⟩ := p
    unfold Map.erase at *
    simp only [List.filter_cons]
    split
    · simp [Map.get?, ih]
    · next hj =>
      have : j = k := by simpa using hj
      simpa [Map.get?, this, Ne.symm h] using ih

@[simp] theorem Map.getD_set_self (t : Table α) (k : Nat) (v d : α) : Map.getD (Map.set t k v) k d = v := by
  simp [Map.getD]

theorem Map.getD_set_ne (t : Table α) {k i : Nat} (v d : α) (h : i ≠ k) :
    Map.getD (Map.set t k v) i d = Map.getD t i d := by simp [Map.getD, Map.get?_set_ne t v h]

@[simp] theorem Map.getD_erase_self (t : Table α) (k : Nat) (d : α) : Map.getD (Map.erase t k) k d = d := by
  simp [Map.getD]

theorem Map.getD_erase_ne (t : Table α) {k i : Nat} (d : α) (h : i ≠ k) :
    Map.getD (Map.erase t k) i d = Map.getD t i d := by simp [Map.getD, Map.get?_erase_ne t h]

theorem Map.get?_set (t : Table α) (k i : Nat) (v : α) :
    Map.get? (Map.set t k v) i = if i = k then some v else Map.get? t i := by
  split
  · next h => subst h; simp
  · next h => exact Map.get?_set_ne t v h

theorem Map.getD_set (t : Table α) (k i : Nat) (v d : α) :
    Map.getD (Map.set t k v) i d = if i = k then v else Map.getD t i d := by
  unfold Map.getD; rw [Map.get?_set]; split <;> rfl

/-- `f` at key `k` is what reading `k` then gives; other keys read as before. -/
theorem Map.get?_modify (t : Table α) (k i : Nat) (f : α → α) :
    Map.get? (Map.modify t k f) i = if i = k then (Map.get? t k).map f else Map.get? t i := by
  unfold Map.modify
  split
  · next v h => rw [Map.get?_set, h]; split <;> rfl
  · next h =>
    split
    · next hi => subst hi; simp [h]
    · rfl

/-! ### The canonical form -/

theorem Map.sorted_tail {p : Nat × α} {t : Table α} (h : Map.sorted (p :: t) = true) : Map.sorted t = true := by
  cases t with
  | nil => rfl
  | cons q t => simp [Map.sorted] at h; exact h.2

/-- A table is sorted exactly when its head's key is below every other key and its tail is sorted. -/
theorem Map.sorted_cons {j : Nat} {w : α} {t : Table α} :
    Map.sorted ((j, w) :: t) = true ↔ (∀ q ∈ t, j < q.1) ∧ Map.sorted t = true := by
  induction t generalizing j w with
  | nil => simp [Map.sorted]
  | cons p t ih =>
    obtain ⟨k, u⟩ := p
    simp only [Map.sorted, Bool.and_eq_true, decide_eq_true_eq]
    constructor
    · rintro ⟨h1, h2⟩
      refine ⟨?_, h2⟩
      intro q hq
      rcases List.mem_cons.mp hq with rfl | hq
      · exact h1
      · exact Nat.lt_trans h1 ((ih.mp h2).1 q hq)
    · rintro ⟨h1, h2⟩
      exact ⟨h1 (k, u) (by simp), h2⟩

theorem Map.sorted_filter (t : Table α) (p : Nat × α → Bool) (h : Map.sorted t = true) :
    Map.sorted (t.filter p) = true := by
  induction t with
  | nil => rfl
  | cons q t ih =>
    obtain ⟨j, w⟩ := q
    obtain ⟨h1, h2⟩ := Map.sorted_cons.mp h
    simp only [List.filter_cons]
    split
    · exact Map.sorted_cons.mpr ⟨fun q hq => h1 q ((List.mem_filter.mp hq).1), ih h2⟩
    · exact ih h2

theorem Map.sorted_erase (t : Table α) (k : Nat) (h : Map.sorted t = true) :
    Map.sorted (Map.erase t k) = true := Map.sorted_filter t _ h

theorem Map.mem_set {t : Table α} {k : Nat} {v : α} {q : Nat × α} (h : q ∈ Map.set t k v) :
    q = (k, v) ∨ q ∈ t := by
  induction t with
  | nil => simp [Map.set] at h; exact Or.inl h
  | cons p t ih =>
    obtain ⟨j, w⟩ := p
    simp only [Map.set] at h
    split at h
    · rcases List.mem_cons.mp h with rfl | h
      · exact Or.inl rfl
      · exact Or.inr (List.mem_cons_of_mem _ h)
    · split at h
      · rcases List.mem_cons.mp h with rfl | h
        · exact Or.inl rfl
        · exact Or.inr h
      · rcases List.mem_cons.mp h with rfl | h
        · exact Or.inr (by simp)
        · rcases ih h with rfl | h
          · exact Or.inl rfl
          · exact Or.inr (List.mem_cons_of_mem _ h)

theorem Map.sorted_set (t : Table α) (k : Nat) (v : α) (h : Map.sorted t = true) :
    Map.sorted (Map.set t k v) = true := by
  induction t with
  | nil => rfl
  | cons p t ih =>
    obtain ⟨j, w⟩ := p
    obtain ⟨h1, h2⟩ := Map.sorted_cons.mp h
    simp only [Map.set]
    split
    · next hj => subst hj; exact Map.sorted_cons.mpr ⟨h1, h2⟩
    · split
      · next hk =>
        refine Map.sorted_cons.mpr ⟨?_, h⟩
        intro q hq
        rcases List.mem_cons.mp hq with rfl | hq
        · exact hk
        · exact Nat.lt_trans hk (h1 q hq)
      · next hj hk =>
        refine Map.sorted_cons.mpr ⟨?_, ih h2⟩
        intro q hq
        rcases Map.mem_set hq with rfl | hq
        · simp only; omega
        · exact h1 q hq

/-! ### Memory -/

@[simp] theorem Mem.read_write_self (m : Mem) (a : Nat) (v : Byte) : Mem.read (Mem.write m a v) a = v := by
  unfold Mem.read Mem.write
  split
  · next h => simp [h]
  · simp

theorem Mem.read_write_ne (m : Mem) {a b : Nat} (v : Byte) (h : b ≠ a) :
    Mem.read (Mem.write m a v) b = Mem.read m b := by
  unfold Mem.read Mem.write
  split
  · exact Map.getD_erase_ne m 0 h
  · exact Map.getD_set_ne m v 0 h

/-- Every byte outside the bytes written reads as before. -/
theorem Mem.read_writeBytes_ne (m : Mem) (a : Nat) (l : List Nat) {b : Nat} (h : b < a ∨ a + l.length ≤ b) :
    Mem.read (Mem.writeBytes m a l) b = Mem.read m b := by
  induction l generalizing m a with
  | nil => rfl
  | cons x l ih =>
    simp only [List.length_cons] at h
    simp only [Mem.writeBytes]
    rw [ih _ _ (by omega), Mem.read_write_ne _ _ (by omega)]

@[simp] theorem leBytes_length (k v : Nat) : (leBytes k v).length = k := by
  induction k generalizing v with
  | zero => rfl
  | succ k ih => simp [leBytes, ih]

/-- Every byte outside a number written reads as before. -/
theorem Mem.read_writeLE_ne (m : Mem) (a k v : Nat) {b : Nat} (h : b < a ∨ a + k ≤ b) :
    Mem.read (Mem.writeLE m a k v) b = Mem.read m b :=
  Mem.read_writeBytes_ne m a (leBytes k v) (by simpa using h)

theorem Mem.readBytes_write_ne (m : Mem) (a b k : Nat) (v : Byte) (h : a < b ∨ b + k ≤ a) :
    Mem.readBytes (Mem.write m a v) b k = Mem.readBytes m b k := by
  induction k generalizing b with
  | zero => rfl
  | succ k ih =>
    simp only [Mem.readBytes]
    rw [Mem.read_write_ne _ _ (by omega), ih _ (by omega)]

/-- Reading back the bytes written gives them. -/
theorem Mem.readBytes_writeBytes (m : Mem) (a : Nat) (l : List Nat) :
    Mem.readBytes (Mem.writeBytes m a l) a l.length = l.map (· % 256) := by
  induction l generalizing m a with
  | nil => rfl
  | cons x l ih =>
    simp only [Mem.writeBytes, List.length_cons, Mem.readBytes, List.map_cons]
    rw [Mem.read_writeBytes_ne _ _ _ (by omega), Mem.read_write_self, ih]
    simp

theorem leVal_leBytes (k v : Nat) : leVal (leBytes k v) = v % 256 ^ k := by
  induction k generalizing v with
  | zero => simp [leBytes, leVal, Nat.mod_one]
  | succ k ih =>
    simp only [leBytes, leVal, ih]
    rw [Nat.pow_succ, Nat.mul_comm (256 ^ k) 256, Nat.mod_mul, Nat.mod_mod]

theorem leBytes_mod (k v : Nat) : (leBytes k v).map (· % 256) = leBytes k v := by
  induction k generalizing v with
  | zero => rfl
  | succ k ih => simp [leBytes, ih]

/-- Reading back a number written gives its low `k` bytes. -/
theorem Mem.readLE_writeLE (m : Mem) (a k v : Nat) : Mem.readLE (Mem.writeLE m a k v) a k = v % 256 ^ k := by
  have h := Mem.readBytes_writeBytes m a (leBytes k v)
  rw [leBytes_length, leBytes_mod] at h
  unfold Mem.readLE Mem.writeLE
  rw [h, leVal_leBytes]

theorem Mem.wf_iff (m : Mem) : Mem.wf m = true ↔ Map.sorted m = true ∧ ∀ c ∈ m, c.2 ≠ 0 := by
  simp [Mem.wf]

theorem Mem.wf_write (m : Mem) (a : Nat) (v : Byte) (h : Mem.wf m = true) : Mem.wf (Mem.write m a v) = true := by
  obtain ⟨h1, h2⟩ := (Mem.wf_iff m).mp h
  unfold Mem.write
  split
  · exact (Mem.wf_iff _).mpr ⟨Map.sorted_erase m a h1, fun c hc => h2 c ((List.mem_filter.mp hc).1)⟩
  · next hv =>
    refine (Mem.wf_iff _).mpr ⟨Map.sorted_set m a v h1, fun c hc => ?_⟩
    rcases Map.mem_set hc with rfl | hc
    · exact hv
    · exact h2 c hc

theorem Mem.wf_writeBytes (m : Mem) (a : Nat) (l : List Nat) (h : Mem.wf m = true) :
    Mem.wf (Mem.writeBytes m a l) = true := by
  induction l generalizing m a with
  | nil => exact h
  | cons x l ih => exact ih _ _ (Mem.wf_write m a _ h)

theorem Mem.wf_writeLE (m : Mem) (a k v : Nat) (h : Mem.wf m = true) : Mem.wf (Mem.writeLE m a k v) = true :=
  Mem.wf_writeBytes m a _ h

theorem Mem.wf_filter (m : Mem) (p : Nat × Byte → Bool) (h : Mem.wf m = true) : Mem.wf (m.filter p) = true := by
  obtain ⟨h1, h2⟩ := (Mem.wf_iff m).mp h
  exact (Mem.wf_iff _).mpr ⟨Map.sorted_filter m p h1, fun c hc => h2 c ((List.mem_filter.mp hc).1)⟩

theorem Mem.wf_clear (m : Mem) (lo hi : Nat) (h : Mem.wf m = true) : Mem.wf (Mem.clear m lo hi) = true :=
  Mem.wf_filter m _ h

end Sys2Proof.Machine
end

