-- ==== Sys2Proof/Laws/State.lean ====
section
/-! SUPPORT. The register file as every family uses it: what a register reads after one was written, and what the
shared operations of the register file, the cairns and the fault notices leave as it was. -/

namespace Sys2Proof.Machine

/-! ### Registers -/

theorem regReset_lt (a : Nat) : (regReset a).toNat < 2 ^ 32 := (regReset a).isLt

theorem State.reg_lt (s : State) (a : Nat) : s.reg a < 2 ^ 32 := (Map.getD s.regs a (regReset a)).isLt

/-- A register written reads the value written (32 bits); another reads as before. -/
theorem State.reg_setReg (s : State) (a b v : Nat) :
    (s.setReg a v).reg b = if b = a then v % 2 ^ 32 else s.reg b := by
  unfold State.reg State.setReg
  simp only
  split
  · next hw =>
    split
    · next h => subst h; rw [Map.getD_erase_self, ← hw]; simp
    · next h => rw [Map.getD_erase_ne _ _ h]
  · split
    · next h => subst h; simp
    · next h => rw [Map.getD_set_ne _ _ _ h]

@[simp] theorem State.reg_setReg_self (s : State) (a v : Nat) : (s.setReg a v).reg a = v % 2 ^ 32 := by
  simp [State.reg_setReg]

theorem State.reg_setReg_ne (s : State) {a b : Nat} (v : Nat) (h : b ≠ a) : (s.setReg a v).reg b = s.reg b := by
  simp [State.reg_setReg, h]

/-- What a field write leaves in its own register. -/
theorem State.reg_setFld_self (s : State) (a hi lo v : Nat) (h : hi < 32) (h' : lo ≤ hi + 1) :
    (s.setFld a hi lo v).reg a = putBits (s.reg a) hi lo v := by
  unfold State.setFld
  rw [State.reg_setReg_self, Nat.mod_eq_of_lt (putBits_lt _ _ _ _ _ (s.reg_lt a) h h')]

theorem State.reg_setFld_ne (s : State) {a b : Nat} (hi lo v : Nat) (h : b ≠ a) :
    (s.setFld a hi lo v).reg b = s.reg b := State.reg_setReg_ne s _ h

theorem State.reg_setFlag_ne (s : State) {a b : Nat} (i : Nat) (v : Bool) (h : b ≠ a) :
    (s.setFlag a i v).reg b = s.reg b := State.reg_setFld_ne s _ _ _ h

theorem State.reg_addFld_ne (s : State) {a b : Nat} (hi lo k : Nat) (h : b ≠ a) :
    (s.addFld a hi lo k).reg b = s.reg b := State.reg_setFld_ne s _ _ _ h

theorem State.reg_count_ne (s : State) {a b : Nat} (k : Nat) (h : b ≠ a) : (s.count a k).reg b = s.reg b :=
  State.reg_addFld_ne s _ _ _ h

/-- A counter goes up by `k`, stopping at its largest value. -/
theorem State.reg_count_self (s : State) (a k : Nat) :
    (s.count a k).reg a = min (s.reg a + k) (2 ^ 32 - 1) := by
  unfold State.count State.addFld
  rw [State.reg_setFld_self _ _ _ _ _ (by omega) (by omega), putBits_eq]
  have h := s.reg_lt a
  simp only [satAdd, State.fld, bits_word]
  omega

/-- The field written reads the value written. -/
theorem State.fld_setFld_self (s : State) (a hi lo v : Nat) (h : hi < 32) (h' : lo ≤ hi + 1) :
    (s.setFld a hi lo v).fld a hi lo = v % 2 ^ (hi + 1 - lo) := by
  unfold State.fld
  rw [State.reg_setFld_self _ _ _ _ _ h h', bits_putBits_self]

/-- Another field of the same register reads as before. -/
theorem State.fld_setFld_ne (s : State) (a hi lo v h2 l2 : Nat) (h : hi < 32) (h' : lo ≤ hi)
    (hd : hi < l2 ∨ h2 < lo) (h2' : l2 ≤ h2) : (s.setFld a hi lo v).fld a h2 l2 = s.fld a h2 l2 := by
  unfold State.fld
  rw [State.reg_setFld_self _ _ _ _ _ h (by omega), bits_putBits_ne _ _ _ _ _ _ hd (by omega) h2']

theorem State.flag_setFlag_self (s : State) (a i : Nat) (b : Bool) (h : i < 32) :
    (s.setFlag a i b).flag a i = b := by
  unfold State.flag State.setFlag
  rw [State.reg_setFld_self _ _ _ _ _ h (by omega)]
  exact bit_putBit_self _ _ _

theorem State.flag_setFlag_ne (s : State) (a i j : Nat) (b : Bool) (h : i < 32) (hj : j ≠ i) :
    (s.setFlag a i b).flag a j = s.flag a j := by
  unfold State.flag State.setFlag
  rw [State.reg_setFld_self _ _ _ _ _ h (by omega)]
  exact bit_putBit_ne _ _ _ _ hj

theorem State.flag_setFld_ne (s : State) (a hi lo v j : Nat) (h : hi < 32) (h' : lo ≤ hi)
    (hj : hi < j ∨ j < lo) : (s.setFld a hi lo v).flag a j = s.flag a j := by
  unfold State.flag
  rw [State.reg_setFld_self _ _ _ _ _ h (by omega), bit_putBits_ne _ _ _ _ _ hj (by omega)]

theorem State.fld_setFlag_ne (s : State) (a i hi lo : Nat) (b : Bool) (h : i < 32) (hd : i < lo ∨ hi < i)
    (h' : lo ≤ hi) : (s.setFlag a i b).fld a hi lo = s.fld a hi lo :=
  State.fld_setFld_ne s a i i _ hi lo h (by omega) hd h'

/-- A field of a register depends on nothing but the register. -/
theorem State.fld_of_reg {s t : State} {a : Nat} (h : t.reg a = s.reg a) (hi lo : Nat) : t.fld a hi lo = s.fld a hi lo := by
  unfold State.fld; rw [h]

theorem State.flag_of_reg {s t : State} {a : Nat} (h : t.reg a = s.reg a) (i : Nat) : t.flag a i = s.flag a i := by
  unfold State.flag; rw [h]

/-! ### Writing registers changes nothing else -/

@[simp] theorem State.setReg_free (s : State) (a v : Nat) : (s.setReg a v).free = s.free := rfl
@[simp] theorem State.setReg_staged (s : State) (a v : Nat) : (s.setReg a v).staged = s.staged := rfl
@[simp] theorem State.setReg_delayed (s : State) (a v : Nat) : (s.setReg a v).delayed = s.delayed := rfl
@[simp] theorem State.setReg_answer (s : State) (a v : Nat) : (s.setReg a v).answer = s.answer := rfl
@[simp] theorem State.setReg_mod (s : State) (a v : Nat) : (s.setReg a v).mod = s.mod := rfl
@[simp] theorem State.setReg_rnd (s : State) (a v : Nat) : (s.setReg a v).rnd = s.rnd := rfl
@[simp] theorem State.setReg_boot (s : State) (a v : Nat) : (s.setReg a v).boot = s.boot := rfl
@[simp] theorem State.setReg_store (s : State) (a v : Nat) : (s.setReg a v).store = s.store := rfl
@[simp] theorem State.setReg_fuse (s : State) (a v : Nat) : (s.setReg a v).fuse = s.fuse := rfl
@[simp] theorem State.setReg_img (s : State) (a v : Nat) : (s.setReg a v).img = s.img := rfl
@[simp] theorem State.setReg_jobs (s : State) (a v : Nat) : (s.setReg a v).jobs = s.jobs := rfl
@[simp] theorem State.setReg_pwr (s : State) (a v : Nat) : (s.setReg a v).pwr = s.pwr := rfl
@[simp] theorem State.setReg_crn (s : State) (a v : Nat) : (s.setReg a v).crn = s.crn := rfl
@[simp] theorem State.setReg_flt (s : State) (a v : Nat) : (s.setReg a v).flt = s.flt := rfl
@[simp] theorem State.setReg_cor (s : State) (a v : Nat) : (s.setReg a v).cor = s.cor := rfl
@[simp] theorem State.setReg_mem (s : State) (a v : Nat) : (s.setReg a v).mem = s.mem := rfl
@[simp] theorem State.setReg_hst (s : State) (a v : Nat) : (s.setReg a v).hst = s.hst := rfl
@[simp] theorem State.setReg_rng (s : State) (a v : Nat) : (s.setReg a v).rng = s.rng := rfl
@[simp] theorem State.setReg_seq (s : State) (a v : Nat) : (s.setReg a v).seq = s.seq := rfl
@[simp] theorem State.setReg_trn (s : State) (a v : Nat) : (s.setReg a v).trn = s.trn := rfl
@[simp] theorem State.setReg_ser (s : State) (a v : Nat) : (s.setReg a v).ser = s.ser := rfl
@[simp] theorem State.setReg_arr (s : State) (a v : Nat) : (s.setReg a v).arr = s.arr := rfl
@[simp] theorem State.setReg_cols (s : State) (a v : Nat) : (s.setReg a v).cols = s.cols := rfl
@[simp] theorem State.setReg_hbm (s : State) (a v : Nat) : (s.setReg a v).hbm = s.hbm := rfl
@[simp] theorem State.setReg_host (s : State) (a v : Nat) : (s.setReg a v).host = s.host := rfl
@[simp] theorem State.setReg_pending (s : State) (a v : Nat) : (s.setReg a v).pending = s.pending := rfl

@[simp] theorem State.setFld_free (s : State) (a hi lo v : Nat) : (s.setFld a hi lo v).free = s.free := rfl
@[simp] theorem State.setFld_staged (s : State) (a hi lo v : Nat) : (s.setFld a hi lo v).staged = s.staged := rfl
@[simp] theorem State.setFld_delayed (s : State) (a hi lo v : Nat) : (s.setFld a hi lo v).delayed = s.delayed := rfl
@[simp] theorem State.setFld_answer (s : State) (a hi lo v : Nat) : (s.setFld a hi lo v).answer = s.answer := rfl
@[simp] theorem State.setFld_mod (s : State) (a hi lo v : Nat) : (s.setFld a hi lo v).mod = s.mod := rfl
@[simp] theorem State.setFld_rnd (s : State) (a hi lo v : Nat) : (s.setFld a hi lo v).rnd = s.rnd := rfl
@[simp] theorem State.setFld_boot (s : State) (a hi lo v : Nat) : (s.setFld a hi lo v).boot = s.boot := rfl
@[simp] theorem State.setFld_store (s : State) (a hi lo v : Nat) : (s.setFld a hi lo v).store = s.store := rfl
@[simp] theorem State.setFld_fuse (s : State) (a hi lo v : Nat) : (s.setFld a hi lo v).fuse = s.fuse := rfl
@[simp] theorem State.setFld_img (s : State) (a hi lo v : Nat) : (s.setFld a hi lo v).img = s.img := rfl
@[simp] theorem State.setFld_jobs (s : State) (a hi lo v : Nat) : (s.setFld a hi lo v).jobs = s.jobs := rfl
@[simp] theorem State.setFld_pwr (s : State) (a hi lo v : Nat) : (s.setFld a hi lo v).pwr = s.pwr := rfl
@[simp] theorem State.setFld_crn (s : State) (a hi lo v : Nat) : (s.setFld a hi lo v).crn = s.crn := rfl
@[simp] theorem State.setFld_flt (s : State) (a hi lo v : Nat) : (s.setFld a hi lo v).flt = s.flt := rfl
@[simp] theorem State.setFld_cor (s : State) (a hi lo v : Nat) : (s.setFld a hi lo v).cor = s.cor := rfl
@[simp] theorem State.setFld_mem (s : State) (a hi lo v : Nat) : (s.setFld a hi lo v).mem = s.mem := rfl
@[simp] theorem State.setFld_hst (s : State) (a hi lo v : Nat) : (s.setFld a hi lo v).hst = s.hst := rfl
@[simp] theorem State.setFld_rng (s : State) (a hi lo v : Nat) : (s.setFld a hi lo v).rng = s.rng := rfl
@[simp] theorem State.setFld_seq (s : State) (a hi lo v : Nat) : (s.setFld a hi lo v).seq = s.seq := rfl
@[simp] theorem State.setFld_trn (s : State) (a hi lo v : Nat) : (s.setFld a hi lo v).trn = s.trn := rfl
@[simp] theorem State.setFld_ser (s : State) (a hi lo v : Nat) : (s.setFld a hi lo v).ser = s.ser := rfl
@[simp] theorem State.setFld_arr (s : State) (a hi lo v : Nat) : (s.setFld a hi lo v).arr = s.arr := rfl
@[simp] theorem State.setFld_cols (s : State) (a hi lo v : Nat) : (s.setFld a hi lo v).cols = s.cols := rfl
@[simp] theorem State.setFld_hbm (s : State) (a hi lo v : Nat) : (s.setFld a hi lo v).hbm = s.hbm := rfl
@[simp] theorem State.setFld_host (s : State) (a hi lo v : Nat) : (s.setFld a hi lo v).host = s.host := rfl
@[simp] theorem State.setFld_pending (s : State) (a hi lo v : Nat) : (s.setFld a hi lo v).pending = s.pending := rfl

@[simp] theorem State.setFlag_free (s : State) (a i : Nat) (b : Bool) : (s.setFlag a i b).free = s.free := rfl
@[simp] theorem State.setFlag_staged (s : State) (a i : Nat) (b : Bool) : (s.setFlag a i b).staged = s.staged := rfl
@[simp] theorem State.setFlag_delayed (s : State) (a i : Nat) (b : Bool) : (s.setFlag a i b).delayed = s.delayed := rfl
@[simp] theorem State.setFlag_answer (s : State) (a i : Nat) (b : Bool) : (s.setFlag a i b).answer = s.answer := rfl
@[simp] theorem State.setFlag_mod (s : State) (a i : Nat) (b : Bool) : (s.setFlag a i b).mod = s.mod := rfl
@[simp] theorem State.setFlag_rnd (s : State) (a i : Nat) (b : Bool) : (s.setFlag a i b).rnd = s.rnd := rfl
@[simp] theorem State.setFlag_boot (s : State) (a i : Nat) (b : Bool) : (s.setFlag a i b).boot = s.boot := rfl
@[simp] theorem State.setFlag_store (s : State) (a i : Nat) (b : Bool) : (s.setFlag a i b).store = s.store := rfl
@[simp] theorem State.setFlag_fuse (s : State) (a i : Nat) (b : Bool) : (s.setFlag a i b).fuse = s.fuse := rfl
@[simp] theorem State.setFlag_img (s : State) (a i : Nat) (b : Bool) : (s.setFlag a i b).img = s.img := rfl
@[simp] theorem State.setFlag_jobs (s : State) (a i : Nat) (b : Bool) : (s.setFlag a i b).jobs = s.jobs := rfl
@[simp] theorem State.setFlag_pwr (s : State) (a i : Nat) (b : Bool) : (s.setFlag a i b).pwr = s.pwr := rfl
@[simp] theorem State.setFlag_crn (s : State) (a i : Nat) (b : Bool) : (s.setFlag a i b).crn = s.crn := rfl
@[simp] theorem State.setFlag_flt (s : State) (a i : Nat) (b : Bool) : (s.setFlag a i b).flt = s.flt := rfl
@[simp] theorem State.setFlag_cor (s : State) (a i : Nat) (b : Bool) : (s.setFlag a i b).cor = s.cor := rfl
@[simp] theorem State.setFlag_mem (s : State) (a i : Nat) (b : Bool) : (s.setFlag a i b).mem = s.mem := rfl
@[simp] theorem State.setFlag_hst (s : State) (a i : Nat) (b : Bool) : (s.setFlag a i b).hst = s.hst := rfl
@[simp] theorem State.setFlag_rng (s : State) (a i : Nat) (b : Bool) : (s.setFlag a i b).rng = s.rng := rfl
@[simp] theorem State.setFlag_seq (s : State) (a i : Nat) (b : Bool) : (s.setFlag a i b).seq = s.seq := rfl
@[simp] theorem State.setFlag_trn (s : State) (a i : Nat) (b : Bool) : (s.setFlag a i b).trn = s.trn := rfl
@[simp] theorem State.setFlag_ser (s : State) (a i : Nat) (b : Bool) : (s.setFlag a i b).ser = s.ser := rfl
@[simp] theorem State.setFlag_arr (s : State) (a i : Nat) (b : Bool) : (s.setFlag a i b).arr = s.arr := rfl
@[simp] theorem State.setFlag_cols (s : State) (a i : Nat) (b : Bool) : (s.setFlag a i b).cols = s.cols := rfl
@[simp] theorem State.setFlag_hbm (s : State) (a i : Nat) (b : Bool) : (s.setFlag a i b).hbm = s.hbm := rfl
@[simp] theorem State.setFlag_host (s : State) (a i : Nat) (b : Bool) : (s.setFlag a i b).host = s.host := rfl
@[simp] theorem State.setFlag_pending (s : State) (a i : Nat) (b : Bool) : (s.setFlag a i b).pending = s.pending := rfl

@[simp] theorem State.addFld_free (s : State) (a hi lo k : Nat) : (s.addFld a hi lo k).free = s.free := rfl
@[simp] theorem State.addFld_staged (s : State) (a hi lo k : Nat) : (s.addFld a hi lo k).staged = s.staged := rfl
@[simp] theorem State.addFld_delayed (s : State) (a hi lo k : Nat) : (s.addFld a hi lo k).delayed = s.delayed := rfl
@[simp] theorem State.addFld_answer (s : State) (a hi lo k : Nat) : (s.addFld a hi lo k).answer = s.answer := rfl
@[simp] theorem State.addFld_mod (s : State) (a hi lo k : Nat) : (s.addFld a hi lo k).mod = s.mod := rfl
@[simp] theorem State.addFld_rnd (s : State) (a hi lo k : Nat) : (s.addFld a hi lo k).rnd = s.rnd := rfl
@[simp] theorem State.addFld_boot (s : State) (a hi lo k : Nat) : (s.addFld a hi lo k).boot = s.boot := rfl
@[simp] theorem State.addFld_store (s : State) (a hi lo k : Nat) : (s.addFld a hi lo k).store = s.store := rfl
@[simp] theorem State.addFld_fuse (s : State) (a hi lo k : Nat) : (s.addFld a hi lo k).fuse = s.fuse := rfl
@[simp] theorem State.addFld_img (s : State) (a hi lo k : Nat) : (s.addFld a hi lo k).img = s.img := rfl
@[simp] theorem State.addFld_jobs (s : State) (a hi lo k : Nat) : (s.addFld a hi lo k).jobs = s.jobs := rfl
@[simp] theorem State.addFld_pwr (s : State) (a hi lo k : Nat) : (s.addFld a hi lo k).pwr = s.pwr := rfl
@[simp] theorem State.addFld_crn (s : State) (a hi lo k : Nat) : (s.addFld a hi lo k).crn = s.crn := rfl
@[simp] theorem State.addFld_flt (s : State) (a hi lo k : Nat) : (s.addFld a hi lo k).flt = s.flt := rfl
@[simp] theorem State.addFld_cor (s : State) (a hi lo k : Nat) : (s.addFld a hi lo k).cor = s.cor := rfl
@[simp] theorem State.addFld_mem (s : State) (a hi lo k : Nat) : (s.addFld a hi lo k).mem = s.mem := rfl
@[simp] theorem State.addFld_hst (s : State) (a hi lo k : Nat) : (s.addFld a hi lo k).hst = s.hst := rfl
@[simp] theorem State.addFld_rng (s : State) (a hi lo k : Nat) : (s.addFld a hi lo k).rng = s.rng := rfl
@[simp] theorem State.addFld_seq (s : State) (a hi lo k : Nat) : (s.addFld a hi lo k).seq = s.seq := rfl
@[simp] theorem State.addFld_trn (s : State) (a hi lo k : Nat) : (s.addFld a hi lo k).trn = s.trn := rfl
@[simp] theorem State.addFld_ser (s : State) (a hi lo k : Nat) : (s.addFld a hi lo k).ser = s.ser := rfl
@[simp] theorem State.addFld_arr (s : State) (a hi lo k : Nat) : (s.addFld a hi lo k).arr = s.arr := rfl
@[simp] theorem State.addFld_cols (s : State) (a hi lo k : Nat) : (s.addFld a hi lo k).cols = s.cols := rfl
@[simp] theorem State.addFld_hbm (s : State) (a hi lo k : Nat) : (s.addFld a hi lo k).hbm = s.hbm := rfl
@[simp] theorem State.addFld_host (s : State) (a hi lo k : Nat) : (s.addFld a hi lo k).host = s.host := rfl
@[simp] theorem State.addFld_pending (s : State) (a hi lo k : Nat) : (s.addFld a hi lo k).pending = s.pending := rfl

@[simp] theorem State.count_free (s : State) (a k : Nat) : (s.count a k).free = s.free := rfl
@[simp] theorem State.count_staged (s : State) (a k : Nat) : (s.count a k).staged = s.staged := rfl
@[simp] theorem State.count_delayed (s : State) (a k : Nat) : (s.count a k).delayed = s.delayed := rfl
@[simp] theorem State.count_answer (s : State) (a k : Nat) : (s.count a k).answer = s.answer := rfl
@[simp] theorem State.count_mod (s : State) (a k : Nat) : (s.count a k).mod = s.mod := rfl
@[simp] theorem State.count_rnd (s : State) (a k : Nat) : (s.count a k).rnd = s.rnd := rfl
@[simp] theorem State.count_boot (s : State) (a k : Nat) : (s.count a k).boot = s.boot := rfl
@[simp] theorem State.count_store (s : State) (a k : Nat) : (s.count a k).store = s.store := rfl
@[simp] theorem State.count_fuse (s : State) (a k : Nat) : (s.count a k).fuse = s.fuse := rfl
@[simp] theorem State.count_img (s : State) (a k : Nat) : (s.count a k).img = s.img := rfl
@[simp] theorem State.count_jobs (s : State) (a k : Nat) : (s.count a k).jobs = s.jobs := rfl
@[simp] theorem State.count_pwr (s : State) (a k : Nat) : (s.count a k).pwr = s.pwr := rfl
@[simp] theorem State.count_crn (s : State) (a k : Nat) : (s.count a k).crn = s.crn := rfl
@[simp] theorem State.count_flt (s : State) (a k : Nat) : (s.count a k).flt = s.flt := rfl
@[simp] theorem State.count_cor (s : State) (a k : Nat) : (s.count a k).cor = s.cor := rfl
@[simp] theorem State.count_mem (s : State) (a k : Nat) : (s.count a k).mem = s.mem := rfl
@[simp] theorem State.count_hst (s : State) (a k : Nat) : (s.count a k).hst = s.hst := rfl
@[simp] theorem State.count_rng (s : State) (a k : Nat) : (s.count a k).rng = s.rng := rfl
@[simp] theorem State.count_seq (s : State) (a k : Nat) : (s.count a k).seq = s.seq := rfl
@[simp] theorem State.count_trn (s : State) (a k : Nat) : (s.count a k).trn = s.trn := rfl
@[simp] theorem State.count_ser (s : State) (a k : Nat) : (s.count a k).ser = s.ser := rfl
@[simp] theorem State.count_arr (s : State) (a k : Nat) : (s.count a k).arr = s.arr := rfl
@[simp] theorem State.count_cols (s : State) (a k : Nat) : (s.count a k).cols = s.cols := rfl
@[simp] theorem State.count_hbm (s : State) (a k : Nat) : (s.count a k).hbm = s.hbm := rfl
@[simp] theorem State.count_host (s : State) (a k : Nat) : (s.count a k).host = s.host := rfl
@[simp] theorem State.count_pending (s : State) (a k : Nat) : (s.count a k).pending = s.pending := rfl

@[simp] theorem State.count64_free (s : State) (lo hi k : Nat) : (s.count64 lo hi k).free = s.free := rfl
@[simp] theorem State.count64_staged (s : State) (lo hi k : Nat) : (s.count64 lo hi k).staged = s.staged := rfl
@[simp] theorem State.count64_delayed (s : State) (lo hi k : Nat) : (s.count64 lo hi k).delayed = s.delayed := rfl
@[simp] theorem State.count64_answer (s : State) (lo hi k : Nat) : (s.count64 lo hi k).answer = s.answer := rfl
@[simp] theorem State.count64_mod (s : State) (lo hi k : Nat) : (s.count64 lo hi k).mod = s.mod := rfl
@[simp] theorem State.count64_rnd (s : State) (lo hi k : Nat) : (s.count64 lo hi k).rnd = s.rnd := rfl
@[simp] theorem State.count64_boot (s : State) (lo hi k : Nat) : (s.count64 lo hi k).boot = s.boot := rfl
@[simp] theorem State.count64_store (s : State) (lo hi k : Nat) : (s.count64 lo hi k).store = s.store := rfl
@[simp] theorem State.count64_fuse (s : State) (lo hi k : Nat) : (s.count64 lo hi k).fuse = s.fuse := rfl
@[simp] theorem State.count64_img (s : State) (lo hi k : Nat) : (s.count64 lo hi k).img = s.img := rfl
@[simp] theorem State.count64_jobs (s : State) (lo hi k : Nat) : (s.count64 lo hi k).jobs = s.jobs := rfl
@[simp] theorem State.count64_pwr (s : State) (lo hi k : Nat) : (s.count64 lo hi k).pwr = s.pwr := rfl
@[simp] theorem State.count64_crn (s : State) (lo hi k : Nat) : (s.count64 lo hi k).crn = s.crn := rfl
@[simp] theorem State.count64_flt (s : State) (lo hi k : Nat) : (s.count64 lo hi k).flt = s.flt := rfl
@[simp] theorem State.count64_cor (s : State) (lo hi k : Nat) : (s.count64 lo hi k).cor = s.cor := rfl
@[simp] theorem State.count64_mem (s : State) (lo hi k : Nat) : (s.count64 lo hi k).mem = s.mem := rfl
@[simp] theorem State.count64_hst (s : State) (lo hi k : Nat) : (s.count64 lo hi k).hst = s.hst := rfl
@[simp] theorem State.count64_rng (s : State) (lo hi k : Nat) : (s.count64 lo hi k).rng = s.rng := rfl
@[simp] theorem State.count64_seq (s : State) (lo hi k : Nat) : (s.count64 lo hi k).seq = s.seq := rfl
@[simp] theorem State.count64_trn (s : State) (lo hi k : Nat) : (s.count64 lo hi k).trn = s.trn := rfl
@[simp] theorem State.count64_ser (s : State) (lo hi k : Nat) : (s.count64 lo hi k).ser = s.ser := rfl
@[simp] theorem State.count64_arr (s : State) (lo hi k : Nat) : (s.count64 lo hi k).arr = s.arr := rfl
@[simp] theorem State.count64_cols (s : State) (lo hi k : Nat) : (s.count64 lo hi k).cols = s.cols := rfl
@[simp] theorem State.count64_hbm (s : State) (lo hi k : Nat) : (s.count64 lo hi k).hbm = s.hbm := rfl
@[simp] theorem State.count64_host (s : State) (lo hi k : Nat) : (s.count64 lo hi k).host = s.host := rfl
@[simp] theorem State.count64_pending (s : State) (lo hi k : Nat) : (s.count64 lo hi k).pending = s.pending := rfl

@[simp] theorem State.setPair_free (s : State) (lo hi v : Nat) : (s.setPair lo hi v).free = s.free := rfl
@[simp] theorem State.setPair_staged (s : State) (lo hi v : Nat) : (s.setPair lo hi v).staged = s.staged := rfl
@[simp] theorem State.setPair_delayed (s : State) (lo hi v : Nat) : (s.setPair lo hi v).delayed = s.delayed := rfl
@[simp] theorem State.setPair_answer (s : State) (lo hi v : Nat) : (s.setPair lo hi v).answer = s.answer := rfl
@[simp] theorem State.setPair_mod (s : State) (lo hi v : Nat) : (s.setPair lo hi v).mod = s.mod := rfl
@[simp] theorem State.setPair_rnd (s : State) (lo hi v : Nat) : (s.setPair lo hi v).rnd = s.rnd := rfl
@[simp] theorem State.setPair_boot (s : State) (lo hi v : Nat) : (s.setPair lo hi v).boot = s.boot := rfl
@[simp] theorem State.setPair_store (s : State) (lo hi v : Nat) : (s.setPair lo hi v).store = s.store := rfl
@[simp] theorem State.setPair_fuse (s : State) (lo hi v : Nat) : (s.setPair lo hi v).fuse = s.fuse := rfl
@[simp] theorem State.setPair_img (s : State) (lo hi v : Nat) : (s.setPair lo hi v).img = s.img := rfl
@[simp] theorem State.setPair_jobs (s : State) (lo hi v : Nat) : (s.setPair lo hi v).jobs = s.jobs := rfl
@[simp] theorem State.setPair_pwr (s : State) (lo hi v : Nat) : (s.setPair lo hi v).pwr = s.pwr := rfl
@[simp] theorem State.setPair_crn (s : State) (lo hi v : Nat) : (s.setPair lo hi v).crn = s.crn := rfl
@[simp] theorem State.setPair_flt (s : State) (lo hi v : Nat) : (s.setPair lo hi v).flt = s.flt := rfl
@[simp] theorem State.setPair_cor (s : State) (lo hi v : Nat) : (s.setPair lo hi v).cor = s.cor := rfl
@[simp] theorem State.setPair_mem (s : State) (lo hi v : Nat) : (s.setPair lo hi v).mem = s.mem := rfl
@[simp] theorem State.setPair_hst (s : State) (lo hi v : Nat) : (s.setPair lo hi v).hst = s.hst := rfl
@[simp] theorem State.setPair_rng (s : State) (lo hi v : Nat) : (s.setPair lo hi v).rng = s.rng := rfl
@[simp] theorem State.setPair_seq (s : State) (lo hi v : Nat) : (s.setPair lo hi v).seq = s.seq := rfl
@[simp] theorem State.setPair_trn (s : State) (lo hi v : Nat) : (s.setPair lo hi v).trn = s.trn := rfl
@[simp] theorem State.setPair_ser (s : State) (lo hi v : Nat) : (s.setPair lo hi v).ser = s.ser := rfl
@[simp] theorem State.setPair_arr (s : State) (lo hi v : Nat) : (s.setPair lo hi v).arr = s.arr := rfl
@[simp] theorem State.setPair_cols (s : State) (lo hi v : Nat) : (s.setPair lo hi v).cols = s.cols := rfl
@[simp] theorem State.setPair_hbm (s : State) (lo hi v : Nat) : (s.setPair lo hi v).hbm = s.hbm := rfl
@[simp] theorem State.setPair_host (s : State) (lo hi v : Nat) : (s.setPair lo hi v).host = s.host := rfl
@[simp] theorem State.setPair_pending (s : State) (lo hi v : Nat) : (s.setPair lo hi v).pending = s.pending := rfl

@[simp] theorem State.setCairn_free (s : State) (d : Nat) (c : Cairn) : (s.setCairn d c).free = s.free := rfl
@[simp] theorem State.setCairn_staged (s : State) (d : Nat) (c : Cairn) : (s.setCairn d c).staged = s.staged := rfl
@[simp] theorem State.setCairn_delayed (s : State) (d : Nat) (c : Cairn) : (s.setCairn d c).delayed = s.delayed := rfl
@[simp] theorem State.setCairn_answer (s : State) (d : Nat) (c : Cairn) : (s.setCairn d c).answer = s.answer := rfl
@[simp] theorem State.setCairn_mod (s : State) (d : Nat) (c : Cairn) : (s.setCairn d c).mod = s.mod := rfl
@[simp] theorem State.setCairn_rnd (s : State) (d : Nat) (c : Cairn) : (s.setCairn d c).rnd = s.rnd := rfl
@[simp] theorem State.setCairn_boot (s : State) (d : Nat) (c : Cairn) : (s.setCairn d c).boot = s.boot := rfl
@[simp] theorem State.setCairn_store (s : State) (d : Nat) (c : Cairn) : (s.setCairn d c).store = s.store := rfl
@[simp] theorem State.setCairn_fuse (s : State) (d : Nat) (c : Cairn) : (s.setCairn d c).fuse = s.fuse := rfl
@[simp] theorem State.setCairn_img (s : State) (d : Nat) (c : Cairn) : (s.setCairn d c).img = s.img := rfl
@[simp] theorem State.setCairn_jobs (s : State) (d : Nat) (c : Cairn) : (s.setCairn d c).jobs = s.jobs := rfl
@[simp] theorem State.setCairn_pwr (s : State) (d : Nat) (c : Cairn) : (s.setCairn d c).pwr = s.pwr := rfl
@[simp] theorem State.setCairn_flt (s : State) (d : Nat) (c : Cairn) : (s.setCairn d c).flt = s.flt := rfl
@[simp] theorem State.setCairn_cor (s : State) (d : Nat) (c : Cairn) : (s.setCairn d c).cor = s.cor := rfl
@[simp] theorem State.setCairn_mem (s : State) (d : Nat) (c : Cairn) : (s.setCairn d c).mem = s.mem := rfl
@[simp] theorem State.setCairn_hst (s : State) (d : Nat) (c : Cairn) : (s.setCairn d c).hst = s.hst := rfl
@[simp] theorem State.setCairn_rng (s : State) (d : Nat) (c : Cairn) : (s.setCairn d c).rng = s.rng := rfl
@[simp] theorem State.setCairn_seq (s : State) (d : Nat) (c : Cairn) : (s.setCairn d c).seq = s.seq := rfl
@[simp] theorem State.setCairn_trn (s : State) (d : Nat) (c : Cairn) : (s.setCairn d c).trn = s.trn := rfl
@[simp] theorem State.setCairn_ser (s : State) (d : Nat) (c : Cairn) : (s.setCairn d c).ser = s.ser := rfl
@[simp] theorem State.setCairn_arr (s : State) (d : Nat) (c : Cairn) : (s.setCairn d c).arr = s.arr := rfl
@[simp] theorem State.setCairn_cols (s : State) (d : Nat) (c : Cairn) : (s.setCairn d c).cols = s.cols := rfl
@[simp] theorem State.setCairn_hbm (s : State) (d : Nat) (c : Cairn) : (s.setCairn d c).hbm = s.hbm := rfl
@[simp] theorem State.setCairn_host (s : State) (d : Nat) (c : Cairn) : (s.setCairn d c).host = s.host := rfl
@[simp] theorem State.setCairn_pending (s : State) (d : Nat) (c : Cairn) : (s.setCairn d c).pending = s.pending := rfl
@[simp] theorem State.setCairn_regs (s : State) (d : Nat) (c : Cairn) : (s.setCairn d c).regs = s.regs := rfl

@[simp] theorem State.setCairn_reg (s : State) (d : Nat) (c : Cairn) (a : Nat) : (s.setCairn d c).reg a = s.reg a := rfl

/-! ### Events change the cairns and their counters only -/

/-- All that offering an entry to a cairn does: the cairn and its three counters. -/
theorem State.offer_eq (s : State) (d : Nat) (e : CairnEntry) (b : Bool) :
    ∃ c a k, (a = R.crnFrozen d ∨ a = R.crnDrop d ∨ a = R.crnCnt d) ∧
      s.offer d e b = (s.setCairn d c).count a k := by
  unfold State.offer
  split
  · exact ⟨_, _, _, Or.inl rfl, rfl⟩
  · simp only
    generalize (if (s.cairn d).turn = s.absTurn then s.cairn d else _) = c
    split
    · exact ⟨_, _, _, Or.inr (Or.inl rfl), rfl⟩
    · exact ⟨_, _, _, Or.inr (Or.inr rfl), rfl⟩

theorem State.reg_offer (s : State) (d : Nat) (e : CairnEntry) (b : Bool) (a : Nat) (hd : d ≤ 8)
    (ha : notCairnCount a) : (s.offer d e b).reg a = s.reg a := by
  obtain ⟨c, x, k, hx, h⟩ := s.offer_eq d e b
  rw [h, State.reg_count_ne, State.setCairn_reg]
  unfold notCairnCount at ha
  rcases hx with rfl | rfl | rfl <;> simp only [R.crnFrozen, R.crnDrop, R.crnCnt, Base.crn] <;> omega

@[simp] theorem State.offer_free (s : State) (d : Nat) (e : CairnEntry) (b : Bool) : (s.offer d e b).free = s.free := by
  obtain ⟨c, x, k, -, h⟩ := s.offer_eq d e b; rw [h]; rfl
@[simp] theorem State.offer_staged (s : State) (d : Nat) (e : CairnEntry) (b : Bool) : (s.offer d e b).staged = s.staged := by
  obtain ⟨c, x, k, -, h⟩ := s.offer_eq d e b; rw [h]; rfl
@[simp] theorem State.offer_delayed (s : State) (d : Nat) (e : CairnEntry) (b : Bool) : (s.offer d e b).delayed = s.delayed := by
  obtain ⟨c, x, k, -, h⟩ := s.offer_eq d e b; rw [h]; rfl
@[simp] theorem State.offer_answer (s : State) (d : Nat) (e : CairnEntry) (b : Bool) : (s.offer d e b).answer = s.answer := by
  obtain ⟨c, x, k, -, h⟩ := s.offer_eq d e b; rw [h]; rfl
@[simp] theorem State.offer_mod (s : State) (d : Nat) (e : CairnEntry) (b : Bool) : (s.offer d e b).mod = s.mod := by
  obtain ⟨c, x, k, -, h⟩ := s.offer_eq d e b; rw [h]; rfl
@[simp] theorem State.offer_rnd (s : State) (d : Nat) (e : CairnEntry) (b : Bool) : (s.offer d e b).rnd = s.rnd := by
  obtain ⟨c, x, k, -, h⟩ := s.offer_eq d e b; rw [h]; rfl
@[simp] theorem State.offer_boot (s : State) (d : Nat) (e : CairnEntry) (b : Bool) : (s.offer d e b).boot = s.boot := by
  obtain ⟨c, x, k, -, h⟩ := s.offer_eq d e b; rw [h]; rfl
@[simp] theorem State.offer_store (s : State) (d : Nat) (e : CairnEntry) (b : Bool) : (s.offer d e b).store = s.store := by
  obtain ⟨c, x, k, -, h⟩ := s.offer_eq d e b; rw [h]; rfl
@[simp] theorem State.offer_fuse (s : State) (d : Nat) (e : CairnEntry) (b : Bool) : (s.offer d e b).fuse = s.fuse := by
  obtain ⟨c, x, k, -, h⟩ := s.offer_eq d e b; rw [h]; rfl
@[simp] theorem State.offer_img (s : State) (d : Nat) (e : CairnEntry) (b : Bool) : (s.offer d e b).img = s.img := by
  obtain ⟨c, x, k, -, h⟩ := s.offer_eq d e b; rw [h]; rfl
@[simp] theorem State.offer_jobs (s : State) (d : Nat) (e : CairnEntry) (b : Bool) : (s.offer d e b).jobs = s.jobs := by
  obtain ⟨c, x, k, -, h⟩ := s.offer_eq d e b; rw [h]; rfl
@[simp] theorem State.offer_pwr (s : State) (d : Nat) (e : CairnEntry) (b : Bool) : (s.offer d e b).pwr = s.pwr := by
  obtain ⟨c, x, k, -, h⟩ := s.offer_eq d e b; rw [h]; rfl
@[simp] theorem State.offer_flt (s : State) (d : Nat) (e : CairnEntry) (b : Bool) : (s.offer d e b).flt = s.flt := by
  obtain ⟨c, x, k, -, h⟩ := s.offer_eq d e b; rw [h]; rfl
@[simp] theorem State.offer_cor (s : State) (d : Nat) (e : CairnEntry) (b : Bool) : (s.offer d e b).cor = s.cor := by
  obtain ⟨c, x, k, -, h⟩ := s.offer_eq d e b; rw [h]; rfl
@[simp] theorem State.offer_mem (s : State) (d : Nat) (e : CairnEntry) (b : Bool) : (s.offer d e b).mem = s.mem := by
  obtain ⟨c, x, k, -, h⟩ := s.offer_eq d e b; rw [h]; rfl
@[simp] theorem State.offer_hst (s : State) (d : Nat) (e : CairnEntry) (b : Bool) : (s.offer d e b).hst = s.hst := by
  obtain ⟨c, x, k, -, h⟩ := s.offer_eq d e b; rw [h]; rfl
@[simp] theorem State.offer_rng (s : State) (d : Nat) (e : CairnEntry) (b : Bool) : (s.offer d e b).rng = s.rng := by
  obtain ⟨c, x, k, -, h⟩ := s.offer_eq d e b; rw [h]; rfl
@[simp] theorem State.offer_seq (s : State) (d : Nat) (e : CairnEntry) (b : Bool) : (s.offer d e b).seq = s.seq := by
  obtain ⟨c, x, k, -, h⟩ := s.offer_eq d e b; rw [h]; rfl
@[simp] theorem State.offer_trn (s : State) (d : Nat) (e : CairnEntry) (b : Bool) : (s.offer d e b).trn = s.trn := by
  obtain ⟨c, x, k, -, h⟩ := s.offer_eq d e b; rw [h]; rfl
@[simp] theorem State.offer_ser (s : State) (d : Nat) (e : CairnEntry) (b : Bool) : (s.offer d e b).ser = s.ser := by
  obtain ⟨c, x, k, -, h⟩ := s.offer_eq d e b; rw [h]; rfl
@[simp] theorem State.offer_arr (s : State) (d : Nat) (e : CairnEntry) (b : Bool) : (s.offer d e b).arr = s.arr := by
  obtain ⟨c, x, k, -, h⟩ := s.offer_eq d e b; rw [h]; rfl
@[simp] theorem State.offer_cols (s : State) (d : Nat) (e : CairnEntry) (b : Bool) : (s.offer d e b).cols = s.cols := by
  obtain ⟨c, x, k, -, h⟩ := s.offer_eq d e b; rw [h]; rfl
@[simp] theorem State.offer_hbm (s : State) (d : Nat) (e : CairnEntry) (b : Bool) : (s.offer d e b).hbm = s.hbm := by
  obtain ⟨c, x, k, -, h⟩ := s.offer_eq d e b; rw [h]; rfl
@[simp] theorem State.offer_host (s : State) (d : Nat) (e : CairnEntry) (b : Bool) : (s.offer d e b).host = s.host := by
  obtain ⟨c, x, k, -, h⟩ := s.offer_eq d e b; rw [h]; rfl
@[simp] theorem State.offer_pending (s : State) (d : Nat) (e : CairnEntry) (b : Bool) : (s.offer d e b).pending = s.pending := by
  obtain ⟨c, x, k, -, h⟩ := s.offer_eq d e b; rw [h]; rfl

theorem State.reg_event (s : State) (die half code : Nat) (fs : List (Nat × Nat)) (a : Nat) (hc : die ≤ 8) (ha : notCairnCount a) :
    (s.event die half code fs).reg a = s.reg a := by
  unfold State.event; split
  · exact State.reg_offer _ _ _ _ _ hc ha
  · rfl
@[simp] theorem State.event_free (s : State) (die half code : Nat) (fs : List (Nat × Nat)) : (s.event die half code fs).free = s.free := by
  unfold State.event; split <;> simp
@[simp] theorem State.event_staged (s : State) (die half code : Nat) (fs : List (Nat × Nat)) : (s.event die half code fs).staged = s.staged := by
  unfold State.event; split <;> simp
@[simp] theorem State.event_delayed (s : State) (die half code : Nat) (fs : List (Nat × Nat)) : (s.event die half code fs).delayed = s.delayed := by
  unfold State.event; split <;> simp
@[simp] theorem State.event_answer (s : State) (die half code : Nat) (fs : List (Nat × Nat)) : (s.event die half code fs).answer = s.answer := by
  unfold State.event; split <;> simp
@[simp] theorem State.event_mod (s : State) (die half code : Nat) (fs : List (Nat × Nat)) : (s.event die half code fs).mod = s.mod := by
  unfold State.event; split <;> simp
@[simp] theorem State.event_rnd (s : State) (die half code : Nat) (fs : List (Nat × Nat)) : (s.event die half code fs).rnd = s.rnd := by
  unfold State.event; split <;> simp
@[simp] theorem State.event_boot (s : State) (die half code : Nat) (fs : List (Nat × Nat)) : (s.event die half code fs).boot = s.boot := by
  unfold State.event; split <;> simp
@[simp] theorem State.event_store (s : State) (die half code : Nat) (fs : List (Nat × Nat)) : (s.event die half code fs).store = s.store := by
  unfold State.event; split <;> simp
@[simp] theorem State.event_fuse (s : State) (die half code : Nat) (fs : List (Nat × Nat)) : (s.event die half code fs).fuse = s.fuse := by
  unfold State.event; split <;> simp
@[simp] theorem State.event_img (s : State) (die half code : Nat) (fs : List (Nat × Nat)) : (s.event die half code fs).img = s.img := by
  unfold State.event; split <;> simp
@[simp] theorem State.event_jobs (s : State) (die half code : Nat) (fs : List (Nat × Nat)) : (s.event die half code fs).jobs = s.jobs := by
  unfold State.event; split <;> simp
@[simp] theorem State.event_pwr (s : State) (die half code : Nat) (fs : List (Nat × Nat)) : (s.event die half code fs).pwr = s.pwr := by
  unfold State.event; split <;> simp
@[simp] theorem State.event_flt (s : State) (die half code : Nat) (fs : List (Nat × Nat)) : (s.event die half code fs).flt = s.flt := by
  unfold State.event; split <;> simp
@[simp] theorem State.event_cor (s : State) (die half code : Nat) (fs : List (Nat × Nat)) : (s.event die half code fs).cor = s.cor := by
  unfold State.event; split <;> simp
@[simp] theorem State.event_mem (s : State) (die half code : Nat) (fs : List (Nat × Nat)) : (s.event die half code fs).mem = s.mem := by
  unfold State.event; split <;> simp
@[simp] theorem State.event_hst (s : State) (die half code : Nat) (fs : List (Nat × Nat)) : (s.event die half code fs).hst = s.hst := by
  unfold State.event; split <;> simp
@[simp] theorem State.event_rng (s : State) (die half code : Nat) (fs : List (Nat × Nat)) : (s.event die half code fs).rng = s.rng := by
  unfold State.event; split <;> simp
@[simp] theorem State.event_seq (s : State) (die half code : Nat) (fs : List (Nat × Nat)) : (s.event die half code fs).seq = s.seq := by
  unfold State.event; split <;> simp
@[simp] theorem State.event_trn (s : State) (die half code : Nat) (fs : List (Nat × Nat)) : (s.event die half code fs).trn = s.trn := by
  unfold State.event; split <;> simp
@[simp] theorem State.event_ser (s : State) (die half code : Nat) (fs : List (Nat × Nat)) : (s.event die half code fs).ser = s.ser := by
  unfold State.event; split <;> simp
@[simp] theorem State.event_arr (s : State) (die half code : Nat) (fs : List (Nat × Nat)) : (s.event die half code fs).arr = s.arr := by
  unfold State.event; split <;> simp
@[simp] theorem State.event_cols (s : State) (die half code : Nat) (fs : List (Nat × Nat)) : (s.event die half code fs).cols = s.cols := by
  unfold State.event; split <;> simp
@[simp] theorem State.event_hbm (s : State) (die half code : Nat) (fs : List (Nat × Nat)) : (s.event die half code fs).hbm = s.hbm := by
  unfold State.event; split <;> simp
@[simp] theorem State.event_host (s : State) (die half code : Nat) (fs : List (Nat × Nat)) : (s.event die half code fs).host = s.host := by
  unfold State.event; split <;> simp
@[simp] theorem State.event_pending (s : State) (die half code : Nat) (fs : List (Nat × Nat)) : (s.event die half code fs).pending = s.pending := by
  unfold State.event; split <;> simp

theorem State.reg_hubEvent (s : State) (code : Nat) (fs : List (Nat × Nat)) (a : Nat) (ha : notCairnCount a) :
    (s.hubEvent code fs).reg a = s.reg a := by
  unfold State.hubEvent State.event; split
  · exact State.reg_offer _ _ _ _ _ (by omega) ha
  · rfl
@[simp] theorem State.hubEvent_free (s : State) (code : Nat) (fs : List (Nat × Nat)) : (s.hubEvent code fs).free = s.free := by
  unfold State.hubEvent State.event; split <;> simp
@[simp] theorem State.hubEvent_staged (s : State) (code : Nat) (fs : List (Nat × Nat)) : (s.hubEvent code fs).staged = s.staged := by
  unfold State.hubEvent State.event; split <;> simp
@[simp] theorem State.hubEvent_delayed (s : State) (code : Nat) (fs : List (Nat × Nat)) : (s.hubEvent code fs).delayed = s.delayed := by
  unfold State.hubEvent State.event; split <;> simp
@[simp] theorem State.hubEvent_answer (s : State) (code : Nat) (fs : List (Nat × Nat)) : (s.hubEvent code fs).answer = s.answer := by
  unfold State.hubEvent State.event; split <;> simp
@[simp] theorem State.hubEvent_mod (s : State) (code : Nat) (fs : List (Nat × Nat)) : (s.hubEvent code fs).mod = s.mod := by
  unfold State.hubEvent State.event; split <;> simp
@[simp] theorem State.hubEvent_rnd (s : State) (code : Nat) (fs : List (Nat × Nat)) : (s.hubEvent code fs).rnd = s.rnd := by
  unfold State.hubEvent State.event; split <;> simp
@[simp] theorem State.hubEvent_boot (s : State) (code : Nat) (fs : List (Nat × Nat)) : (s.hubEvent code fs).boot = s.boot := by
  unfold State.hubEvent State.event; split <;> simp
@[simp] theorem State.hubEvent_store (s : State) (code : Nat) (fs : List (Nat × Nat)) : (s.hubEvent code fs).store = s.store := by
  unfold State.hubEvent State.event; split <;> simp
@[simp] theorem State.hubEvent_fuse (s : State) (code : Nat) (fs : List (Nat × Nat)) : (s.hubEvent code fs).fuse = s.fuse := by
  unfold State.hubEvent State.event; split <;> simp
@[simp] theorem State.hubEvent_img (s : State) (code : Nat) (fs : List (Nat × Nat)) : (s.hubEvent code fs).img = s.img := by
  unfold State.hubEvent State.event; split <;> simp
@[simp] theorem State.hubEvent_jobs (s : State) (code : Nat) (fs : List (Nat × Nat)) : (s.hubEvent code fs).jobs = s.jobs := by
  unfold State.hubEvent State.event; split <;> simp
@[simp] theorem State.hubEvent_pwr (s : State) (code : Nat) (fs : List (Nat × Nat)) : (s.hubEvent code fs).pwr = s.pwr := by
  unfold State.hubEvent State.event; split <;> simp
@[simp] theorem State.hubEvent_flt (s : State) (code : Nat) (fs : List (Nat × Nat)) : (s.hubEvent code fs).flt = s.flt := by
  unfold State.hubEvent State.event; split <;> simp
@[simp] theorem State.hubEvent_cor (s : State) (code : Nat) (fs : List (Nat × Nat)) : (s.hubEvent code fs).cor = s.cor := by
  unfold State.hubEvent State.event; split <;> simp
@[simp] theorem State.hubEvent_mem (s : State) (code : Nat) (fs : List (Nat × Nat)) : (s.hubEvent code fs).mem = s.mem := by
  unfold State.hubEvent State.event; split <;> simp
@[simp] theorem State.hubEvent_hst (s : State) (code : Nat) (fs : List (Nat × Nat)) : (s.hubEvent code fs).hst = s.hst := by
  unfold State.hubEvent State.event; split <;> simp
@[simp] theorem State.hubEvent_rng (s : State) (code : Nat) (fs : List (Nat × Nat)) : (s.hubEvent code fs).rng = s.rng := by
  unfold State.hubEvent State.event; split <;> simp
@[simp] theorem State.hubEvent_seq (s : State) (code : Nat) (fs : List (Nat × Nat)) : (s.hubEvent code fs).seq = s.seq := by
  unfold State.hubEvent State.event; split <;> simp
@[simp] theorem State.hubEvent_trn (s : State) (code : Nat) (fs : List (Nat × Nat)) : (s.hubEvent code fs).trn = s.trn := by
  unfold State.hubEvent State.event; split <;> simp
@[simp] theorem State.hubEvent_ser (s : State) (code : Nat) (fs : List (Nat × Nat)) : (s.hubEvent code fs).ser = s.ser := by
  unfold State.hubEvent State.event; split <;> simp
@[simp] theorem State.hubEvent_arr (s : State) (code : Nat) (fs : List (Nat × Nat)) : (s.hubEvent code fs).arr = s.arr := by
  unfold State.hubEvent State.event; split <;> simp
@[simp] theorem State.hubEvent_cols (s : State) (code : Nat) (fs : List (Nat × Nat)) : (s.hubEvent code fs).cols = s.cols := by
  unfold State.hubEvent State.event; split <;> simp
@[simp] theorem State.hubEvent_hbm (s : State) (code : Nat) (fs : List (Nat × Nat)) : (s.hubEvent code fs).hbm = s.hbm := by
  unfold State.hubEvent State.event; split <;> simp
@[simp] theorem State.hubEvent_host (s : State) (code : Nat) (fs : List (Nat × Nat)) : (s.hubEvent code fs).host = s.host := by
  unfold State.hubEvent State.event; split <;> simp
@[simp] theorem State.hubEvent_pending (s : State) (code : Nat) (fs : List (Nat × Nat)) : (s.hubEvent code fs).pending = s.pending := by
  unfold State.hubEvent State.event; split <;> simp

theorem State.reg_halfEvent (s : State) (h code : Nat) (fs : List (Nat × Nat)) (a : Nat) (hc : h < 16) (ha : notCairnCount a) :
    (s.halfEvent h code fs).reg a = s.reg a := by
  unfold State.halfEvent State.event; split
  · exact State.reg_offer _ _ _ _ _ (by omega) ha
  · rfl
@[simp] theorem State.halfEvent_free (s : State) (h code : Nat) (fs : List (Nat × Nat)) : (s.halfEvent h code fs).free = s.free := by
  unfold State.halfEvent State.event; split <;> simp
@[simp] theorem State.halfEvent_staged (s : State) (h code : Nat) (fs : List (Nat × Nat)) : (s.halfEvent h code fs).staged = s.staged := by
  unfold State.halfEvent State.event; split <;> simp
@[simp] theorem State.halfEvent_delayed (s : State) (h code : Nat) (fs : List (Nat × Nat)) : (s.halfEvent h code fs).delayed = s.delayed := by
  unfold State.halfEvent State.event; split <;> simp
@[simp] theorem State.halfEvent_answer (s : State) (h code : Nat) (fs : List (Nat × Nat)) : (s.halfEvent h code fs).answer = s.answer := by
  unfold State.halfEvent State.event; split <;> simp
@[simp] theorem State.halfEvent_mod (s : State) (h code : Nat) (fs : List (Nat × Nat)) : (s.halfEvent h code fs).mod = s.mod := by
  unfold State.halfEvent State.event; split <;> simp
@[simp] theorem State.halfEvent_rnd (s : State) (h code : Nat) (fs : List (Nat × Nat)) : (s.halfEvent h code fs).rnd = s.rnd := by
  unfold State.halfEvent State.event; split <;> simp
@[simp] theorem State.halfEvent_boot (s : State) (h code : Nat) (fs : List (Nat × Nat)) : (s.halfEvent h code fs).boot = s.boot := by
  unfold State.halfEvent State.event; split <;> simp
@[simp] theorem State.halfEvent_store (s : State) (h code : Nat) (fs : List (Nat × Nat)) : (s.halfEvent h code fs).store = s.store := by
  unfold State.halfEvent State.event; split <;> simp
@[simp] theorem State.halfEvent_fuse (s : State) (h code : Nat) (fs : List (Nat × Nat)) : (s.halfEvent h code fs).fuse = s.fuse := by
  unfold State.halfEvent State.event; split <;> simp
@[simp] theorem State.halfEvent_img (s : State) (h code : Nat) (fs : List (Nat × Nat)) : (s.halfEvent h code fs).img = s.img := by
  unfold State.halfEvent State.event; split <;> simp
@[simp] theorem State.halfEvent_jobs (s : State) (h code : Nat) (fs : List (Nat × Nat)) : (s.halfEvent h code fs).jobs = s.jobs := by
  unfold State.halfEvent State.event; split <;> simp
@[simp] theorem State.halfEvent_pwr (s : State) (h code : Nat) (fs : List (Nat × Nat)) : (s.halfEvent h code fs).pwr = s.pwr := by
  unfold State.halfEvent State.event; split <;> simp
@[simp] theorem State.halfEvent_flt (s : State) (h code : Nat) (fs : List (Nat × Nat)) : (s.halfEvent h code fs).flt = s.flt := by
  unfold State.halfEvent State.event; split <;> simp
@[simp] theorem State.halfEvent_cor (s : State) (h code : Nat) (fs : List (Nat × Nat)) : (s.halfEvent h code fs).cor = s.cor := by
  unfold State.halfEvent State.event; split <;> simp
@[simp] theorem State.halfEvent_mem (s : State) (h code : Nat) (fs : List (Nat × Nat)) : (s.halfEvent h code fs).mem = s.mem := by
  unfold State.halfEvent State.event; split <;> simp
@[simp] theorem State.halfEvent_hst (s : State) (h code : Nat) (fs : List (Nat × Nat)) : (s.halfEvent h code fs).hst = s.hst := by
  unfold State.halfEvent State.event; split <;> simp
@[simp] theorem State.halfEvent_rng (s : State) (h code : Nat) (fs : List (Nat × Nat)) : (s.halfEvent h code fs).rng = s.rng := by
  unfold State.halfEvent State.event; split <;> simp
@[simp] theorem State.halfEvent_seq (s : State) (h code : Nat) (fs : List (Nat × Nat)) : (s.halfEvent h code fs).seq = s.seq := by
  unfold State.halfEvent State.event; split <;> simp
@[simp] theorem State.halfEvent_trn (s : State) (h code : Nat) (fs : List (Nat × Nat)) : (s.halfEvent h code fs).trn = s.trn := by
  unfold State.halfEvent State.event; split <;> simp
@[simp] theorem State.halfEvent_ser (s : State) (h code : Nat) (fs : List (Nat × Nat)) : (s.halfEvent h code fs).ser = s.ser := by
  unfold State.halfEvent State.event; split <;> simp
@[simp] theorem State.halfEvent_arr (s : State) (h code : Nat) (fs : List (Nat × Nat)) : (s.halfEvent h code fs).arr = s.arr := by
  unfold State.halfEvent State.event; split <;> simp
@[simp] theorem State.halfEvent_cols (s : State) (h code : Nat) (fs : List (Nat × Nat)) : (s.halfEvent h code fs).cols = s.cols := by
  unfold State.halfEvent State.event; split <;> simp
@[simp] theorem State.halfEvent_hbm (s : State) (h code : Nat) (fs : List (Nat × Nat)) : (s.halfEvent h code fs).hbm = s.hbm := by
  unfold State.halfEvent State.event; split <;> simp
@[simp] theorem State.halfEvent_host (s : State) (h code : Nat) (fs : List (Nat × Nat)) : (s.halfEvent h code fs).host = s.host := by
  unfold State.halfEvent State.event; split <;> simp
@[simp] theorem State.halfEvent_pending (s : State) (h code : Nat) (fs : List (Nat × Nat)) : (s.halfEvent h code fs).pending = s.pending := by
  unfold State.halfEvent State.event; split <;> simp

theorem State.reg_slowEvent (s : State) (code : Nat) (fs : List (Nat × Nat)) (a : Nat) (ha : notCairnCount a) :
    (s.slowEvent code fs).reg a = s.reg a := by
  unfold State.slowEvent; split
  · exact State.reg_offer _ _ _ _ _ (by omega) ha
  · rfl
@[simp] theorem State.slowEvent_free (s : State) (code : Nat) (fs : List (Nat × Nat)) : (s.slowEvent code fs).free = s.free := by
  unfold State.slowEvent; split <;> simp
@[simp] theorem State.slowEvent_staged (s : State) (code : Nat) (fs : List (Nat × Nat)) : (s.slowEvent code fs).staged = s.staged := by
  unfold State.slowEvent; split <;> simp
@[simp] theorem State.slowEvent_delayed (s : State) (code : Nat) (fs : List (Nat × Nat)) : (s.slowEvent code fs).delayed = s.delayed := by
  unfold State.slowEvent; split <;> simp
@[simp] theorem State.slowEvent_answer (s : State) (code : Nat) (fs : List (Nat × Nat)) : (s.slowEvent code fs).answer = s.answer := by
  unfold State.slowEvent; split <;> simp
@[simp] theorem State.slowEvent_mod (s : State) (code : Nat) (fs : List (Nat × Nat)) : (s.slowEvent code fs).mod = s.mod := by
  unfold State.slowEvent; split <;> simp
@[simp] theorem State.slowEvent_rnd (s : State) (code : Nat) (fs : List (Nat × Nat)) : (s.slowEvent code fs).rnd = s.rnd := by
  unfold State.slowEvent; split <;> simp
@[simp] theorem State.slowEvent_boot (s : State) (code : Nat) (fs : List (Nat × Nat)) : (s.slowEvent code fs).boot = s.boot := by
  unfold State.slowEvent; split <;> simp
@[simp] theorem State.slowEvent_store (s : State) (code : Nat) (fs : List (Nat × Nat)) : (s.slowEvent code fs).store = s.store := by
  unfold State.slowEvent; split <;> simp
@[simp] theorem State.slowEvent_fuse (s : State) (code : Nat) (fs : List (Nat × Nat)) : (s.slowEvent code fs).fuse = s.fuse := by
  unfold State.slowEvent; split <;> simp
@[simp] theorem State.slowEvent_img (s : State) (code : Nat) (fs : List (Nat × Nat)) : (s.slowEvent code fs).img = s.img := by
  unfold State.slowEvent; split <;> simp
@[simp] theorem State.slowEvent_jobs (s : State) (code : Nat) (fs : List (Nat × Nat)) : (s.slowEvent code fs).jobs = s.jobs := by
  unfold State.slowEvent; split <;> simp
@[simp] theorem State.slowEvent_pwr (s : State) (code : Nat) (fs : List (Nat × Nat)) : (s.slowEvent code fs).pwr = s.pwr := by
  unfold State.slowEvent; split <;> simp
@[simp] theorem State.slowEvent_flt (s : State) (code : Nat) (fs : List (Nat × Nat)) : (s.slowEvent code fs).flt = s.flt := by
  unfold State.slowEvent; split <;> simp
@[simp] theorem State.slowEvent_cor (s : State) (code : Nat) (fs : List (Nat × Nat)) : (s.slowEvent code fs).cor = s.cor := by
  unfold State.slowEvent; split <;> simp
@[simp] theorem State.slowEvent_mem (s : State) (code : Nat) (fs : List (Nat × Nat)) : (s.slowEvent code fs).mem = s.mem := by
  unfold State.slowEvent; split <;> simp
@[simp] theorem State.slowEvent_hst (s : State) (code : Nat) (fs : List (Nat × Nat)) : (s.slowEvent code fs).hst = s.hst := by
  unfold State.slowEvent; split <;> simp
@[simp] theorem State.slowEvent_rng (s : State) (code : Nat) (fs : List (Nat × Nat)) : (s.slowEvent code fs).rng = s.rng := by
  unfold State.slowEvent; split <;> simp
@[simp] theorem State.slowEvent_seq (s : State) (code : Nat) (fs : List (Nat × Nat)) : (s.slowEvent code fs).seq = s.seq := by
  unfold State.slowEvent; split <;> simp
@[simp] theorem State.slowEvent_trn (s : State) (code : Nat) (fs : List (Nat × Nat)) : (s.slowEvent code fs).trn = s.trn := by
  unfold State.slowEvent; split <;> simp
@[simp] theorem State.slowEvent_ser (s : State) (code : Nat) (fs : List (Nat × Nat)) : (s.slowEvent code fs).ser = s.ser := by
  unfold State.slowEvent; split <;> simp
@[simp] theorem State.slowEvent_arr (s : State) (code : Nat) (fs : List (Nat × Nat)) : (s.slowEvent code fs).arr = s.arr := by
  unfold State.slowEvent; split <;> simp
@[simp] theorem State.slowEvent_cols (s : State) (code : Nat) (fs : List (Nat × Nat)) : (s.slowEvent code fs).cols = s.cols := by
  unfold State.slowEvent; split <;> simp
@[simp] theorem State.slowEvent_hbm (s : State) (code : Nat) (fs : List (Nat × Nat)) : (s.slowEvent code fs).hbm = s.hbm := by
  unfold State.slowEvent; split <;> simp
@[simp] theorem State.slowEvent_host (s : State) (code : Nat) (fs : List (Nat × Nat)) : (s.slowEvent code fs).host = s.host := by
  unfold State.slowEvent; split <;> simp
@[simp] theorem State.slowEvent_pending (s : State) (code : Nat) (fs : List (Nat × Nat)) : (s.slowEvent code fs).pending = s.pending := by
  unfold State.slowEvent; split <;> simp

theorem State.reg_seqEvent (s : State) (d code : Nat) (fs : List (Nat × Nat)) (a : Nat) (hc : d ≤ 8) (ha : notCairnCount a) :
    (s.seqEvent d code fs).reg a = s.reg a := by
  unfold State.seqEvent; simp only; split
  · exact State.reg_offer _ _ _ _ _ hc ha
  · rfl
@[simp] theorem State.seqEvent_free (s : State) (d code : Nat) (fs : List (Nat × Nat)) : (s.seqEvent d code fs).free = s.free := by
  unfold State.seqEvent; simp only; split <;> simp
@[simp] theorem State.seqEvent_staged (s : State) (d code : Nat) (fs : List (Nat × Nat)) : (s.seqEvent d code fs).staged = s.staged := by
  unfold State.seqEvent; simp only; split <;> simp
@[simp] theorem State.seqEvent_delayed (s : State) (d code : Nat) (fs : List (Nat × Nat)) : (s.seqEvent d code fs).delayed = s.delayed := by
  unfold State.seqEvent; simp only; split <;> simp
@[simp] theorem State.seqEvent_answer (s : State) (d code : Nat) (fs : List (Nat × Nat)) : (s.seqEvent d code fs).answer = s.answer := by
  unfold State.seqEvent; simp only; split <;> simp
@[simp] theorem State.seqEvent_mod (s : State) (d code : Nat) (fs : List (Nat × Nat)) : (s.seqEvent d code fs).mod = s.mod := by
  unfold State.seqEvent; simp only; split <;> simp
@[simp] theorem State.seqEvent_rnd (s : State) (d code : Nat) (fs : List (Nat × Nat)) : (s.seqEvent d code fs).rnd = s.rnd := by
  unfold State.seqEvent; simp only; split <;> simp
@[simp] theorem State.seqEvent_boot (s : State) (d code : Nat) (fs : List (Nat × Nat)) : (s.seqEvent d code fs).boot = s.boot := by
  unfold State.seqEvent; simp only; split <;> simp
@[simp] theorem State.seqEvent_store (s : State) (d code : Nat) (fs : List (Nat × Nat)) : (s.seqEvent d code fs).store = s.store := by
  unfold State.seqEvent; simp only; split <;> simp
@[simp] theorem State.seqEvent_fuse (s : State) (d code : Nat) (fs : List (Nat × Nat)) : (s.seqEvent d code fs).fuse = s.fuse := by
  unfold State.seqEvent; simp only; split <;> simp
@[simp] theorem State.seqEvent_img (s : State) (d code : Nat) (fs : List (Nat × Nat)) : (s.seqEvent d code fs).img = s.img := by
  unfold State.seqEvent; simp only; split <;> simp
@[simp] theorem State.seqEvent_jobs (s : State) (d code : Nat) (fs : List (Nat × Nat)) : (s.seqEvent d code fs).jobs = s.jobs := by
  unfold State.seqEvent; simp only; split <;> simp
@[simp] theorem State.seqEvent_pwr (s : State) (d code : Nat) (fs : List (Nat × Nat)) : (s.seqEvent d code fs).pwr = s.pwr := by
  unfold State.seqEvent; simp only; split <;> simp
@[simp] theorem State.seqEvent_flt (s : State) (d code : Nat) (fs : List (Nat × Nat)) : (s.seqEvent d code fs).flt = s.flt := by
  unfold State.seqEvent; simp only; split <;> simp
@[simp] theorem State.seqEvent_cor (s : State) (d code : Nat) (fs : List (Nat × Nat)) : (s.seqEvent d code fs).cor = s.cor := by
  unfold State.seqEvent; simp only; split <;> simp
@[simp] theorem State.seqEvent_mem (s : State) (d code : Nat) (fs : List (Nat × Nat)) : (s.seqEvent d code fs).mem = s.mem := by
  unfold State.seqEvent; simp only; split <;> simp
@[simp] theorem State.seqEvent_hst (s : State) (d code : Nat) (fs : List (Nat × Nat)) : (s.seqEvent d code fs).hst = s.hst := by
  unfold State.seqEvent; simp only; split <;> simp
@[simp] theorem State.seqEvent_rng (s : State) (d code : Nat) (fs : List (Nat × Nat)) : (s.seqEvent d code fs).rng = s.rng := by
  unfold State.seqEvent; simp only; split <;> simp
@[simp] theorem State.seqEvent_seq (s : State) (d code : Nat) (fs : List (Nat × Nat)) : (s.seqEvent d code fs).seq = s.seq := by
  unfold State.seqEvent; simp only; split <;> simp
@[simp] theorem State.seqEvent_trn (s : State) (d code : Nat) (fs : List (Nat × Nat)) : (s.seqEvent d code fs).trn = s.trn := by
  unfold State.seqEvent; simp only; split <;> simp
@[simp] theorem State.seqEvent_ser (s : State) (d code : Nat) (fs : List (Nat × Nat)) : (s.seqEvent d code fs).ser = s.ser := by
  unfold State.seqEvent; simp only; split <;> simp
@[simp] theorem State.seqEvent_arr (s : State) (d code : Nat) (fs : List (Nat × Nat)) : (s.seqEvent d code fs).arr = s.arr := by
  unfold State.seqEvent; simp only; split <;> simp
@[simp] theorem State.seqEvent_cols (s : State) (d code : Nat) (fs : List (Nat × Nat)) : (s.seqEvent d code fs).cols = s.cols := by
  unfold State.seqEvent; simp only; split <;> simp
@[simp] theorem State.seqEvent_hbm (s : State) (d code : Nat) (fs : List (Nat × Nat)) : (s.seqEvent d code fs).hbm = s.hbm := by
  unfold State.seqEvent; simp only; split <;> simp
@[simp] theorem State.seqEvent_host (s : State) (d code : Nat) (fs : List (Nat × Nat)) : (s.seqEvent d code fs).host = s.host := by
  unfold State.seqEvent; simp only; split <;> simp
@[simp] theorem State.seqEvent_pending (s : State) (d code : Nat) (fs : List (Nat × Nat)) : (s.seqEvent d code fs).pending = s.pending := by
  unfold State.seqEvent; simp only; split <;> simp

/-! ### A freeze and a notice -/

/-- All that a freeze does: the cairns, the store (mark and magic) and the register file. -/
theorem State.freeze_eq (s : State) (i code : Nat) :
    ∃ r c st, s.freeze i code = { s with regs := r, crn := c, store := st } := by
  unfold State.freeze
  split
  · exact ⟨_, _, _, rfl⟩
  · unfold State.slowEvent
    simp only
    split
    · obtain ⟨c, x, k, -, h⟩ := s.offer_eq 8 (s.entry 8 0 0x1101 0 false [(1, i), (2, code)]) true
      rw [h]; exact ⟨_, _, _, rfl⟩
    · exact ⟨_, _, _, rfl⟩

@[simp] theorem State.freeze_free (s : State) (i code : Nat) : (s.freeze i code).free = s.free := by
  obtain ⟨r, c, st, h⟩ := s.freeze_eq i code; rw [h]
@[simp] theorem State.freeze_staged (s : State) (i code : Nat) : (s.freeze i code).staged = s.staged := by
  obtain ⟨r, c, st, h⟩ := s.freeze_eq i code; rw [h]
@[simp] theorem State.freeze_delayed (s : State) (i code : Nat) : (s.freeze i code).delayed = s.delayed := by
  obtain ⟨r, c, st, h⟩ := s.freeze_eq i code; rw [h]
@[simp] theorem State.freeze_answer (s : State) (i code : Nat) : (s.freeze i code).answer = s.answer := by
  obtain ⟨r, c, st, h⟩ := s.freeze_eq i code; rw [h]
@[simp] theorem State.freeze_mod (s : State) (i code : Nat) : (s.freeze i code).mod = s.mod := by
  obtain ⟨r, c, st, h⟩ := s.freeze_eq i code; rw [h]
@[simp] theorem State.freeze_rnd (s : State) (i code : Nat) : (s.freeze i code).rnd = s.rnd := by
  obtain ⟨r, c, st, h⟩ := s.freeze_eq i code; rw [h]
@[simp] theorem State.freeze_boot (s : State) (i code : Nat) : (s.freeze i code).boot = s.boot := by
  obtain ⟨r, c, st, h⟩ := s.freeze_eq i code; rw [h]
@[simp] theorem State.freeze_fuse (s : State) (i code : Nat) : (s.freeze i code).fuse = s.fuse := by
  obtain ⟨r, c, st, h⟩ := s.freeze_eq i code; rw [h]
@[simp] theorem State.freeze_img (s : State) (i code : Nat) : (s.freeze i code).img = s.img := by
  obtain ⟨r, c, st, h⟩ := s.freeze_eq i code; rw [h]
@[simp] theorem State.freeze_jobs (s : State) (i code : Nat) : (s.freeze i code).jobs = s.jobs := by
  obtain ⟨r, c, st, h⟩ := s.freeze_eq i code; rw [h]
@[simp] theorem State.freeze_pwr (s : State) (i code : Nat) : (s.freeze i code).pwr = s.pwr := by
  obtain ⟨r, c, st, h⟩ := s.freeze_eq i code; rw [h]
@[simp] theorem State.freeze_flt (s : State) (i code : Nat) : (s.freeze i code).flt = s.flt := by
  obtain ⟨r, c, st, h⟩ := s.freeze_eq i code; rw [h]
@[simp] theorem State.freeze_cor (s : State) (i code : Nat) : (s.freeze i code).cor = s.cor := by
  obtain ⟨r, c, st, h⟩ := s.freeze_eq i code; rw [h]
@[simp] theorem State.freeze_mem (s : State) (i code : Nat) : (s.freeze i code).mem = s.mem := by
  obtain ⟨r, c, st, h⟩ := s.freeze_eq i code; rw [h]
@[simp] theorem State.freeze_hst (s : State) (i code : Nat) : (s.freeze i code).hst = s.hst := by
  obtain ⟨r, c, st, h⟩ := s.freeze_eq i code; rw [h]
@[simp] theorem State.freeze_rng (s : State) (i code : Nat) : (s.freeze i code).rng = s.rng := by
  obtain ⟨r, c, st, h⟩ := s.freeze_eq i code; rw [h]
@[simp] theorem State.freeze_seq (s : State) (i code : Nat) : (s.freeze i code).seq = s.seq := by
  obtain ⟨r, c, st, h⟩ := s.freeze_eq i code; rw [h]
@[simp] theorem State.freeze_trn (s : State) (i code : Nat) : (s.freeze i code).trn = s.trn := by
  obtain ⟨r, c, st, h⟩ := s.freeze_eq i code; rw [h]
@[simp] theorem State.freeze_ser (s : State) (i code : Nat) : (s.freeze i code).ser = s.ser := by
  obtain ⟨r, c, st, h⟩ := s.freeze_eq i code; rw [h]
@[simp] theorem State.freeze_arr (s : State) (i code : Nat) : (s.freeze i code).arr = s.arr := by
  obtain ⟨r, c, st, h⟩ := s.freeze_eq i code; rw [h]
@[simp] theorem State.freeze_cols (s : State) (i code : Nat) : (s.freeze i code).cols = s.cols := by
  obtain ⟨r, c, st, h⟩ := s.freeze_eq i code; rw [h]
@[simp] theorem State.freeze_hbm (s : State) (i code : Nat) : (s.freeze i code).hbm = s.hbm := by
  obtain ⟨r, c, st, h⟩ := s.freeze_eq i code; rw [h]
@[simp] theorem State.freeze_host (s : State) (i code : Nat) : (s.freeze i code).host = s.host := by
  obtain ⟨r, c, st, h⟩ := s.freeze_eq i code; rw [h]
@[simp] theorem State.freeze_pending (s : State) (i code : Nat) : (s.freeze i code).pending = s.pending := by
  obtain ⟨r, c, st, h⟩ := s.freeze_eq i code; rw [h]
@[simp] theorem State.notice_free (s : State) (n : Notice) : (s.notice n).free = s.free := by
  unfold State.notice; simp only; split <;> split <;> simp
@[simp] theorem State.notice_staged (s : State) (n : Notice) : (s.notice n).staged = s.staged := by
  unfold State.notice; simp only; split <;> split <;> simp
@[simp] theorem State.notice_delayed (s : State) (n : Notice) : (s.notice n).delayed = s.delayed := by
  unfold State.notice; simp only; split <;> split <;> simp
@[simp] theorem State.notice_answer (s : State) (n : Notice) : (s.notice n).answer = s.answer := by
  unfold State.notice; simp only; split <;> split <;> simp
@[simp] theorem State.notice_mod (s : State) (n : Notice) : (s.notice n).mod = s.mod := by
  unfold State.notice; simp only; split <;> split <;> simp
@[simp] theorem State.notice_rnd (s : State) (n : Notice) : (s.notice n).rnd = s.rnd := by
  unfold State.notice; simp only; split <;> split <;> simp
@[simp] theorem State.notice_boot (s : State) (n : Notice) : (s.notice n).boot = s.boot := by
  unfold State.notice; simp only; split <;> split <;> simp
@[simp] theorem State.notice_fuse (s : State) (n : Notice) : (s.notice n).fuse = s.fuse := by
  unfold State.notice; simp only; split <;> split <;> simp
@[simp] theorem State.notice_img (s : State) (n : Notice) : (s.notice n).img = s.img := by
  unfold State.notice; simp only; split <;> split <;> simp
@[simp] theorem State.notice_jobs (s : State) (n : Notice) : (s.notice n).jobs = s.jobs := by
  unfold State.notice; simp only; split <;> split <;> simp
@[simp] theorem State.notice_pwr (s : State) (n : Notice) : (s.notice n).pwr = s.pwr := by
  unfold State.notice; simp only; split <;> split <;> simp
@[simp] theorem State.notice_cor (s : State) (n : Notice) : (s.notice n).cor = s.cor := by
  unfold State.notice; simp only; split <;> split <;> simp
@[simp] theorem State.notice_mem (s : State) (n : Notice) : (s.notice n).mem = s.mem := by
  unfold State.notice; simp only; split <;> split <;> simp
@[simp] theorem State.notice_hst (s : State) (n : Notice) : (s.notice n).hst = s.hst := by
  unfold State.notice; simp only; split <;> split <;> simp
@[simp] theorem State.notice_rng (s : State) (n : Notice) : (s.notice n).rng = s.rng := by
  unfold State.notice; simp only; split <;> split <;> simp
@[simp] theorem State.notice_seq (s : State) (n : Notice) : (s.notice n).seq = s.seq := by
  unfold State.notice; simp only; split <;> split <;> simp
@[simp] theorem State.notice_trn (s : State) (n : Notice) : (s.notice n).trn = s.trn := by
  unfold State.notice; simp only; split <;> split <;> simp
@[simp] theorem State.notice_ser (s : State) (n : Notice) : (s.notice n).ser = s.ser := by
  unfold State.notice; simp only; split <;> split <;> simp
@[simp] theorem State.notice_arr (s : State) (n : Notice) : (s.notice n).arr = s.arr := by
  unfold State.notice; simp only; split <;> split <;> simp
@[simp] theorem State.notice_cols (s : State) (n : Notice) : (s.notice n).cols = s.cols := by
  unfold State.notice; simp only; split <;> split <;> simp
@[simp] theorem State.notice_hbm (s : State) (n : Notice) : (s.notice n).hbm = s.hbm := by
  unfold State.notice; simp only; split <;> split <;> simp
@[simp] theorem State.notice_host (s : State) (n : Notice) : (s.notice n).host = s.host := by
  unfold State.notice; simp only; split <;> split <;> simp
@[simp] theorem State.notice_pending (s : State) (n : Notice) : (s.notice n).pending = s.pending := by
  unfold State.notice; simp only; split <;> split <;> simp

theorem State.reg_freeze (s : State) (i code a : Nat) (ha : notCairnCount a) (h : a ≠ R.crnStatus) :
    (s.freeze i code).reg a = s.reg a := by
  unfold State.freeze
  split
  · rfl
  · simp only
    rw [State.reg_setFlag_ne _ _ _ h, State.reg_setFlag_ne _ _ _ h]
    exact State.reg_slowEvent s _ _ a ha

theorem State.reg_notice (s : State) (n : Notice) (a : Nat) (hd : n.die ≤ 8) (ha : notCairnCount a)
    (h : a ≠ R.crnStatus) : (s.notice n).reg a = s.reg a := by
  have k : (if n.kind = 12 then s else s.event n.die (n.half % 2) 0x1201 [(1, n.kind), (1, n.die), (1, n.unit), (2, n.parts)]).reg a =
      s.reg a := by
    split
    · rfl
    · exact State.reg_event s _ _ _ _ a hd ha
  unfold State.notice
  simp only
  rw [← k]
  generalize (if n.kind = 12 then s else s.event n.die (n.half % 2) 0x1201 [(1, n.kind), (1, n.die), (1, n.unit), (2, n.parts)]) = u
  split
  · exact State.reg_freeze u _ _ a ha h
  · rfl

/-- A notice queues exactly one fault notice. -/
theorem State.notice_notices (s : State) (n : Notice) :
    ∃ c, (s.notice n).flt.notices = s.flt.notices ++ [{ n with cfg := c }] := by
  unfold State.notice
  simp only
  split <;> split <;> simp

end Sys2Proof.Machine
end

