-- ==== Sys2Proof/Laws/Ops.lean ====
section
/-! SUPPORT. What the shared operations do, said once: tables read after they are written, commands of units that run,
services of sequencers, delayed writes, and the front end of a thread group's instruction. -/

namespace Sys2Proof.Machine

/-! ### Tables -/

theorem State.uart_setUart (s : State) (u v : Nat) (x : Uart) : (s.setUart u x).uart v = if v = u then x else s.uart v :=
  Map.getD_set _ _ _ _ _
theorem State.stream_setStream (s : State) (k j : Nat) (x : PStream) : (s.setStream k x).stream j = if j = k then x else s.stream j :=
  Map.getD_set _ _ _ _ _
theorem State.rport_setRport (s : State) (p q : Nat) (x : RPort) : (s.setRport p x).rport q = if q = p then x else s.rport q :=
  Map.getD_set _ _ _ _ _
theorem State.chan_setChan (s : State) (c d : Nat) (x : Channel) : (s.setChan c x).chan d = if d = c then x else s.chan d :=
  Map.getD_set _ _ _ _ _
theorem State.seqSt_setSeq (s : State) (d e : Nat) (x : SeqSt) : (s.setSeq d x).seqSt e = if e = d then x else s.seqSt e :=
  Map.getD_set _ _ _ _ _
theorem State.cairn_setCairn (s : State) (d e : Nat) (x : Cairn) : (s.setCairn d x).cairn e = if e = d then x else s.cairn e :=
  Map.getD_set _ _ _ _ _
theorem State.hostDma_setHostDma (s : State) (k j : Nat) (d : HostDma) :
    (s.setHostDma k d).hostDma? j = if j = k then some d else s.hostDma? j := Map.get?_set _ _ _ _
theorem State.ringDma_setRingDma (s : State) (e j : Nat) (d : RingDma) :
    (s.setRingDma e d).ringDma? j = if j = e then some d else s.ringDma? j := Map.get?_set _ _ _ _
theorem State.msg_setMsg (s : State) (n j : Nat) (m : CohMsg) : (s.setMsg n m).msg? j = if j = n then some m else s.msg? j :=
  Map.get?_set _ _ _ _
theorem State.core_setCore (s : State) (h c h' c' : Nat) (x : Core) :
    (s.setCore h c x).core h' c' = if coreKey h' c' = coreKey h c then x else s.core h' c' := Map.getD_set _ _ _ _ _
theorem State.job_modJob (s : State) (j i : Nat) (f : Job → Job) :
    (s.modJob j f).job? i = if i = j then (s.job? i).map f else s.job? i := by
  unfold State.modJob State.job?
  rw [Map.get?_modify]
  split
  · rename_i e; rw [e]
  · rfl

@[simp] theorem State.uart_setReg (s : State) (a v u : Nat) : (s.setReg a v).uart u = s.uart u := rfl
@[simp] theorem State.stream_setReg (s : State) (a v k : Nat) : (s.setReg a v).stream k = s.stream k := rfl
@[simp] theorem State.rport_setReg (s : State) (a v p : Nat) : (s.setReg a v).rport p = s.rport p := rfl
@[simp] theorem State.chan_setReg (s : State) (a v c : Nat) : (s.setReg a v).chan c = s.chan c := rfl
@[simp] theorem State.seqSt_setReg (s : State) (a v d : Nat) : (s.setReg a v).seqSt d = s.seqSt d := rfl
@[simp] theorem State.job_setReg (s : State) (a v j : Nat) : (s.setReg a v).job? j = s.job? j := rfl
@[simp] theorem State.group_setReg (s : State) (a v : Nat) (g : GroupRef) : (s.setReg a v).group? g = s.group? g := rfl
@[simp] theorem State.reg_setUart (s : State) (u : Nat) (x : Uart) (a : Nat) : (s.setUart u x).reg a = s.reg a := rfl
@[simp] theorem State.reg_setStream (s : State) (k : Nat) (x : PStream) (a : Nat) : (s.setStream k x).reg a = s.reg a := rfl
@[simp] theorem State.reg_setRport (s : State) (p : Nat) (x : RPort) (a : Nat) : (s.setRport p x).reg a = s.reg a := rfl
@[simp] theorem State.reg_setChan (s : State) (c : Nat) (x : Channel) (a : Nat) : (s.setChan c x).reg a = s.reg a := rfl
@[simp] theorem State.reg_setSeq (s : State) (d : Nat) (x : SeqSt) (a : Nat) : (s.setSeq d x).reg a = s.reg a := rfl
@[simp] theorem State.reg_setGroup (s : State) (g : GroupRef) (x : Group) (a : Nat) : (s.setGroup g x).reg a = s.reg a := rfl

/-- Cores of numbers below 128 have keys of their own. -/
theorem coreKey_inj {h c h' c' : Nat} (hc : c < 128) (hc' : c' < 128) (e : coreKey h c = coreKey h' c') : h = h' ∧ c = c' := by
  unfold coreKey at e; omega

@[simp] theorem State.group_setGroup_self (s : State) (g : GroupRef) (x : Group) : (s.setGroup g x).group? g = some x := by
  unfold State.group? State.setGroup
  simp [State.core_setCore]

theorem State.group_setGroup_ne (s : State) (g h : GroupRef) (x : Group) (hg : g.core < 128) (hh : h.core < 128) (n : h ≠ g) :
    (s.setGroup g x).group? h = s.group? h := by
  unfold State.group? State.setGroup
  simp only [State.core_setCore]
  split
  · rename_i e
    have k := coreKey_inj hh hg e
    have : h.slot ≠ g.slot := by
      intro q
      apply n
      cases h; cases g
      simp_all
    rw [Map.get?_set_ne _ _ this, k.1, k.2]
  · rfl

/-! ### Units and sequencers that run -/

theorem State.whenRun_eq {s : State} (h : s.unitsRun = true) (f : State → State) : s.whenRun f = f s := by simp [State.whenRun, h]
theorem State.whenRun_halted {s : State} (h : s.unitsRun = false) (f : State → State) : s.whenRun f = s := by simp [State.whenRun, h]
theorem State.whenSeq_eq {s : State} {d : Nat} (h : s.unitsRun = true) (h' : s.seqRuns d = true) (f : State → State) :
    s.whenSeq d f = f s := by simp [State.whenSeq, h, h']
/-- A service at a boundary is a command of its own (R664). -/
theorem State.serve_boundary {s : State} {d r : Nat} (h : s.seqGoes d = true) (h0 : s.seqPhase d = 0) (ht : s.topEvent d = r)
    (f : State → State) : s.serve d r f = f ((s.beginCmd d [] r).endCmd d) := by
  simp [State.serve, State.mayServe, h, h0, ht]
/-- The service that runs goes on. -/
theorem State.serve_running {s : State} {d r : Nat} (h : s.seqGoes d = true) (h0 : s.seqPhase d ≠ 0)
    (ht : (s.seqSt d).serving = r) (f : State → State) : s.serve d r f = f s := by
  simp [State.serve, State.mayServe, h, h0, ht]

/-! ### Writes that wait for a round boundary (R40, R918) -/

theorem State.later_running {s : State} (h : s.rnd.running = true) (a v : Nat) :
    s.later a v = { s with delayed := s.delayed ++ [(a, BitVec.ofNat 32 v)] } := by simp [State.later, h]
theorem State.later_stopped {s : State} (h : s.rnd.running = false) (a v : Nat) : s.later a v = s.applyWrite a v := by
  simp [State.later, h]

/-! ### The front end of an instruction (R284, R296 to R299) -/

theorem Group.pop_self (n : Nat) (x : Group) (hm : x.mask ≠ 0) (h : x.stack = [] ∨ x.pc ≠ x.rpc) : Group.pop n x = x := by
  cases n with
  | zero => rfl
  | succ n =>
    unfold Group.pop
    rcases h with h | h
    · rw [h]
    · split <;> simp [h, hm]

/-- An instruction that issues has its own effect, `k`, on the group with its destination rows saved. -/
theorem State.issue_eq {s : State} {g : GroupRef} {f : CoreFields} {p : OpSpec} {x : Group} {b : Blk} (h : s.issues g f p x b)
    (addr : List Nat) (ha : p.load = true → x.addrPending f addr = false) (k : State → Blk → Group → State) :
    s.issue g f p addr k = k (s.spendStep g) b
      (if x.unconf.isEmpty then x else { x with savedRows := x.savedRows ++ (p.d.regList f.d).filter fun r => !x.savedRows.contains r }) := by
  obtain ⟨⟨-, -, hm, hg, hb, hw, hk, hs, hc, hr⟩, ⟨hp, hl⟩, hleg, hin⟩ := h
  have e := Group.pop_self 33 x hk hs
  have hcom : (p.commit && !x.unconf.isEmpty) = false := by
    cases hq : p.commit with
    | false => rfl
    | true => simp [hc hq]
  have hload : (p.load && x.addrPending f addr) = false := by
    cases hq : p.load with
    | false => rfl
    | true => simp [ha hq]
  have hrows : (!x.unconf.isEmpty && decide (512 < (((s.spendStep g).core g.half g.core).groups.map fun q => q.2.savedRows.length).sum +
      ((p.d.regList f.d).filter fun r => !x.savedRows.contains r).length)) = false := by
    rcases hr with hr | hr
    · simp [hr]
    · have : decide (512 < (((s.spendStep g).core g.half g.core).groups.map fun q => q.2.savedRows.length).sum +
          ((p.d.regList f.d).filter fun r => !x.savedRows.contains r).length) = false := by
        simp only [decide_eq_false_iff_not, Nat.not_lt]
        exact hr
      rw [this, Bool.and_false]
  have hpc : (x.pc % 8 != 0 || decide (b.kernelLen ≤ x.pc)) = false := by simp [hp]; omega
  unfold State.issue
  simp only [hm, hg, e, hw, hb, hcom, hload, hleg, Bool.not_true, Bool.false_eq_true, if_false, bne_self_eq_false]
  rw [if_neg (by simpa using hk), if_neg (by simpa using hrows)]
  have a1 : ∀ (y : Group), y.pc = x.pc → y.regsPer = x.regsPer →
      (if (y.pc % 8 != 0 || decide (b.kernelLen ≤ y.pc)) = true then (s.spendStep g).raise g y 4 0 y.mask
        else if (!p.inRange f y.regsPer) = true then (s.spendStep g).raise g y 2 0 (maskOf (x.acting f)) else k (s.spendStep g) b y) =
      k (s.spendStep g) b y := by
    intro y h1 h2
    rw [h1, h2, hpc, hin]
    simp
  split
  · exact a1 _ rfl rfl
  · exact a1 _ rfl rfl

/-- A per-lane instruction that issues writes its registers and goes on, its destination pending under R315. -/
theorem State.perLane_eq {s : State} {g : GroupRef} {f : CoreFields} {p : OpSpec} {x : Group} {b : Blk} (h : s.issues g f p x b)
    (ha : p.load = false) (hu : x.unconf = []) (k : Nat) (fn : Group → Nat → Nat) :
    s.perLane g f p k fn = (s.spendStep g).setGroup g
      (((x.acting f).foldl (fun y l => y.setRegs l f.d (fn x l) k) x).step p f (x.readsPending p f)) := by
  unfold State.perLane
  rw [State.issue_eq h [] (by simp [ha])]
  simp [hu]

end Sys2Proof.Machine
end

