-- ==== Sys2Proof/Tests/Slice0.lean ====
section
/-! SUPPORT. Small tests: states that meet the hypotheses of every statement, ill-formed commands that the check
refuses, and values worked out from the manual by hand. -/

namespace Sys2Proof.Tests

open Sys2Proof Sys2Proof.Machine

/-- A HX8 in Run with its beacon running, P0 to P7 up, and the PFs of both ports enabled. -/
def hostUp : State :=
  { (({ State.reset with
        mod := { State.reset.mod with power := .run },
        rnd := { State.reset.rnd with running := true },
        hst := { State.reset.hst with funcs := [(0, { enabled := true, msix := true, table := [], pend := [] }),
          (64, { enabled := true, msix := true, table := [], pend := [] })] } } : State).setReg R.glbPeakState 0x44444444).setReg
      (R.seqState 8) 0 with answer := 0 }

/-- A message of open traffic. -/
def openMsg : HopMsg :=
  { lane := .openTraffic, part := 0, cls := 0, drain := .request, bytes := 64, epoch := 0, booked := 0, engine := 0, chan := 0 }

/-- A floor read waits at the gate of half 3. -/
def atGateState : State :=
  { hostUp with rnd := { hostUp.rnd with gateWait := [(3, [0])] }, mem := { hostUp.mem with net := [(0, CohMsg.mk0 .rdNC (.core 400) (.home 0) 5)] } }

/-- Ten samples of J1 below uv_trip have been taken. -/
def lowJ1 : State := { hostUp with mod := { hostUp.mod with uvTripRun := 10 } }

/-- Off, with J1 at its level for 10 ms. -/
def offState : State := { State.reset with mod := { State.reset.mod with power := .off, coldRun := 10001 } }

/-- A snapshot is being written. -/
def snapping : State :=
  { hostUp with crn := { hostUp.crn with snap := some { slot := 0, number := 1, code := 0x1101, triggers := 1, round := 0, us := 0 } } }

/-- A departure stands. -/
def departing (c : DepartCause) : State := { hostUp with rng := { hostUp.rng with departing := some c, departDone := true } }

/-- Ready, with FLOW_OK high. -/
def readyState : State := { hostUp with mod := { hostUp.mod with power := .ready, flowOk := true } }

/-- Run, a Ready request made. -/
def wantReady : State := { hostUp with mod := { hostUp.mod with readyReq := true } }

/-- The store window at an address. -/
def stagingAt (a : Nat) : State := State.reset.setFld R.glbStoreAddr 25 2 (a / 4)

/-- A draw waits in half 15, whose share covers it. -/
def waitingDraw : State :=
  (({ hostUp with pwr := { hostUp.pwr with draws := [(15, [{ unit := 3, pips := 40, st := .waiting, since := 0 }])] } } : State).setFld
    (R.govShare 15) 11 0 40)

/-- A host DMA engine waits for pool leave. -/
def waitingPool : State :=
  (({ hostUp with pwr := { hostUp.pwr with pool := [{ user := .hostDma 0, pips := 4, granted := false }] } } : State).setFld
    R.pwrPool 11 0 4)

/-- A flow dry stop that has lasted 2 s. -/
def drying (ending : Bool) : State :=
  { hostUp with
    mod := { hostUp.mod with islandUs := 2000000, perst := false },
    pwr := { hostUp.pwr with dry := some (.flow, 0), dryEnding := ending, halted := true } }

/-- Ready, the stack of P7 active and idle for 1 ms. -/
def idleStack : State :=
  ({ hostUp with mod := { hostUp.mod with power := .ready, islandUs := 1000 } } : State).setFld (R.ucHbmState 7) 1 0 1


/-- Standby, with what a boot needs. -/
def mayBootState : State := { State.reset with mod := { State.reset.mod with perst := false, flowOk := true } }

/-- A boot in a step, with GLB_BOOT_CTL as read. -/
def booting (step ctl : Nat) : State :=
  ({ State.reset with boot := { State.reset.boot with running := true, ctl := ctl } } : State).setFld R.glbBootStatus 3 0 step

/-- A boot in which peak `p` stands in a state after some power-ons. -/
def peakTry (p st tries : Nat) : State :=
  ({ booting 3 0 with boot := { (booting 3 0).boot with attempts := [(p, tries)] } } : State).setPeakSt p st

/-- A reset by GLB_RESET in progress. -/
def resetting (kind target : Nat) (done : Bool) : State :=
  { hostUp with boot := { hostUp.boot with active := [{ kind := kind, target := target, port := 0, cause := 2, done := done }] } }

/-- Port 1 with a PF and VF 5. -/
def withVf : State :=
  { hostUp with hst := { hostUp.hst with funcs := [(64, { enabled := true, msix := true, table := [], pend := [] }),
    (69, { enabled := true, msix := true, table := [], pend := [] })] } }

/-- A promotion under way. -/
def promoting (kind : Nat) (r : Option Nat) : State :=
  { hostUp with store := { hostUp.store with promo := some { kind := kind, index := 0, slot := 0, result := r } } }

/-- A load of an empty store slot is under way. -/
def loading : State := { hostUp with img := { hostUp.img with load := some { fromStore := true, index := 9, addr := 0 } } }

/-- An image with no partition that asks for a microcode level. -/
def emptyImage (level : Nat) : Image :=
  { version := 1, id := 0, parts := [], streams := [], regions := [], maxCount := false, ucodeLevel := level, profiles := [],
    sigKind := 0, sigOk := false, turnSet := 15 }

/-- It is pending. -/
def pendingImage (level : Nat) : State := { hostUp with img := { hostUp.img with pending := some (emptyImage level) } }

/-- A swap not yet scheduled. -/
def noSwap : Swap :=
  { start := 0, changed := 0, acked := 0, mustAck := 0, live := false, opened := 0, cleansed := false, cleansedPeaks := 0,
    cleanseAt := 0, cut := false }

/-- An image is committed, another pending, and a swap stands between them. -/
def swapping (w : Swap) : State :=
  { hostUp with
    rnd := { hostUp.rnd with round := 1 },
    img := { hostUp.img with committed := some (emptyImage 0), pending := some (emptyImage 0), swap := some w } }

/-- The sequencer of P7 serves the epoch mark. -/
def servingMark : State :=
  ({ hostUp with
    img := { hostUp.img with swap := some { noSwap with start := 4, mustAck := 128 } },
    seq := { hostUp.seq with seqs := [(7, { SeqSt.empty with serving := 2 })] } } : State).setFld (R.seqState 7) 15 13 1

/-- Partition 15 with half P7.B. -/
def part15 : PartRec := { part := 15, halves := [15], budget := 100, digest := 0 }

/-- An image with that partition. -/
def onePart : Image := { emptyImage 0 with parts := [part15] }

/-- A live swap in which partition 15 may open; PWR_STATE shows its limit. -/
def openable : State :=
  (({ swapping { noSwap with start := 1, live := true } with
      img := { committed := some (emptyImage 0), pending := some onePart, firstCommit := false, load := none,
               swap := some { noSwap with start := 1, live := true }, absent := 0 } } : State).setFld R.pwrState 11 0 2800).setFld
    R.imgShiftCfg 31 10 1

/-- A swap that has lasted its max_rounds. -/
def swapLong : State := { openable with rnd := { openable.rnd with round := 2 } }

/-- A group of the full mask at pc 8 of its block; lane 0 has x5 = 7 and x6 = 0x80000000. -/
def grp : Group :=
  { regsPer := 16, regs := [(5, 7), (6, 0x80000000)], preds := [(0, 3)], pc := 8, mask := 0xFFFFFFFF, rpc := noRpc, stack := [], exited := 0,
    gprog := [], block := 2, gidx := 0, wait := .ready, memop := none, trap := none, pendRegs := [], pendPreds := [], pathPending := false,
    unconf := [], ckpt := none, savedRows := [], window := [], replay := [], tilesOut := 0, storesOut := 0, order := 0, faultRound := 0,
    faultTimeout := 0 }

/-- Its block, in partition 15 of half P7.B. -/
def blk0 : Blk :=
  { job := 0, part := 15, phase := 0, lhalf := 0, pcore := 5, tidx := 0, gcnt := 1, param := 0, argBase := 0, argLen := 0, kernel := 0,
    kernelLen := 64, window := 256, ls := [], ring := false, sys := false, shadow := false, fpTrap := 0, brkHalt := false, arrived := [] }

/-- Where it stands. -/
def gref : GroupRef := { half := 15, core := 5, slot := 2 }

/-- The state in which that group is resident. -/
def onBlock (x : Group) (b : Blk) : State :=
  { hostUp with cor := { hostUp.cor with cores := [(coreKey 15 5, { groups := [(2, x)], blocks := [(2, b)], constLines := [], descLines := [] })] } }
def onGroup (x : Group) : State := onBlock x blk0

/-- The words of a short R-format instruction. -/
def words (m d a b c : Nat) : CoreFields :=
  { long := false, pred := 7, neg := false, d := d, a := a, b := b, c := c, mod := m, imm := 0, w1 := 0 }

/-- x4 = x5 + 0xFFFFFFFF, and x4 = a 64-bit immediate. -/
def longAdd : CoreFields := { words 0 4 5 0 0 with long := true, w1 := 0xFFFFFFFF }
def longMov : CoreFields := { words 1 4 0 0 0 with long := true, w1 := 2 ^ 63 }

/-- The words of a branch under predicate p, with target 32 and reconvergence point 48. -/
def branch (p a : Nat) : CoreFields :=
  { words 0 0 a 0 0 with long := true, pred := p, w1 := 48 * 2 ^ 32 + (if a = 0 then 32 else 0) }

/-- A group with a full divergence stack. -/
def deepGroup : Group := { grp with stack := List.replicate 32 (1, 16, 24) }

/-- Line 0 in the L1 of the group's core, and in its constant cache; the stack of P0 serves. -/
def lineOf (st : L1St) : L1Line :=
  { line := 0, st := st, left := .i, valid := 15, dirty := 0, data := 9, filling := false, hold := false, deferred := [] }
def withLine (st : L1St) (x : Group) : State :=
  (({ onGroup x with
      cor := { hostUp.cor with cores := [(coreKey 15 5, { groups := [(2, x)], blocks := [(2, blk0)], constLines := [(0, 9)], descLines := [] })] },
      mem := { hostUp.mem with l1 := [(coreKey 15 5, { L1.empty with lines := [lineOf st] })] } } : State).setReg (R.corMap 15 1) 0x07060504).setFld
    (R.ucHbmState 0) 1 0 1

/-- LD of 16 bytes from 0x80 on, in the long form. -/
def farLoad : CoreFields := { words 6 4 8 0 0 with long := true, w1 := 0x80 }

/-- The group has raised USER; it stands in partition 15. -/
def trapGroup : Group := { grp with wait := .trap, trap := some { code := 11, user := 2047, lanes := 1, turn := 5 } }
def inPart15 (x : Group) : State := { onGroup x with img := { hostUp.img with committed := some onePart } }
def trapState : State := inPart15 trapGroup

/-- The group is stopped on a window miss, not yet (0) or already (1) reported. -/
def faultPiece : Piece := { lane := 31, elem := 0, addr := 0x800000000000, len := 4, val := 0, cmp := 0, st := .fault 1 }
def faultOp : MemOp :=
  { kind := .ld, d := 4, len := 8, width := 4, sext := false, cop := 0, atHome := false, atomOp := 0, uns := false, n := 1, mark := false,
    tag := 1, pieces := [faultPiece] }
def faultGroup (k : Nat) : Group := { grp with wait := .fault 1, memop := some faultOp, faultRound := k, faultTimeout := k }
def faultState (k : Nat) : State := inPart15 (faultGroup k)

/-- The group has one unconfirmed load, whose answer has come. -/
def shadowGroup : Group :=
  { grp with
    unconf := [9], pendRegs := [4], window := [{ line := 3, mask := 1, conf := 7, data := none, lost := false, taken := false }],
    ckpt := some { regs := [], preds := [], pc := 0, mask := 1, rpc := noRpc, stack := [], gprog := [] } }
def shadowAnswer : CohMsg := { CohMsg.mk0 .data (.home 0) (.conf 15) 3 with mask := 1, data := 6, tag := 7 }
def shadowEntry : ConfEntry := { half := 15, line := 3, mask := 1, turn := 0, loads := [9] }
def shadowLoad : UnconfLoad := { half := 15, core := 5, slot := 2, reads := [(3 * 128, 4, 5)], waits := [7], bad := false }
def shadowState : State :=
  { onGroup shadowGroup with mem := { hostUp.mem with net := [(3, shadowAnswer)], conf := [(7, shadowEntry)], loads := [(9, shadowLoad)] } }

/-- A 1 × 1 × 32 tile of s8 into s32 at HBM addresses of P0's stack, and its submission. -/
def tileDesc : TileDesc :=
  { aAddr := 0, bAddr := 128, cAddr := 256, rAddr := 0, biasAddr := 0, saAddr := 0, sbAddr := 0, statAddr := 0, m := 1, n := 1, k := 32,
    lda := 0, ldb := 0, ldc := 0, ldr := 0, fmtA := 1, fmtB := 1, fmtC := 5, fmtR := 0, pro := 0, epi := 0, pair := 0, partner := 0,
    alpha := 0, tag := 0, rest := 0 }
def submitGroup : Group := { grp with wait := .submit, tilesOut := 1 }
def tileAsk : MxsAsk := { group := gref, addr := 0x1000, desc := some tileDesc, pc := 8, round := 0 }
def tileState : State :=
  ({ onGroup submitGroup with arr := [(15, { ArraySt.empty with asks := [tileAsk] })] } : State).setFld (R.ucHbmState 0) 1 0 1
def badTileState : State := { tileState with arr := [(15, { ArraySt.empty with asks := [{ tileAsk with desc := none }] })] }

/-- A pair of FP16 tiles on P7.B (leader) and P6.B (follower), which shares Bᵀ over B67. -/
def pairDesc (k : Nat) : TileDesc :=
  { tileDesc with
    aAddr := 0, bAddr := 128 * (1 - k), fmtA := 8, fmtB := 8, fmtC := 10, pair := 4 + 1 + k, partner := 1 - k, tag := 9, alpha := 0x3F800000 }
def pairRef : GroupRef := { half := 13, core := 5, slot := 2 }
def pairAsk (k : Nat) : MxsAsk := { group := if k = 0 then gref else pairRef, addr := 0x1000, desc := some (pairDesc k), pc := 8, round := 0 }
def pairImage : Image :=
  { emptyImage 0 with
    parts := [{ part15 with halves := [15, 13] }], streams := [{ col := 5, channel := 0, engine := 3, part := 15 }] }
def pairState : State :=
  { tileState with
    cor := { hostUp.cor with cores := [(coreKey 13 5, { groups := [(2, submitGroup)], blocks := [(2, blk0)], constLines := [], descLines := [] }),
      (coreKey 15 5, { groups := [(2, submitGroup)], blocks := [(2, blk0)], constLines := [], descLines := [] })] },
    img := { hostUp.img with committed := some pairImage },
    arr := [(13, { ArraySt.empty with asks := [pairAsk 1] }), (15, { ArraySt.empty with asks := [pairAsk 0] })] }
def waitPair : State := { pairState with rnd := { hostUp.rnd with round := 64 }, arr := [(15, { ArraySt.empty with asks := [pairAsk 0] })] }

/-- That tile queued, or running, with a share of 72 pips. -/
def tileOf (st : TileSt) (chunks : Nat) : Tile :=
  { no := 0, group := gref, addr := 0x1000, desc := tileDesc, st := st, chunks := chunks, acc := [0], mate := none, inbox := [], asked := none }
def queuedTile (st : TileSt) (chunks : Nat) : State :=
  ({ tileState with arr := [(15, { ArraySt.empty with queue := [tileOf st chunks] })] } : State).setFld (R.govShare 15) 11 0 72
def runningTile (st : TileSt) : State := { tileState with arr := [(15, { ArraySt.empty with running := [tileOf st 1] })] }

/-- A request of the core at key 677 (P2.B) for line 0, whose home is P0.A, as message 3, with some directory entries. -/
def homeMsg (kind : MsgKind) : CohMsg :=
  { CohMsg.mk0 kind (.core 677) (.home 0) 0 with mask := 3, dirty := 1, data := 77, bytes := 0xF0, tag := 4 }
def homeState (kind : MsgKind) (dir : List DirEntry) : State :=
  { hostUp with mem := { hostUp.mem with net := [(3, homeMsg kind)], nextMsg := 4, dir := if dir = [] then [] else [(0, dir)] } }
def heldBy (k : Nat) : DirEntry := { line := 0, st := .em, owner := some k, sharers := [], coarse := 0 }
def sharedBy (l : List Nat) : DirEntry := { line := 0, st := .s, owner := none, sharers := l, coarse := 0 }

/-- Transactions on line 0: an eviction, and a GetS of core 677. -/
def evictTxn (due : List Nat) : Txn := { Txn.of none 0 0 with act := .evict, invDue := due }
def getsTxn (fwd : Option Nat) : Txn := { Txn.of (some (homeMsg .getS)) 0 0 with fwdDue := fwd, doneDue := [(677, .s)] }
def ticketState : State := { hostUp with mem := { hostUp.mem with tickets := [(2, [{ no := 511, half := 4, expire := 0 }])] } }

/-- A message of the home of line 0 to the L1 of that core, which holds the line in a state. -/
def l1Msg (kind : MsgKind) : CohMsg :=
  { CohMsg.mk0 kind (.home 0) (.core 1925) 0 with mask := 3, data := 77, grant := .s, reqs := [(.core 677, 3)] }
def l1State (kind : MsgKind) (st : L1St) : State :=
  { withLine st grp with mem := { (withLine st grp).mem with net := [(3, l1Msg kind)], nextMsg := 4 } }

/-- That L1 with every wake slot taken, with the line held, and with it open and a store counted on it. -/
def noWake (s : State) : State :=
  s.setL1 1925 { s.l1 1925 with wake := List.replicate 8 { line := 0, valid := 15, data := 9 } }
def held (s : State) : State := s.putL1 1925 { lineOf .s with hold := true }
def opened : State := (l1State .doneAck .m).setL1 1925 { (l1State .doneAck .m).l1 1925 with opens := [(0, [2])] }

/-- Its group waits for a request by value that carries number 4. -/
def askOp : MemOp :=
  { kind := .ld, d := 4, len := 8, width := 4, sext := false, cop := 1, atHome := false, atomOp := 0, uns := false, n := 1, mark := false,
    tag := 4, pieces := [{ lane := 31, elem := 0, addr := 12, len := 4, val := 0, cmp := 0, st := .out }] }
def askGroup : Group := { grp with wait := .memory, memop := some askOp }
def asking : State := withLine .s askGroup

/-- Col B01 in service with groups 0 to 39 active, 42 and 43 spare and 41 retired; group 5 is due to retire. -/
def colFrame (n : Nat) : ColFrame := { seq := n, groups := 40, msgs := [], got := [], rides := [] }
def colSt : ColSt :=
  { ColSt.down with
    st := 2, active := List.range 40, spares := [42, 43], retired := [41], retraining := [41],
    marks := [{ group := 5, cause := 0, landed := some 100 }],
    d1 := { ColDir.empty with sent := [colFrame 126], held := [colFrame 128] } }
def colState : State :=
  ({ hostUp with rnd := { hostUp.rnd with round := 1 }, cols := [(0, colSt)] } : State).setReg (R.seqState 0) 0

/-- The same with no spare. -/
def thinState : State := { colState with cols := [(0, { colSt with spares := [] })] }

/-- Channel 7, whose rings lie in P0's stack, with one job item waiting; and a job of it, entry 4 of the table. -/
def entry7 : ChanEntry :=
  { enable := true, part := 15, client := 3, func := 0, port := 0, prioDefault := 1, prioMax := 3, sqAddr := 0x1000, sqLog2 := 6, cqLog2 := 6,
    vector := 0, irq := true, notices := false, cqAddr := 0x3000, headWb := 0 }
def rec7 : Rec := { bytes := List.replicate 64 0, job := some 4, quiet := false, notice := false }
def chan7 (st : ChanSt) : Channel :=
  { Channel.none with st := st, entry := some entry7, head := 8, tail := 9, nextSeq := 3, recs := if st = .active then [rec7] else [] }
def jobOf (st : JobSt) : Job := { Job.fresh 7 3 15 3 0 0 1 0 0 false 0x100 0x400 false with st := st, dispatched := st == .running, voidCond := 2 }
def chanState (st : ChanSt) : State :=
  ({ hostUp with
      rnd := { hostUp.rnd with round := 1 },
      jobs := { hostUp.jobs with channels := [(7, chan7 st)], lastRead := 0 },
      hbm := Mem.writeBytes [] 0x1200 [1, 1, 3, 0, 0xFF, 0, 0, 0, 0, 1] } : State).setFld (R.ucHbmState 0) 1 0 1 |>.setReg R.chnTblCount 16
def flushing (n : Nat) : State :=
  { chanState .flushing with jobs := { (chanState .flushing).jobs with
      channels := [(7, { chan7 .flushing with flushTail := some 8 })], jobs := if n = 0 then [] else [(4, jobOf .admitted)] } }
def changing : State :=
  { chanState .active with jobs := { (chanState .active).jobs with
      jobs := [(4, jobOf .admitted)], prioReq := some { channel := 7, seq := 3, prio := 2 } } }

/-- Partition 15's job at the table's entry 4, with a plan of one phase and one tile at its address. -/
def inPhase : Job := { jobOf .running with inPhase := true, phases := 1, drained := 128, begun := 128, shared := 128 }
def planBytes : List Nat :=
  [68, 80, 76, 78, 1, 0, 128, 0, 119] ++ List.replicate 7 0 ++ [8, 1, 0, 0, 83, 236, 251, 221] ++ List.replicate 6 0 ++
    [8, 0, 12] ++ List.replicate 7 0 ++ [128, 0, 0, 0, 1, 0, 0, 0, 176, 0, 0, 0, 6, 0, 0, 0, 176] ++ List.replicate 5 0 ++
    [1, 0, 10] ++ List.replicate 63 0 ++ [10, 0, 0, 0, 160, 0, 0, 0, 1, 0, 16, 0, 0, 1, 0, 0, 8] ++ List.replicate 7 0 ++
    [6, 0, 255, 255, 0, 1, 1, 0, 0, 0, 5, 0, 1] ++ List.replicate 99 0
def planState (x : Job) (h : Option Nat) : State :=
  (((({ chanState .active with
        rnd := { hostUp.rnd with round := 1 },
        fuse := { hostUp.fuse with keyDigest := [] },
        img := { hostUp.img with committed := some { onePart with profiles := [{ number := 1, entries := [] }] } },
        pwr := { hostUp.pwr with draws := [(15, [{ unit := 5, pips := 1, st := .granted, since := 0 }])] },
        hbm := Mem.writeBytes (Mem.writeBytes [] 0x100 planBytes) 0x400 [16, 0, 0, 0, 0, 0, 0, 0, 0x77],
        jobs := { (chanState .active).jobs with jobs := [(4, x)], holder := match h with | some j => [(15, j)] | none => [] } } : State).setReg
      (R.corMap 15 1) 0x07060504).setReg (R.seqState 7) 0).setFld (R.corCount 15) 6 0 64).setFld (R.pwrPart 15) 11 0 100
      |>.setFld (R.jobClQuota 3) 12 0 1

/-- A microcode slot of level 5 with an empty patch, signed with a key made for it, and the digest of that key. -/
def slotHead5 : List Nat :=
  [72, 88, 70, 83, 2, 0, 0, 0, 5, 0, 0, 0, 64, 0, 0, 0, 128, 20, 60, 3, 16, 0] ++ List.replicate 42 0
def slotSig5 : List Nat :=
  [
    130, 37, 99, 223, 100, 196, 89, 40, 212, 88, 93, 185, 248, 246, 102, 91, 137, 68, 75, 42, 254, 15, 45, 162, 68, 198, 244,
    86, 76, 255, 192, 228, 46, 118, 92, 165, 189, 168, 9, 202, 162, 61, 35, 28, 157, 160, 190, 225, 204, 49, 3, 187, 142, 209,
    54, 126, 191, 192, 77, 47, 27, 114, 213, 180, 111, 155, 10, 98, 82, 199, 234, 22, 43, 214, 245, 52, 193, 69, 34, 216, 49,
    222, 42, 122, 224, 124, 97, 207, 230, 189, 224, 207, 227, 71, 95, 252]
def slotKey5 : List Nat :=
  [
    122, 233, 225, 219, 17, 96, 121, 76, 112, 193, 239, 7, 27, 229, 25, 31, 108, 102, 36, 15, 70, 8, 251, 232, 164, 78, 205,
    54, 195, 237, 93, 185, 117, 0, 242, 228, 216, 78, 63, 180, 88, 80, 253, 111, 67, 3, 48, 43, 216, 172, 33, 68, 76, 216, 13,
    36, 21, 56, 216, 3, 75, 57, 154, 13, 238, 54, 54, 235, 92, 176, 11, 148, 153, 208, 97, 165, 113, 219, 15, 20, 187, 71, 237,
    121, 69, 57, 72, 237, 99, 243, 166, 204, 187, 246, 231, 79]
def slotBody5 : List Nat := [81, 85, 67, 80, 0, 0, 0, 0, 0, 0, 1] ++ List.replicate 53 0
def slotBytes5 : List Nat := slotHead5 ++ slotSig5 ++ slotKey5 ++ slotBody5
def digest5 : List Nat :=
  [
    73, 56, 179, 9, 239, 202, 14, 80, 202, 185, 249, 73, 171, 132, 157, 4, 92, 90, 103, 106, 192, 22, 54, 144, 171, 130, 42,
    122, 78, 25, 217, 6, 80, 121, 44, 41, 53, 60, 91, 244, 70, 31, 51, 20, 149, 99, 2, 112]

/-- A HX8 whose fuses hold that digest, with the slot in the store at an address: a slot of its own, or staged for a
promotion. -/
def keyed (a : Nat) : State :=
  { hostUp with
    fuse := { hostUp.fuse with keyDigest := digest5 },
    store := { hostUp.store with
      mem := slotBytes5.zipIdx.filterMap fun q => if q.1 = 0 then none else some (a + q.2, BitVec.ofNat 8 q.1),
      promo := some { kind := 2, index := 0, slot := 0, result := none } } }
def stagedSlot : State := ((keyed 0x01500000).setReg R.glbPromoteSrc 0x01500000).setReg R.glbPromoteLen 320

theorem slot5_body : cut slotBytes5 0x100 64 = slotBody5 := by decide +kernel
theorem slot5_key : cut slotBytes5 0xA0 96 = slotKey5 := by decide +kernel
theorem slot5_sig : cut slotBytes5 0x40 96 = slotSig5 := by decide +kernel
theorem slot5_head : cut slotBytes5 0 0x40 = slotHead5 := by decide +kernel
theorem slot5_length : le slotBytes5 0x0C 4 = 64 := by decide +kernel
theorem slot5_crc : crc32 slotBody5 = le slotBytes5 0x10 4 := by decide +kernel
theorem slot5_digest : sha384 slotKey5 = digest5 := by decide +kernel
set_option maxRecDepth 100000 in
theorem slot5_signature : ecdsaVerify slotKey5 slotSig5 (slotHead5 ++ slotBody5) = true := by decide +kernel
theorem slot5_sound : slotFault digest5 2 0x200000 slotBytes5 = 0 := by
  unfold slotFault
  have h1 : ¬(le slotBytes5 0 4 != 0x53465848 || le slotBytes5 4 4 != 2) = true := by decide +kernel
  have h2 : ¬(slotBytes5.length < 320) := by decide +kernel
  have h3 : ¬(stepByte < le slotBytes5 0x14 1) := by decide +kernel
  simp only [slot5_length, slot5_body, slot5_key, slot5_sig, slot5_head, slot5_crc, slot5_digest, slot5_signature]
  simp only [Bool.not_eq_true] at h1
  simp [h1, h2, h3]
set_option maxRecDepth 100000 in
theorem slot5_stored : (keyed 0x900000).slotBytes 2 1 = slotBytes5 := by decide +kernel
set_option maxRecDepth 100000 in
theorem slot5_staged : Mem.readBytes stagedSlot.store.mem 0x01500000 320 = slotBytes5 := by decide +kernel
theorem slot5_promo : stagedSlot.promoCheck { kind := 2, index := 0, slot := 0, result := none } = 0 := by
  unfold State.promoCheck
  have h1 : stagedSlot.fld R.glbPromoteSrc 25 0 = 0x01500000 := by decide +kernel
  have h2 : stagedSlot.fld R.glbPromoteLen 23 0 = 320 := by decide +kernel
  have h3 : slotFault stagedSlot.fuse.keyDigest 2 (slotSize 2) slotBytes5 = 0 := slot5_sound
  simp only [h1, h2, slot5_staged, slot5_length, h3]
  decide
theorem slot5_patch : (keyed 0x900000).slotBad 2 1 = 0 ∧ ((keyed 0x900000).slotPatch 1).2 = 0 := by
  constructor
  · show slotFault digest5 2 0x200000 ((keyed 0x900000).slotBytes 2 1) = 0
    rw [slot5_stored, slot5_sound]
  · unfold State.slotPatch; rw [slot5_stored]; decide +kernel

/-- A partition reset of partition 15 in progress; a live swap in which a region changes; a patch being applied, and
loaded. -/
def resetPart15 : State :=
  { planState inPhase (some 4) with
    boot := { hostUp.boot with active := [{ kind := 3, target := 15, port := 0, cause := 2, done := false }] } }
def regionImage : Image := { emptyImage 0 with regions := [{ base := 0, size := 0x10000, attr := 1, homePart := 0 }] }
def cleansing : State :=
  ({ swapping { noSwap with start := 1, live := true } with
      img := { committed := some (emptyImage 0), pending := some regionImage, firstCommit := false, load := none,
               swap := some { noSwap with start := 1, live := true }, absent := 0 } } : State).setReg (R.seqState 7) 0
def patch5 : Patch := { level := 5, hubWords := [], peakWords := [9], hubHooks := [], peakHooks := [] }
def patching : State := { hostUp with seq := { hostUp.seq with applying := some patch5, mustSwitch := 128 } }
def switching : State :=
  ({ patching with seq := { patching.seq with seqs := [(7, { SeqSt.empty with staged := some 5 })] } } : State).setReg (R.seqState 7) 0

/-- A microword that adds its literal, 9, to s0 and goes on at 5. -/
def addWord : Nat := 5 + 2 ^ 28 + 16 * 2 ^ 33 + 2 ^ 50 + 0x20 * 2 ^ 54 + 9 * 2 ^ 89

/-- P7's sequencer in a state of SEQ_STATE, at the first RAM word, which is a given one; and at a boundary with round work
or messages latched. -/
def running (phase w : Nat) : State :=
  (({ hostUp with
      fuse := { hostUp.fuse with keyDigest := [] },
      seq := { hostUp.seq with seqs := [(7, { SeqSt.empty with ram := [(0, eccEncode w)] })] } } : State).setReg
    (R.seqState 7) (0x1000 + phase * 2 ^ 13)).setReg (R.seqCfg 8) 0x100
def latched (work : Bool) (inbox : List (List Nat)) : State :=
  ({ hostUp with seq := { hostUp.seq with seqs := [(7, { SeqSt.empty with roundWork := work, inbox := inbox })] } } : State).setReg (R.seqState 7) 0

/-- VF 5 of port 1 with a vector pending. -/
def masked : State :=
  { hostUp with hst := { hostUp.hst with funcs := [(69, { enabled := true, msix := true, table := [], pend := [2047] })] } }

/-- Reads of a host are out: one of the asking group's, one of the hub sequencer's. -/
def askRead : HostRead := { who := .core 15 5 2 4 0, port := 1, func := 0, pasid := none, addr := 0x1000, len := 128 }
def asked : State := { asking with hst := { asking.hst with reads := [(6, askRead), (7, { askRead with who := .seq 8 0 })] } }

/-- Host DMA engine 7 with a transfer of no line set up, and one whose lines are written. -/
def dmaReady : State :=
  ((hostUp.setFld R.pwrPool 11 0 4).setFld (R.ucHbmState 0) 1 0 1).setReg (R.hptDmaDstLo 7) 0x1000
def doneDma : HostDma := { src := 0, dst := 0x1000, len := 128, mask := 0, irq := false, vector := 0, sent := 1, lines := 1 }
def dmaDone : State :=
  { dmaReady with
    hst := { dmaReady.hst with dma := [(7, doneDma)] },
    pwr := { dmaReady.pwr with pool := [{ user := .hostDma 7, pips := 4, granted := true }] } }

/-- Page stream 63 of port 1's PF, open, with its one last page published. -/
def pageDesc : PageDesc :=
  { enable := true, func := 0, port := 1, pageLog2 := 12, pages := 2, vector := 0, buf := 0, irqPage := false, irqIncomplete := true }
def openStream : PStream := { PStream.idle with st := 1, desc := some pageDesc, producer := some .cairn, lens := [5], ended := true }
def streaming : State :=
  ({ hostUp with
      mod := { hostUp.mod with islandUs := 10000000 },
      hst := { hostUp.hst with streams := [(63, openStream)] } } : State).setReg R.pstTimeout 10000

/-- A ring of member 3, joining, with member 31 missing in its map; and a member whose switches are closed. -/
def aMark : RollMark :=
  { origin := 31, inc := 4, serial := 9, name := 0, hops := 31, eastUp := true, westUp := true, stopped := false, departing := false,
    genE := 2, genW := 1, eastNb := 3, westNb := 3 }
def frame1 : RFrame := { turn := 65535, items := [], pkts := [] }
def ringShut : State := { hostUp with mod := { hostUp.mod with bypassReq := false } }.setReg R.rngCfg 0x10801
def ringUp : State :=
  { ((ringShut.setReg R.rngId 3).setPortSt 0 2 1).setPortSt 1 2 2 with
    mod := { ringShut.mod with islandUs := 2000000 },
    rng := { hostUp.rng with
      switchesOpen := true, joining := true, firstUp := some 0, members := [(31, { mark := aMark, missing := some 5 })],
      ports := [(1, { RPort.fresh 0 31 4 9 with turns := 8191, sent := [frame1] })] } }

def ringNak : State := ringUp.setRport 0 { ringUp.rport 0 with naks := [(65535, 59, 2)] }

/-- The same member, joined; requests of member 31 of a kind wait for it, with sequence 7 expected; an answer to its own
request of a ring DMA engine; a transfer that may start; and a sweep. -/
def ringMember : State :=
  ({ ringUp with rng := { ringUp.rng with joining := false, members := [] } } : State).setReg (R.rngMap 31) 0x00040207
def rpkt (kind : PktKind) (offset : Nat) : RPkt :=
  { RPkt.mk0 kind 31 3 4 0 offset with seq := 7, tag := 2047, mask := 15, data := 99 }
def ringRx : State :=
  (({ ringMember with rng := { ringMember.rng with
      rx := [(1, rpkt .put 0), (1, rpkt .get 0), (0, rpkt .doorbell 255), (0, rpkt .crec 31)], expected := [(pairKey 31 4, 7)],
      answers := [(pairKey 31 4, [ringMember.answerTo { rpkt .put 0 with seq := 6 } .putAck 0 0])] } } : State).setReg R.rngIn
    (1 + 2 ^ 16 + 3 * 2 ^ 28)).setFld (R.ucHbmState 0) 1 0 1
def ownPkt : RPkt := { RPkt.mk0 .put 3 31 0 4 128 with seq := 5, tag := 2047, mask := 15 }
def ownTxn : RTxn := { pkt := ownPkt, who := .ringDma 7 1, dir := 1, tries := 3, sent := true }
def ownDma : RingDma :=
  { src := 0, dst := 0, len := 256, mask := 0, irq := false, db := false, vector := 0, mbox := 0, value := 0, sent := 2, lines := 1, halting := false }
def ringAns : State :=
  { ringMember with rng := { ringMember.rng with
      rx := [(0, { ownPkt with kind := .putAck })], txns := [(12, ownTxn)], dma := [(7, ownDma)] } }
def ringCopy : State :=
  ((((ringMember.setFld (R.ucHbmState 0) 1 0 1).setReg R.pwrPool 4).setReg (R.rngDmaLen 7) 0x1000000).setReg (R.rngDmaDstLo 7)
    ((ringLo + 31 * ringStep) % 2 ^ 32)).setReg (R.rngDmaDstHi 7) ((ringLo + 31 * ringStep) / 2 ^ 32)
def aSweep : Census :=
  { sweep := 1, closedAtStart := true, reissued := false, reverse := false, east := 2 ^ 31, west := 0, got := 2 ^ 31, start := 1, returned := none }
def ringSweep : State := { ringMember with rng := { ringMember.rng with census := some aSweep } }

/-- Queue 3 of Tarn holds a pass of one pixel and one layer; the same pass with leave and no layer; serial ports. -/
def tarnReady : State :=
  (((({ hostUp with hbm := Mem.writeBytes (Mem.writeBytes [] 0x1000 ([0, 1, 0, 5, 0, 0, 0, 0, 1, 0, 1, 0, 16, 0, 0, 0, 0, 0x30, 0, 0, 0, 0, 0, 0, 0, 0x20] ++
      List.replicate 38 0)) 0x2000 ([0, 0x40, 0, 0, 0, 0, 0, 0, 16, 0, 0, 0, 0, 5, 0, 0, 1, 0, 1] ++ List.replicate 13 0) } : State).setReg
    (R.trnQBaseLo 3) 0x1000).setReg (R.trnQTail 3) 1).setReg R.trnCtl 15).setReg R.pwrPool 24 |>.setFld (R.ucHbmState 0) 1 0 1
def aPass : TarnPass :=
  { (hostUp.parsePass 3 0 0x1000 []).1 with w := 1, h := 1, fmt := 5, addr := 0x3000, bg := [0, 0, 0, 0x3F800000], checked := true, granted := true, layers := [] }
def tarnRuns : State := { tarnReady with trn := { pass := some aPass, vectors := [] } }
def lineOf8 (c : Nat) : List Bool := (charCells 0x400000 c).flatMap fun b => List.replicate 16 b
def serialState : State :=
  ((hostUp.setReg (R.uCfg 0) 0x0841001A).setReg R.crnCon 1).setUart 0 { Uart.idle with
    rx := List.replicate 64 65, shift := some 65, command := some [63, 75, 55] } |>.setUart 1 { Uart.idle with cfg := some (2, 5) }
def aFrame : LinFrame := { slot := 7, desc := 0x64 * 65536 + 64 + 0x10, sent := [0x55, 0x50] }
def linState : State := ((({ hostUp with ser := { hostUp.ser with due := [(0, 10000), (1, 10000)] } } : State).setReg (R.uCfg 1) 0x2844009C).setReg R.linCtl 1).setReg
  (R.linSlot 7) 0x640050

/-- JTAG locked out; a stream that a readout may take; an entry to latch; a faceplate update due; a notice of Tarn's fault. -/
def locked : State := (hostUp.setFlag R.jtgPolicy 0 false).setFlag R.jtgPolicy 1 false
def streamable : State := hostUp.setStream 63 { hostUp.stream 63 with desc := some pageDesc }
def anEntry : CairnEntry := { code := 0x1101, source := 8, flags := 0, uctx := 0, time := 1, payload := [] }
def latching : State := (hostUp.setReg R.crnRdSel 8).setCairn 8 { Cairn.empty with entries := [anEntry] }
def plating : State := { hostUp with crn := { hostUp.crn with queued := some 2 } }
def tarnNotice : Notice := { kind := 11, code := 7, die := 8, unit := 0, parts := 0, round := 1, half := 16, line := 0 }
def noticed : State :=
  { hostUp with flt := { hostUp.flt with notices := [tarnNotice], records := List.replicate 32 [] } }

theorem wit_stepTakesFrontCommand :
    ({ State.reset with pending := [.joinEnd] } : State).pending = [.joinEnd] ∧ State.reset.pending = [] := by decide

theorem wit_stepKeepsQueueAndFuses : step State.reset = .next State.reset := by rfl

theorem wit_stepKeepsInvariant : State.reset.Inv ∧ step State.reset = .next State.reset := by
  exact ⟨⟨by decide, by decide⟩, rfl⟩

theorem wit_registerWriteByAccessType :
    (∃ q b i r, (hostUp).reaches 0 0 R.fltVec q b i r ∧ q.group = .none ∧ isLo b r = false ∧
      (4 ≤ r → isLo b (r - 4) = false) ∧ (hostUp).ownWrite b i r 5 = none) ∧
    (∃ q b i r, (hostUp).reaches 0 0 R.rndTtAddr q b i r ∧ q.group = .none ∧ isLo b r = false ∧
      (4 ≤ r → isLo b (r - 4) = false) ∧ (hostUp).ownWrite b i r 5 = none) ∧
    ((hostUp).funcOk 1 0 = true ∧ (hostUp).isPf 1 0 = true ∧ (hostUp).isCtl 1 0 = false ∧ R.fltVec % 4 = 0 ∧
      tableAt true R.fltVec = none ∧ R.fltVec ≠ R.chnDbLo ∧ R.fltVec ≠ R.chnDbHi) := by
  refine ⟨⟨_, _, _, _, ⟨by decide, by decide, by decide, by decide, by decide, rfl, rfl, by decide, by decide, by decide, by decide⟩, by decide, by decide, by decide, by decide⟩,
    ⟨_, _, _, _, ⟨by decide, by decide, by decide, by decide, by decide, rfl, rfl, by decide, by decide, by decide, by decide⟩, by decide, by decide, by decide, by decide⟩, by decide⟩

theorem wit_pairAndSelectorWrites :
    (∃ q b i r, (hostUp).reaches 0 0 R.imgSrcLo q b i r ∧ isLo b r = true ∧ (hostUp).pairOpen b r = true) ∧
    (∃ p q b i r, (hostUp).reaches 0 0 R.imgSrcHi q b i r ∧ 4 ≤ R.imgSrcHi ∧ 4 ≤ r ∧ isLo b r = false ∧
      isLo b (r - 4) = true ∧ (hostUp).pairOpen b (r - 4) = true ∧ regRow (R.imgSrcHi - 4) = some p) ∧
    (∃ q b i r, (hostUp).reaches 0 0 R.jobSel q b i r ∧ isLo b r = false ∧ (4 ≤ r → isLo b (r - 4) = false) ∧
      (hostUp).ownWrite b i r 1 = none ∧ q.expert = false ∧ q.group ∉ [.none, .inlim, .pwr, .seq, .hpt, .rng, .uc] ∧
      (hostUp).rnd.running = true) ∧
    badAccess 2 4 = true ∧ badAccess 0 1 = true := by
  refine ⟨⟨_, _, _, _, ⟨by decide, by decide, by decide, by decide, by decide, rfl, rfl, by decide, by decide, by decide, by decide⟩, by decide, by decide⟩,
    ⟨_, _, _, _, _, ⟨by decide, by decide, by decide, by decide, by decide, rfl, rfl, by decide, by decide, by decide, by decide⟩, by decide, by decide, by decide, by decide, by decide, rfl⟩,
    ⟨_, _, _, _, ⟨by decide, by decide, by decide, by decide, by decide, rfl, rfl, by decide, by decide, by decide, by decide⟩, by decide, by decide, by decide, by decide, by decide, by decide⟩, by decide⟩

theorem wit_roundsAndTurnTables :
    ((hostUp).rnd.running = true) ∧
    ((hostUp).unitsRun = true ∧ (hostUp).waitingAt (hopKey 0 7 1) = [] ∧ openMsg.lane = .openTraffic ∧ openMsg.units 16 ≤ 640) ∧
    ((StallUnit.colEnd 13 8).wf = true ∧ (StallUnit.core 15 71).wf = true) ∧
    ((atGateState).unitsRun = true ∧ (atGateState).atGate 3 = [0] ∧ (atGateState).gateOpen 3 = true ∧
      (atGateState).msg? 0 = some (CohMsg.mk0 .rdNC (.core 400) (.home 0) 5)) ∧
    (3 ≤ (0x15 : Word).toNat % 16 ∧ (2 : Word).toNat % 16 < 3 ∧ (hostUp).locked = false) ∧
    (((hostUp).setReg R.rndTtAddr (127 + 2 ^ 7 * 1 + 2 ^ 12 * 6 + 2 ^ 15 + 2 ^ 16)).reg R.rndTtAddr =
        127 + 2 ^ 7 * 1 + 2 ^ 12 * 6 + 2 ^ 15 * 1 + 2 ^ 16 * 1 ∧ 1 < linkCount 6 ∧
      1 ≠ ((hostUp).setReg R.rndTtAddr (127 + 2 ^ 7 * 1 + 2 ^ 12 * 6 + 2 ^ 15 + 2 ^ 16)).bank) := by
  decide

theorem wit_j1SamplesAndStandbyEntry :
    ((hostUp).mod.power = .run ∧ 25 * (hostUp).fld R.glbInlimThr 7 0 ≤ 4800 ∧ 25 * (hostUp).fld R.glbInlimThr 15 8 ≤ 4800 ∧
      4800 ≤ 25 * (hostUp).fld R.glbInlimThr 23 16 ∧ 4800 ≤ 25 * (hostUp).fld R.glbInlimThr 31 24) ∧
    ((lowJ1).mod.power = .run ∧ (lowJ1).mod.toStandby ≠ some .powerLoss ∧ 3500 < 25 * (lowJ1).fld R.glbInlimThr 15 8 ∧
      (lowJ1).mod.uvTripRun = 10) ∧
    ((offState).mod.power = .off ∧ 10001 ≤ (offState).mod.coldRun) ∧
    ((hostUp).crn.snap = none ∧ (snapping).mod.power = .run ∧ (snapping).crn.snap.isSome = true) ∧
    ((hostUp).mod.power ≠ .off ∧ 5 ≠ (hostUp).mod.slotId) := by decide

theorem wit_moduleContactsAndPowerStates :
    ((hostUp).mod.power = .run ∧ (hostUp).boot.running = false ∧ (hostUp).pwr.halted = false ∧
      (hostUp).flag R.fltStatus 0 = false) ∧
    ((hostUp).mod.power ≠ .off ∧ (hostUp).pwr.dry = none ∧ (hostUp).rng.departing = none) ∧
    ((departing .bypass).mod.power = .run ∧ (departing .bypass).rng.departing = some .bypass) ∧
    ((readyState).mod.power = .ready ∧ (readyState).mod.flowOk = true) ∧
    ((wantReady).mod.power = .run ∧ (wantReady).mod.readyReq = true ∧ (wantReady).jobs.holder = [] ∧
      (wantReady).unitsRun = true ∧ (wantReady).seqRuns 8 = true) ∧
    (State.reset.mod.power = .standby ∧ 23 < 24) ∧
    ((hostUp).flag R.glbOsc 1 = false ∧ ((hostUp).setReg R.glbOsc 2).flag R.glbOsc 1 = true) := by decide

theorem wit_storeWindowAndThresholds :
    State.reset.store.writing = none ∧
    (0x01500000 ≤ 4 * (stagingAt 0x01500000).fld R.glbStoreAddr 25 2 ∧
      4 * (stagingAt 0x01500000).fld R.glbStoreAddr 25 2 < 0x02100000 ∧ (stagingAt 0x01500000).store.promo = none) ∧
    (4 * (stagingAt 0x014FFFFC).fld R.glbStoreAddr 25 2 < 0x01500000 ∧ 0x02100000 ≤ 4 * (stagingAt 0x02100000).fld R.glbStoreAddr 25 2) ∧
    ({ State.reset with store := { State.reset.store with writing := some (0x01500000, 7) } } : State).store.writing = some (0x01500000, 7) ∧
    thrOk (0xF4EC9C9C : Word).toNat = false ∧ thrOk (0xF4EC9CA8 : Word).toNat = true := by decide

theorem wit_powerLimitsAndLeave :
    (bits (799 : Word).toNat 11 0 < 800 ∧ 800 ≤ bits (800 : Word).toNat 11 0 ∧ (hostUp).inSwap = false ∧
      (hostUp).rnd.running = true) ∧
    ((waitingDraw).unitsRun = true ∧ Map.get? (waitingDraw).arr 15 = none ∧
      (waitingDraw).drawsOf 15 = [{ unit := 3, pips := 40, st := .waiting, since := 0 }] ∧
      drawnTotal [{ unit := 3, pips := 40, st := .waiting, since := 0 }] + 40 ≤ (waitingDraw).shareOf 15) ∧
    ((waitingPool).pwr.pool = [{ user := .hostDma 0, pips := 4, granted := false }] ∧ (waitingPool).unitsRun = true ∧
      (waitingPool).flag R.pwrState 15 = false ∧ poolGranted (waitingPool).pwr.pool + 4 ≤ (waitingPool).poolSize) ∧
    ((hostUp).fld R.pwrCfg 19 12 ≤ 110 ∧ (hostUp).fld R.pwrCfg 27 20 ≤ 110 ∧ (hostUp).pwr.warned.contains 15 = false) ∧
    ((List.replicate 16 40).length = 16 ∧ (∀ c ∈ List.replicate 16 40, c < (hostUp).fld R.pwrCfg 19 12)) := by decide

theorem wit_dryStops :
    ((hostUp).mod.power = .run ∧ (hostUp).pwr.dry = none ∧ (hostUp).pwr.halted = false ∧ (hostUp).flag R.fltStatus 0 = false) ∧
    ((drying true).pwr.dry = some (.flow, 0) ∧ (drying true).pwr.dryEnding = true) ∧
    ((drying false).pwr.dry = some (.flow, 0) ∧ (drying false).pwr.dryEnding = false ∧ 0 + 2000000 ≤ (drying false).mod.islandUs ∧
      (drying false).mod.toStandby = none ∧ (drying false).crn.snap = none ∧ (drying false).mod.perst = false) ∧
    ({ drying false with crn := (snapping).crn } : State).crn.snap.isSome = true ∧
    ((idleStack).mod.power = .ready ∧ (idleStack).fld (R.ucHbmState 7) 1 0 = 1 ∧
      Map.getD (idleStack).mem.stackUse 7 0 + 1000 ≤ (idleStack).mod.islandUs) := by decide

theorem wit_bootSteps :
    (mayBootState).mayBoot = true ∧
    ((booting 1 3).boot.running = true ∧ (booting 1 3).bootStep = 1 ∧ bits (booting 1 3).boot.ctl 1 0 = 3) ∧
    ((booting 2 0).bootStep = 2 ∧ (booting 2 0).flag R.glbOsc 1 = false) ∧
    ((booting 3 0).bootStep = 3 ∧ (booting 3 0).waveBegun 1 = false) ∧
    (((booting 3 0).setReg R.glbPeakState 0x88888888).waveBegun 1 = true ∧
      ((booting 3 0).setReg R.glbPeakState 0x88888888).waveOver 1 = true) ∧
    ((booting 4 0).bootStep = 4 ∧ ((booting 4 0).setReg R.glbPeakState 0x44444444).waveOver 2 = true) ∧
    ((booting 6 0).bootStep = 6 ∧ ((booting 6 0).setReg R.glbPeakState 0x44444444).peakSt 7 = 4) ∧
    (booting 7 0).bootStep = 7 ∧ (booting 8 0).bootStep = 8 ∧ (booting 8 0).boot.running = true := by decide

theorem wit_peaksOfTheBoot :
    ((peakTry 7 1 1).coming 7 = true ∧ (peakTry 7 1 1).tries 7 = 1) ∧
    ((peakTry 7 0 1).boot.running = true ∧ (peakTry 7 0 1).peakSt 7 = 0 ∧ (peakTry 7 0 1).tries 7 = 1) ∧
    ((peakTry 7 5 2).coming 7 = true ∧ (peakTry 7 5 2).tries 7 = 2) := by decide

theorem wit_resetRequests :
    (0xA5C2 ≠ 0xA5C3) ∧ ((hostUp).boot.active = [] ∧ (hostUp).boot.deferred = [] ∧ (hostUp).mod.power = .run ∧
      (hostUp).crn.snap = none ∧ (hostUp).inSwap = false ∧ ((hostUp).setFlag R.rndEpoch 16 true).inSwap = true ∧
      ((hostUp).setFlag R.rndEpoch 16 true).boot.active = [] ∧ (hostUp).isPf 1 63 = false) := by decide

theorem wit_resetCompletions :
    ((resetting 3 5 true).unitsRun = true ∧ (resetting 3 5 true).partActive 5 = some { kind := 3, target := 5, port := 0, cause := 2, done := true }) ∧
    ((resetting 5 8 false).boot.active.find? fun r => r.kind == 5 && r.target == 8) = some { kind := 5, target := 8, port := 0, cause := 2, done := false } ∧
    (hostUp).isPf 1 63 = false ∧
    ((resetting 4 63 false).boot.active.find? fun r => r.kind == 4 && r.target == 63 && r.port == 0) = some { kind := 4, target := 63, port := 0, cause := 2, done := false } ∧
    (((withVf).funcsOf 1 0).filter fun f => !(withVf).isPf 1 f) = [5] := by decide

theorem wit_promotionsOfStoreObjects :
    ((hostUp).isUp = true ∧ (hostUp).store.promo = none) ∧
    ((promoting 1 none).unitsRun = true ∧ (promoting 1 none).seqRuns 8 = true ∧
      (promoting 1 none).store.promo = some { kind := 1, index := 0, slot := 0, result := none } ∧
      (promoting 1 none).promoCheck { kind := 1, index := 0, slot := 0, result := none } ≠ 0) ∧
    ((promoting 2 (some 3)).store.promo = some { kind := 2, index := 0, slot := 0, result := some 3 }) := by decide
theorem wit_aPromotionIsAccepted :
    stagedSlot.unitsRun = true ∧ stagedSlot.seqRuns 8 = true ∧
    stagedSlot.promoCheck { kind := 2, index := 0, slot := 0, result := none } = 0 :=
  ⟨by decide, by decide, slot5_promo⟩

theorem wit_imagesLoadedAndCommitted :
    ((hostUp).flag R.imgStatus 0 = false ∧ (hostUp).swapStands = false) ∧
    ((loading).unitsRun = true ∧ (loading).img.load = some { fromStore := true, index := 9, addr := 0 }) ∧
    (0xC0A6 ≠ 0xC0A7) ∧
    ((pendingImage 0x1000).unitsRun = true ∧ ∃ im, (pendingImage 0x1000).img.pending = some im ∧ ((pendingImage 0x1000).commitFault im).1 ≠ 0) ∧
    (∃ im, (pendingImage 0).img.pending = some im ∧ ((pendingImage 0).commitFault im).1 = 0 ∧ (pendingImage 0).img.committed = none ∧
      (pendingImage 0).rnd.running = true) ∧
    (4 ≤ (4 : Word).toNat % 16 ∧ (3 : Word).toNat % 16 < 4 ∧ (hostUp).locked = false ∧ Map.get? (hostUp).store.images 4 = none) := by
  refine ⟨by decide, by decide, by decide, ⟨by decide, emptyImage 0x1000, rfl, by decide⟩, ⟨emptyImage 0, rfl, by decide, by decide, by decide⟩, by decide⟩

theorem wit_shiftChanges :
    ((swapping { noSwap with start := 0 }).unitsRun = true ∧ (swapping noSwap).seqRuns 8 = true ∧
      (swapping noSwap).shift = some (noSwap, emptyImage 0, emptyImage 0)) ∧
    ((servingMark).seqGoes 7 = true ∧ (servingMark).seqPhase 7 = 1 ∧ ((servingMark).seqSt 7).serving = 2 ∧
      (servingMark).img.swap = some { noSwap with start := 4, mustAck := 128 } ∧ (servingMark).rnd.round + 4 ≤ 4) ∧
    ((({ noSwap with start := 4, mustAck := 1 } : Swap).missing ≠ []) ∧ 4 ≤ (hostUp).rnd.round + 4) ∧
    ((({ noSwap with start := 1 } : Swap).missing = []) ∧ (swapping { noSwap with start := 1 }).atBoundary = true) ∧
    ((swapping { noSwap with start := 1, live := true }).mayCleanse { noSwap with start := 1, live := true } (emptyImage 0) = true) ∧
    ((openable).shift = some ({ noSwap with start := 1, live := true }, emptyImage 0, onePart) ∧
      (onePart.parts.find? fun q => q.part == 15) = some part15 ∧
      (openable).mayOpen { noSwap with start := 1, live := true } (emptyImage 0) onePart part15 = true) ∧
    ((swapLong).fld R.imgShiftCfg 31 10 ≠ 0 ∧ 1 + (swapLong).fld R.imgShiftCfg 31 10 ≤ (swapLong).rnd.round) := by decide

theorem wit_integerArithmetic :
    (onGroup grp).issues gref (words 0 4 5 6 0) (intSpec (words 0 4 5 6 0) true false true) grp blk0 ∧
    (onGroup grp).issues gref (words 1 4 6 8 0) (intSpec (words 1 4 6 8 0) true false true) grp blk0 ∧
    (onGroup grp).issues gref (words 3 255 14 8 0) (intSpec (words 3 255 14 8 0) true false true) grp blk0 ∧
    (onGroup grp).issues gref (words 1 4 6 8 10) (intSpec (words 1 4 6 8 10) true true true) grp blk0 ∧
    (onGroup grp).issues gref longAdd (intSpec longAdd true false true) grp blk0 := by
  refine ⟨?_, ?_, ?_, ?_, ?_⟩ <;> exact ⟨⟨by decide, by decide, by decide, rfl, rfl, by decide, by decide, by decide, by decide, .inl rfl⟩, by unfold Group.inKernel; decide, by decide, by decide⟩

theorem wit_shiftsCountsAndSelects :
    (onGroup grp).issues gref (words 2 4 6 8 0) (intSpec (words 2 4 6 8 0) true false true) grp blk0 ∧
    (onGroup grp).issues gref (words 1 4 6 0 0) (intSpec (words 1 4 6 0 0) false false true) grp blk0 ∧
    (onGroup grp).issues gref (words 0 4 6 7 8) (.alu (.regs 1) (.regs 1) (.regs 1) (.regs 1) true) grp blk0 ∧
    (onGroup grp).issues gref (words 0 4 6 7 3) (.alu (.regs 1) (.regs 1) (.regs 1) .pred true) grp blk0 ∧
    (onGroup grp).issues gref longMov { OpSpec.alu (.regs 2) .unused (.regs 2) .unused true with imm64 := true } grp blk0 ∧
    (onGroup grp).issues gref (words 20 6 4 5 0) (.alu .pred (.regs 1) (.regs 1) .unused true) grp blk0 := by
  refine ⟨?_, ?_, ?_, ?_, ?_, ?_⟩ <;> exact ⟨⟨by decide, by decide, by decide, rfl, rfl, by decide, by decide, by decide, by decide, .inl rfl⟩, by unfold Group.inKernel; decide, by decide, by decide⟩

theorem wit_laneInstructions :
    (onGroup grp).issues gref (words 0 0 0 0 0) (.alu .unused .unused .unused .unused true) grp blk0 ∧
    (onGroup grp).issues gref (words 14 4 0 0 0) (.alu (.regs 1) .unused .unused .unused true) grp blk0 ∧
    (onGroup grp).issues gref (words 7 4 0 0 0) (.alu (.regs 2) .unused .unused .unused true) grp blk0 ∧
    (onGroup grp).issues gref (words 1 4 5 6 0) (.alu (.regs 1) (.regs 1) (.regs 1) .unused true) grp blk0 ∧
    (onGroup grp).issues gref (words 1 4 5 0 0) (.alu .pred .pred .unused .unused true) grp blk0 ∧
    (onGroup grp).issues gref (words 2 4 5 0 0) (.alu (.regs 1) .pred .unused .unused true) grp blk0 := by
  refine ⟨?_, ?_, ?_, ?_, ?_, ?_⟩ <;> exact ⟨⟨by decide, by decide, by decide, rfl, rfl, by decide, by decide, by decide, by decide, .inl rfl⟩, by unfold Group.inKernel; decide, by decide, by decide⟩

theorem wit_fpInstructions :
    (onGroup grp).issues gref (words 4 4 5 6 0) (.alu (.regs 1) (.regs 1) (.regs 1) .unused true) grp blk0 ∧
    (onGroup grp).issues gref (words 3 4 5 6 7) (.alu (.regs 1) (.regs 1) (.regs 1) (.regs 1) true) grp blk0 ∧
    (onGroup grp).issues gref (words 16 4 5 0 0) (.alu (.regs 1) (.regs 1) .unused .unused true) grp blk0 ∧
    (onGroup grp).issues gref (words 56 6 5 6 0) (.alu .pred (.regs 1) (.regs 1) .unused true) grp blk0 ∧
    trapLanes 0 ((grp.acting (words 4 4 5 6 0)).map fun l => (l, FFmt.f32.add 0 true (grp.reg l 5) (grp.reg l 6))) = [] ∧
    trapLanes 8 ((grp.acting (words 4 4 5 6 0)).map fun l => (l, FFmt.f32.mul 0 true 0x00800000 0x00800000)) ≠ [] := by
  refine ⟨?_, ?_, ?_, ?_, by decide, by decide⟩ <;> exact ⟨⟨by decide, by decide, by decide, rfl, rfl, by decide, by decide, by decide, by decide, .inl rfl⟩, by unfold Group.inKernel; decide, by decide, by decide⟩

theorem wit_packedAndConversionInstructions :
    (onGroup grp).issues gref (words 1 4 5 6 0) (.alu (.regs 1) (.regs 1) (.regs 1) .unused true) grp blk0 ∧
    (onGroup grp).issues gref (words 1 4 5 6 7) (.alu (.regs 1) (.regs 1) (.regs 1) (.regs 1) true) grp blk0 ∧
    (onGroup grp).issues gref (words 0x76 4 6 0 0) (.alu (.regs 2) (.regs 2) .unused .unused true) grp blk0 ∧
    (onGroup grp).issues gref (words 0xCA 4 5 0 0) (.alu (.regs 1) (.regs 1) .unused .unused true) grp blk0 := by
  refine ⟨?_, ?_, ?_, ?_⟩ <;> exact ⟨⟨by decide, by decide, by decide, rfl, rfl, by decide, by decide, by decide, by decide, .inl rfl⟩, by unfold Group.inKernel; decide, by decide, by decide⟩

theorem wit_floatRounding :
    (FFmt.f32.round 0 false false true 3 (-149) false).2.overflow = false ∧
    (FFmt.e4m3.round 3 false false false 447 0 false).2.overflow = false ∧
    (FFmt.f16.round 2 false false true 1 (-40) false).2.overflow = false := by decide

theorem wit_floatSpecialCases :
    (FFmt.f32.unpack 0x7F800001).isNaN = true ∧ (FFmt.f16.unpack 0x7C00) = .inf false ∧ (FFmt.f16.unpack 0xFC00) = .inf true ∧
    (FFmt.bf16.unpack 0x8000) = .fin true 0 (-133) ∧ (FFmt.bf16.unpack 0).isNaN = false := by decide

theorem wit_conversionRules :
    cvtType 1 = .int 8 true ∧ cvtType 6 = .int 64 false ∧ cvtType 10 = .flt .f32 ∧ FFmt.f32.unpack (0xFF800000 % 2 ^ FFmt.f32.width) = .inf true ∧
    FFmt.e4m3.unpack (0x7F % 2 ^ FFmt.e4m3.width) = .nan false := by decide

theorem wit_instructionTraps :
    ((onGroup grp).comesTo gref (words 0 4 5 6 0) (intSpec (words 0 4 5 6 0) true false true) grp blk0 ∧ grp.inKernel blk0 ∧
      (intSpec (words 0 4 5 16 0) true false true).inRange (words 0 4 5 16 0) grp.regsPer = false ∧
      (intSpec (words 1 4 5 6 0) true false true).legal (words 1 4 5 6 0) = false ∧
      (intSpec (words 2 4 5 6 0) true false (decide ((words 2 4 5 6 0).mod < 2))).legal (words 2 4 5 6 0) = false) ∧
    ((onGroup { grp with pc := 64 }).comesTo gref (words 0 0 0 0 0) (.alu .unused .unused .unused .unused true) { grp with pc := 64 } blk0 ∧
      ¬ Group.inKernel { grp with pc := 64 } blk0) := by
  refine ⟨⟨⟨by decide, by decide, by decide, rfl, rfl, by decide, by decide, by decide, by decide, .inl rfl⟩, by unfold Group.inKernel; decide, by decide, by decide, by decide⟩, ⟨by decide, by decide, by decide, rfl, rfl, by decide, by decide, by decide, by decide, .inl rfl⟩, by unfold Group.inKernel; decide⟩

theorem wit_branches :
    (onGroup grp).issues gref (branch 0 0) (ctlSpec .unused .b false false false true) grp blk0 ∧
    grp.acting (branch 0 0) = [0, 1] ∧ (setBitsOf 32 grp.mask).filter (fun l => decide (l ∉ grp.acting (branch 0 0))) ≠ [] ∧
    (onGroup deepGroup).issues gref (branch 0 0) (ctlSpec .unused .b false false false true) deepGroup blk0 ∧
    (onGroup grp).issues gref (branch 7 5) (ctlSpec (.regs 1) .bri false false false true) grp blk0 ∧
    ([(0xFFFFFFFE, 0), (1, 7)] : List (Nat × Nat)).Pairwise (fun p q => p.2 < q.2) ∧
    (OpSpec.alu .unused .unused .unused .unused true).legal (words 0 0 0 0 0) = true ∧
    (onGroup { grp with rpc := 8, stack := [(3, 16, 24)] }).mayIssue gref = true := by
  refine ⟨⟨⟨by decide, by decide, by decide, rfl, rfl, by decide, by decide, by decide, by decide, .inl rfl⟩, by unfold Group.inKernel; decide, by decide, by decide⟩, by decide, by decide,
    ⟨⟨by decide, by decide, by decide, rfl, rfl, by decide, by decide, by decide, by decide, .inl rfl⟩, by unfold Group.inKernel; decide, by decide, by decide⟩,
    ⟨⟨by decide, by decide, by decide, rfl, rfl, by decide, by decide, by decide, by decide, .inl rfl⟩, by unfold Group.inKernel; decide, by decide, by decide⟩, by decide, by decide, by decide⟩

theorem wit_exitsBreaksAndTraps :
    (onGroup grp).issues gref (words 0 0 0 0 0) (ctlSpec .unused .r false false true true) grp blk0 ∧
    (onGroup { grp with stack := [(3, 16, 24)], exited := 4 }).issues gref { words 0 0 0 0 0 with pred := 0, neg := true } (ctlSpec .unused .r false false true true)
      { grp with stack := [(3, 16, 24)], exited := 4 } blk0 ∧
    (onGroup grp).issues gref { words 0 0 0 0 0 with imm := 2047 } (ctlSpec .unused .r true false true true) grp blk0 ∧
    ((onBlock grp { blk0 with brkHalt := true }).setFlag R.jtgArmed 15 true).flag R.jtgArmed gref.half = true := by
  refine ⟨⟨⟨by decide, by decide, by decide, rfl, rfl, by decide, by decide, by decide, by decide, .inl rfl⟩, by unfold Group.inKernel; decide, by decide, by decide⟩, ⟨⟨by decide, by decide, by decide, rfl, rfl, by decide, by decide, .inr (by decide), by decide, .inl rfl⟩, by unfold Group.inKernel; decide, by decide, by decide⟩, ⟨⟨by decide, by decide, by decide, rfl, rfl, by decide, by decide, by decide, by decide, .inl rfl⟩, by unfold Group.inKernel; decide, by decide, by decide⟩, by decide⟩

theorem wit_barrierDivergence :
    ((onGroup grp).comesTo gref { words 0 0 0 0 0 with pred := 0 } (ctlSpec .unused .r true true true true) grp blk0 ∧ grp.inKernel blk0) ∧
    (onGroup { grp with mask := 3, exited := 4 }).issues gref { words 0 0 0 0 0 with imm := 15 } (ctlSpec .unused .r true true true true) { grp with mask := 3, exited := 4 } blk0 ∧
    (onGroup grp).issues gref (words 0 0 0 0 0) (ctlSpec .unused .r true true true true) grp blk0 ∧
    grp.mask = maskOf ((List.range 32).filter fun l => !bit grp.exited l) ∧
    3 ≠ maskOf ((List.range 32).filter fun l => !bit 4 l) := by
  refine ⟨⟨⟨by decide, by decide, by decide, rfl, rfl, by decide, by decide, by decide, by decide, .inl rfl⟩, by unfold Group.inKernel; decide⟩, ⟨⟨by decide, by decide, by decide, rfl, rfl, by decide, by decide, by decide, by decide, .inl rfl⟩, by unfold Group.inKernel; decide, by decide, by decide⟩, ⟨⟨by decide, by decide, by decide, rfl, rfl, by decide, by decide, by decide, by decide, .inl rfl⟩, by unfold Group.inKernel; decide, by decide, by decide⟩, by decide, by decide⟩

theorem wit_barriersFencesAndWaits :
    (onGroup grp).issues gref { words 0 0 0 0 0 with imm := 15 } (ctlSpec .unused .r true true true true) grp blk0 ∧
    ((onGroup { grp with wait := .barrier 3 }).unitsRun = true ∧ (onGroup { grp with wait := .barrier 3 }).group? gref = some { grp with wait := .barrier 3 } ∧
      ∀ q ∈ (onGroup { grp with wait := .barrier 3 }).blockGroups 15 5 2, q.2.done = false → q.2.wait = .barrier 3) ∧
    (onGroup { grp with storesOut := 1 }).issues gref (words 2 0 0 0 0) (ctlSpec .unused .r false true true true) { grp with storesOut := 1 } blk0 ∧
    (onGroup grp).issues gref (words 0 0 4 0 0) (ctlSpec (.regs 2) .r false false true true) grp blk0 ∧
    (onGroup { grp with tilesOut := 1 }).issues gref (words 0 0 0 0 0) (ctlSpec .unused .r false false false true) { grp with tilesOut := 1 } blk0 := by
  refine ⟨⟨⟨by decide, by decide, by decide, rfl, rfl, by decide, by decide, by decide, by decide, .inl rfl⟩, by unfold Group.inKernel; decide, by decide, by decide⟩, ⟨by decide, rfl, by decide⟩, ⟨⟨by decide, by decide, by decide, rfl, rfl, by decide, by decide, by decide, by decide, .inl rfl⟩, by unfold Group.inKernel; decide, by decide, by decide⟩, ⟨⟨by decide, by decide, by decide, rfl, rfl, by decide, by decide, by decide, by decide, .inl rfl⟩, by unfold Group.inKernel; decide, by decide, by decide⟩, ⟨⟨by decide, by decide, by decide, rfl, rfl, by decide, by decide, by decide, by decide, .inl rfl⟩, by unfold Group.inKernel; decide, by decide, by decide⟩⟩

theorem wit_localStoreAccess :
    (onGroup grp).issues gref (words 3 4 7 0 0) (memSpec (.regs 1) .unused .unused 1 true false false) grp blk0 ∧
    (∀ l ∈ grp.acting (words 3 4 7 0 0), grp.lsAddr (words 3 4 7 0 0) l % 2 = 0 ∧ grp.lsAddr (words 3 4 7 0 0) l + 2 ≤ blk0.window) ∧
    (onGroup grp).issues gref (words 6 0 7 4 0) (memSpec .unused (.regs 4) .unused 1 true true false) grp blk0 ∧
    (onGroup grp).issues gref (words 0x22 4 7 5 0) (atomSpec (words 0x22 4 7 5 0) 1 1 true) grp blk0 ∧
    (onGroup grp).issues gref { words 7 4 7 5 6 with imm := 252 } (atomSpec { words 7 4 7 5 6 with imm := 252 } 1 1 true) grp blk0 ∧
    (∀ l ∈ grp.acting (words 7 4 7 5 6), grp.lsAddr { words 7 4 7 5 6 with imm := 252 } l + 4 ≤ blk0.window) := by
  refine ⟨⟨⟨by decide, by decide, by decide, rfl, rfl, by decide, by decide, by decide, by decide, .inl rfl⟩, by unfold Group.inKernel; decide, by decide, by decide⟩, by decide, ⟨⟨by decide, by decide, by decide, rfl, rfl, by decide, by decide, by decide, by decide, .inl rfl⟩, by unfold Group.inKernel; decide, by decide, by decide⟩, ⟨⟨by decide, by decide, by decide, rfl, rfl, by decide, by decide, by decide, by decide, .inl rfl⟩, by unfold Group.inKernel; decide, by decide, by decide⟩, ⟨⟨by decide, by decide, by decide, rfl, rfl, by decide, by decide, by decide, by decide, .inl rfl⟩, by unfold Group.inKernel; decide, by decide, by decide⟩, by decide⟩

theorem wit_memoryTraps :
    (onGroup grp).issues gref (words 4 4 8 0 0) (memSpec (.regs 1) .unused .unused 2 true false true) grp blk0 ∧
    ((grp.acting (words 4 4 8 0 0)).filter fun l => !(onGroup grp).addrOk blk0 (grp.addr (words 4 4 8 0 0) l)) ≠ [] ∧
    memModOk 4 = true ∧ atomModOk 0x12 = true ∧
    (onGroup grp).issues gref (words 0x12 4 6 8 0) (atomSpec (words 0x12 4 6 8 0) 2 2 true) grp blk0 ∧
    ((grp.acting (words 4 4 5 0 0)).filter fun l => grp.lsAddr (words 4 4 5 0 0) l % 4 != 0) = [0] ∧
    (onGroup grp).issues gref (words 4 4 5 0 0) (memSpec (.regs 1) .unused .unused 1 true false false) grp blk0 := by
  refine ⟨⟨⟨by decide, by decide, by decide, rfl, rfl, by decide, by decide, by decide, by decide, .inl rfl⟩, by unfold Group.inKernel; decide, by decide, by decide⟩, by decide, by decide, by decide, ⟨⟨by decide, by decide, by decide, rfl, rfl, by decide, by decide, by decide, by decide, .inl rfl⟩, by unfold Group.inKernel; decide, by decide, by decide⟩, by decide, ⟨⟨by decide, by decide, by decide, rfl, rfl, by decide, by decide, by decide, by decide, .inl rfl⟩, by unfold Group.inKernel; decide, by decide, by decide⟩⟩

theorem wit_loadsServedByTheCore :
    ((withLine .s grp).issues gref (words 4 4 8 0 0) (memSpec (.regs 1) .unused .unused 2 true false true) grp blk0 ∧
      ∀ l ∈ grp.acting (words 4 4 8 0 0), grp.addr (words 4 4 8 0 0) l % 4 = 0 ∧ (withLine .s grp).inHbm (grp.addr (words 4 4 8 0 0) l) = true ∧
        ∃ z, (withLine .s grp).l1Line ((withLine .s grp).l1Key gref) (grp.addr (words 4 4 8 0 0) l / 128) = some z ∧ z.st.readable = true ∧
          bit z.valid (grp.addr (words 4 4 8 0 0) l / 32 % 4) = true) ∧
    ((withLine .s grp).issues gref (words 8 4 8 12 0) (memSpec (.regs 1) (.regs 1) .unused 2 true false true) grp blk0 ∧
      rangesApart 4 4 12 4 = true ∧ rangesApart 4 4 8 2 = true ∧ rangesApart 12 4 8 2 = true ∧ 12 + 4 ≤ grp.regsPer ∧
      unsigned 64 ((grp.regs' 31 8 2 : Int) + (words 8 4 8 12 0).offset + (grp.reg 31 (12 + 3) : Int) * 2 ^ 2) = 0) ∧
    ((withLine .s grp).issues gref (words 6 4 8 0 0) (memSpec (.regs 4) .unused .unused 2 true false true) grp blk0 ∧
      ((withLine .s grp).core 15 5).const? 0 = some 9 ∧ blk0.argBase + blk0.argLen < 0 + 16) := by
  refine ⟨⟨⟨⟨by decide, by decide, by decide, rfl, rfl, by decide, by decide, by decide, by decide, .inl rfl⟩, by unfold Group.inKernel; decide, by decide, by decide⟩, fun l h => ⟨?_, ?_, lineOf .s, ?_, rfl, ?_⟩⟩, ⟨⟨⟨by decide, by decide, by decide, rfl, rfl, by decide, by decide, by decide, by decide, .inl rfl⟩, by unfold Group.inKernel; decide, by decide, by decide⟩, by decide⟩, ⟨⟨by decide, by decide, by decide, rfl, rfl, by decide, by decide, by decide, by decide, .inl rfl⟩, by unfold Group.inKernel; decide, by decide, by decide⟩, by decide⟩ <;> revert l <;> decide

theorem wit_storesAndRequestsOfACore :
    ((withLine .e grp).issues gref (words 4 0 8 5 0) (memSpec .unused (.regs 1) .unused 2 true true false) grp blk0 ∧
      (∀ l ∈ grp.acting (words 4 0 8 5 0), grp.addr (words 4 0 8 5 0) l % 4 = 0 ∧ (withLine .e grp).inHbm (grp.addr (words 4 0 8 5 0) l) = true ∧
        grp.addr (words 4 0 8 5 0) l / 128 = 0) ∧
      (withLine .e grp).l1Line ((withLine .e grp).l1Key gref) 0 = some (lineOf .e) ∧ ((withLine .e grp).l1 ((withLine .e grp).l1Key gref)).isOpen 0 = false) ∧
    ((withLine .s grp).issues gref farLoad (memSpec (.regs 4) .unused .unused 2 true false true) grp blk0 ∧
      (withLine .s grp).l1Line ((withLine .s grp).l1Key gref) 1 = none ∧ grp.addr farLoad 31 / 128 = 1) ∧
    (withLine .s grp).issues gref (words 0xA4 4 8 0 0) (memSpec (.regs 1) .unused .unused 2 true false true) grp blk0 ∧ memModOk 0xA4 = true ∧
    (withLine .s grp).issues gref (words 0xC 0 8 5 0) (memSpec .unused (.regs 1) .unused 2 true true false) grp blk0 ∧
    (withLine .s grp).issues gref (words 0x17 4 8 10 12) (atomSpec (words 0x17 4 8 10 12) 2 2 true) grp blk0 := by
  refine ⟨⟨⟨⟨by decide, by decide, by decide, rfl, rfl, by decide, by decide, by decide, by decide, .inl rfl⟩, by unfold Group.inKernel; decide, by decide, by decide⟩, by decide, rfl, by decide⟩, ⟨⟨⟨by decide, by decide, by decide, rfl, rfl, by decide, by decide, by decide, by decide, .inl rfl⟩, by unfold Group.inKernel; decide, by decide, by decide⟩, by decide, by decide⟩, ⟨⟨by decide, by decide, by decide, rfl, rfl, by decide, by decide, by decide, by decide, .inl rfl⟩, by unfold Group.inKernel; decide, by decide, by decide⟩, by decide, ⟨⟨by decide, by decide, by decide, rfl, rfl, by decide, by decide, by decide, by decide, .inl rfl⟩, by unfold Group.inKernel; decide, by decide, by decide⟩, ⟨⟨by decide, by decide, by decide, rfl, rfl, by decide, by decide, by decide, by decide, .inl rfl⟩, by unfold Group.inKernel; decide, by decide, by decide⟩⟩

theorem wit_memoryFaultControlIgnored : (onGroup grp).stoppedOf 15 = [] ∧ (onGroup grp).stoppedOf 0 = [] := by decide

theorem wit_trapsAndMemoryFaults :
    (trapState.unitsRun = true ∧ (∀ q ∈ trapState.trapped 15, 5 ≤ q.2.2.2.turn) ∧
      ((trapState.trapped 15).filter fun q => q.2.2.2.turn == 5) = [(0, gref, trapGroup, { code := 11, user := 2047, lanes := 1, turn := 5 })]) ∧
    ((faultState 0).unitsRun = true ∧ gref.wf = true ∧ (faultState 0).group? gref = some (faultGroup 0) ∧ faultOp.pieces = [faultPiece] ∧
      faultPiece.faultCode = 1 ∧ (faultState 0).flag (R.corMemCfg 7) 16 = false ∧ (faultState 0).flag (R.corMfltInfo 15) 0 = false ∧
      ((faultState 0).setReg (R.corMfltInfo 15) 1).flag (R.corMfltInfo 15) 0 = true) ∧
    ((faultState 1).stoppedOf 15 = [(gref, faultGroup 1)] ∧ (faultState 1).partOfHalf 15 = some 15) ∧
    (∃ q ∈ (faultState 1).stoppedOf 15, q.2.faultRound ≠ 0 ∧ q.2.faultTimeout ≠ 0 ∧
      q.2.faultRound - 1 + q.2.faultTimeout * 1000 ≤ ({ faultState 1 with mod := { (faultState 1).mod with islandUs := 1000 } } : State).mod.islandUs) := by
  decide

theorem wit_blocksAndConfirmations :
    ((onGroup { grp with mask := 0 }).unitsRun = true ∧ (∃ x, Map.get? ((onGroup { grp with mask := 0 }).core 15 5).blocks 2 = some x) ∧
      ∀ q ∈ (onGroup { grp with mask := 0 }).blockGroups 15 5 2, q.2.done = true ∧ q.2.tilesOut = 0 ∧ q.2.unconf = []) ∧
    (shadowState.unitsRun = true ∧ shadowState.msgOf 3 .data = some shadowAnswer ∧ Map.get? shadowState.mem.conf 7 = some shadowEntry ∧
      Map.get? shadowState.mem.loads 9 = some shadowLoad ∧ shadowState.group? gref = some shadowGroup ∧ shadowGroup.unconf = [9] ∧
      shadowGroup.wait ≠ .memory ∧ shadowLoad.waits = [shadowAnswer.tag] ∧ shadowLoad.agrees shadowAnswer.line shadowAnswer.data = false ∧
      shadowLoad.agrees shadowAnswer.line 5 = true ∧
      ∀ q ∈ shadowState.cor.cores, q.1 / 128 = 15 → ∀ p ∈ q.2.groups, (p.2.window ++ p.2.replay).any (fun w => w.conf == 7) = true →
        q.1 = coreKey 15 gref.core ∧ p = (gref.slot, shadowGroup)) := by
  refine ⟨⟨by decide, ⟨_, rfl⟩, by decide⟩, by decide⟩

theorem wit_matrixTilesAccepted :
    (tileState.unitsRun = true ∧ (tileState.array 15).asks.find? (tileState.canSettle 15) = some tileAsk ∧ tileState.tileReason 15 tileAsk = 0 ∧
      tileAsk.desc = some tileDesc ∧ tileDesc.role = 0 ∧ tileState.group? gref = some submitGroup) ∧
    ((badTileState).unitsRun = true ∧ gref.wf = true ∧ (badTileState.array 15).asks.find? (badTileState.canSettle 15) = some { tileAsk with desc := none } ∧
      badTileState.tileReason 15 { tileAsk with desc := none } = 1) ∧
    (let s := pairState
     (s.array 15).asks.find? (s.canSettle 15) = some (pairAsk 0) ∧ s.tileReason 15 (pairAsk 0) = 0 ∧ (pairDesc 0).role ≠ 0 ∧
      s.mateHalf 15 (pairDesc 0) = some 13 ∧ s.mateAsk 15 13 (pairDesc 0) = some (pairAsk 1) ∧ (pairDesc 0).agrees (pairDesc 1) = true) ∧
    ((waitPair.array 15).asks = [pairAsk 0] ∧ waitPair.tileReason 15 (pairAsk 0) = 0 ∧ (waitPair.array 15).timeout ≠ 0 ∧
      (pairAsk 0).round + (waitPair.array 15).timeout ≤ waitPair.rnd.round) := by
  decide

theorem wit_matrixTilesRun :
    ((queuedTile .queued 0).unitsRun = true ∧ ((queuedTile .queued 0).array 15).staging = some (tileOf .queued 0) ∧
      ((queuedTile .queued 0).array 15).queue = [tileOf .queued 0] ∧ (queuedTile .queued 0).chunkPoisoned tileDesc false 0 32 = false ∧
      (tileOf .queued 0).acc.length = tileDesc.m * tileDesc.n) ∧
    ((queuedTile .queued 1).drawsOf 15 = [] ∧ (if tileDesc.full then 72 else 56) ≤ (queuedTile .queued 1).shareOf 15) ∧
    (((runningTile .main).array 15).running = [tileOf .main 1] ∧ tileDesc.chunks ≤ (tileOf .main 1).chunks) ∧
    (((runningTile .epi).array 15).running = [tileOf .epi 1] ∧ (runningTile .epi).writesOut (tagTile 15 0) = 0 ∧
      (runningTile .epi).group? (tileOf .epi 1).group = some submitGroup) := by
  decide

theorem wit_homeServesReadsAndOwnership :
    (∀ kind ∈ [MsgKind.getS, .getM], (homeState kind []).orders kind 3 (homeMsg kind) 0 ∧ (homeState kind []).dirHasRoom 0 ∧
      (homeState kind []).dirEntry 0 = none) ∧
    (homeState .getS [heldBy 7]).orders .getS 3 (homeMsg .getS) 0 ∧ (homeState .getS [heldBy 7]).dirEntry 0 = some (heldBy 7) ∧
    (homeState .upg [sharedBy [677, 7]]).orders .upg 3 (homeMsg .upg) 0 ∧ (homeState .upg [sharedBy [677, 7]]).dirEntry 0 = some (sharedBy [677, 7]) ∧
    677 ∈ (sharedBy [677, 7]).holders ∧ (homeState .rdNC []).valueHolder 0 = none ∧ (homeState .rdNC [heldBy 7]).valueHolder 0 = some 7 ∧
    (homeState .rdNC []).arrives .rdNC 3 (homeMsg .rdNC) ∧ ((homeState .rdNC []).letIn 0 3 (homeMsg .rdNC)).2 = true := by
  refine ⟨?_, ?_, by decide, ?_, by decide, by decide, by decide, by decide, by unfold State.arrives; decide, by decide⟩
  · intro k hk; unfold State.orders State.arrives State.dirHasRoom; revert k; decide
  · unfold State.orders State.arrives; decide
  · unfold State.orders State.arrives; decide

theorem wit_homeServesPutsWritesAndAtomics :
    (homeState .putM [heldBy 677]).orders .putM 3 (homeMsg .putM) 0 ∧ (homeState .putM [heldBy 677]).dirEntry 0 = some (heldBy 677) ∧
    (homeState .putF [{ heldBy 677 with st := .f, sharers := [7] }]).orders .putF 3 (homeMsg .putF) 0 ∧
    (homeState .putE []).orders .putE 3 (homeMsg .putE) 0 ∧ (homeState .putE []).dirEntry 0 = none ∧
    (homeState .wrNC []).orders .wrNC 3 (homeMsg .wrNC) 0 ∧ (homeState .atom []).orders .atom 3 (homeMsg .atom) 0 := by
  refine ⟨?_, by decide, ?_, ?_, by decide, ?_, ?_⟩ <;> unfold State.orders State.arrives <;> decide

theorem wit_homeTakesAnswers :
    (∀ kind ∈ [MsgKind.invAck, .fwdAck, .done], (homeState kind []).arrives kind 3 (homeMsg kind)) ∧
    (let s : State := { homeState .invAck [sharedBy [677]] with mem := { (homeState .invAck [sharedBy [677]]).mem with txns := [(0, evictTxn [677])] } }
     Map.get? s.mem.txns 0 = some (evictTxn [677]) ∧ 677 ∈ (evictTxn [677]).invDue ∧ (evictTxn [677, 7]).invDue.erase 677 ≠ []) ∧
    (let s : State := { homeState .fwdAck [heldBy 677] with mem := { (homeState .fwdAck [heldBy 677]).mem with txns := [(0, getsTxn (some 677))] } }
     Map.get? s.mem.txns 0 = some (getsTxn (some 677)) ∧ (getsTxn (some 677)).fwdDue = some 677 ∧ s.dirEntry 0 = some (heldBy 677)) ∧
    (homeMsg .fwdAck).confirm = false ∧ (getsTxn none).doneDue = [(677, .s)] := by
  refine ⟨?_, by decide, by decide, by decide, by decide⟩
  intro k hk; unfold State.arrives; revert k; decide

theorem wit_copiesTicketsRetriesAndScrubs :
    ((homeState .copy []).setReg (R.ucCfg 15) 4).unitsRun = true ∧ ((homeState .copy []).setReg (R.ucCfg 15) 4).fld (R.ucCfg 15) 3 0 = 4 ∧
    ((homeState .copy []).setReg (R.ucCfg 15) 4).homeOf 0 ≠ 15 ∧
    (let s : State := { homeState .getS [] with mem := { (homeState .getS []).mem with net := [(3, { homeMsg .getS with stage := .held, ticket := some 5 })] } }
     s.unitsRun = true ∧ s.msg? 3 = some { homeMsg .getS with stage := .held, ticket := some 5 } ∧ s.brokenRoute (.core 677) (.home 0) = none) ∧
    (ticketState.unitsRun = true ∧ (ticketState.ticketsOf 2).find? (fun t => t.no == 511) = some { no := 511, half := 4, expire := 0 }) ∧
    ((withLine .s grp).unitsRun = true ∧ (withLine .s grp).stackUp 0 = true ∧ ((withLine .s grp).setReg (R.ucCfg 0) 0x100).fld (R.ucCfg 0) 15 8 ≠ 0) := by
  decide

theorem wit_l1AnswersForwards :
    (∀ kind ∈ [MsgKind.invS, .fwdS, .fwdM, .fwdR, .recall], (l1State kind .m).receives kind 3 (l1Msg kind) 1925) ∧
    (∀ st ∈ [L1St.s, .f, .e, .m, .o], (l1State .invS st).l1Line 1925 0 = some (lineOf st)) ∧ (l1State .invS .m).kindF 0 = false ∧
    (l1State .fwdM .m).wakeFree 1925 = true ∧ (noWake (l1State .fwdM .m)).wakeFree 1925 = false ∧ (lineOf .s).hold = false ∧
    (l1Msg .fwdM).reqs = [(.core 677, 3)] ∧ (held (l1State .invS .s)).l1Line 1925 0 = some { lineOf .s with hold := true } := by
  refine ⟨?_, by decide, by decide, by decide, by decide, by decide, by decide, by decide⟩
  intro k hk; unfold State.receives State.arrives; revert k; decide

theorem wit_l1TakesAnswers :
    (∀ kind ∈ [MsgKind.data, .grant, .atomRsp, .doneAck, .release, .putAck], (l1State kind .m).arrives kind 3 (l1Msg kind)) ∧
    (∀ st ∈ [L1St.isD, .smG, .omG, .imD, .miA, .iiA], (l1State .data st).l1Line 1925 0 = some (lineOf st)) ∧
    (asking.groupOfTag 1925 4 = some gref ∧ asking.group? gref = some askGroup ∧ askGroup.memop = some askOp ∧
      (∀ p ∈ askOp.pieces, p.addr / 128 = 0 ∧ p.st = .out)) ∧
    ((opened.logicalOf 15 5 = some 5) ∧ takeFirst (fun q => q.1 == 0) (opened.l1 1925).opens = some ((0, [2]), []) ∧
      opened.group? gref = some grp ∧ grp.wait = .ready) ∧
    takeFirst (fun w : WakeCopy => w.line == 0) ((noWake (l1State .release .m)).l1 1925).wake =
      some ({ line := 0, valid := 15, data := 9 }, List.replicate 7 { line := 0, valid := 15, data := 9 }) ∧
    (held (l1State .invS .s)).unitsRun = true ∧ coreKey 15 5 = 1925 ∧ (held (l1State .invS .s)).l1Line 1925 0 = some { lineOf .s with hold := true } := by
  refine ⟨?_, by decide, by decide, by decide, by decide, by decide, by decide, by decide⟩
  intro k hk; unfold State.arrives; revert k; decide

theorem wit_colSlotsReplaysAndRetirement :
    colState.unitsRun = true ∧ colState.col 0 = colSt ∧ colSt.carries = true ∧ colSt.active.findIdx? (· == 3) = some 3 ∧
    (colSt.dir 1).held.find? (fun f => f.seq == colState.colTurn 0) = some (colFrame 128) ∧ (colFrame 128).rides = [] ∧
    (colSt.dir 1).sent.find? (fun f => f.seq % 65536 == 126) = some (colFrame 126) ∧
    (colSt.dir 1).due.find? (fun r => r.seq == 126 && r.slot == 0) = none ∧
    colState.dueMarks 0 = [{ group := 5, cause := 0, landed := some 100 }] ∧ 5 ∈ colSt.active ∧ 5 ∉ colSt.spares ∧ colSt.spares.getLast? = some 43 ∧
    0 ∈ colsOf 0 ∧ colState.seqRuns 0 = true ∧ 41 ∈ colSt.retraining ∧
    thinState.dueMarks 0 = [{ group := 5, cause := 0, landed := some 100 }] ∧ (thinState.col 0).spares = [] ∧ 7 < (thinState.col 0).g := by
  decide

theorem wit_channelsDoorbellsAndRecords :
    (chanState .active).unitsRun = true ∧ (chanState .active).chan 7 = chan7 .active ∧ (chan7 .active).entry = some entry7 ∧ entry7.enable = true ∧
    dist32 (chan7 .active).head 9 ≤ 2 ^ entry7.sqLog2 ∧ dist32 (chan7 .active).head (chan7 .active).tail ≤ dist32 (chan7 .active).head 9 ∧
    (chanState .active).jobs.inval = none ∧ (chanState .active).rnd.running = true ∧
    (flushing 1).hubActs = true ∧ (flushing 1).chanJobs 7 = [(4, jobOf .admitted)] ∧ (flushing 0).chanJobs 7 = [] ∧
    ((flushing 1).chan 7).flushTail = some 8 ∧
    (chanState .active).hubActs = true ∧ (chanState .active).toVisit = [7] ∧ (chanState .active).inHbm (entry7.slot 8) = true ∧
    spanOf (entry7.slot 8) = spanOf (entry7.slot 8 + 63) ∧ (chanState .active).poisoned (entry7.slot 8) 64 = false ∧
    (let b := (chanState .active).deviceBytes (entry7.slot 8) 64
     itemFault b 3 8 6 = 0 ∧ fieldAt b 0 1 = 1 ∧ fieldAt b 1 1 = 1 ∧ bit (fieldAt b 5 1) 0 = false ∧ itemFault b 4 8 6 ≠ 0) ∧
    (∃ j, (chanState .active).freeJob = some j) ∧
    dist32 (chan7 .active).cqHead (chan7 .active).posted < 2 ^ entry7.cqLog2 ∧
    (changing.hubActs = true ∧ changing.atBoundary = true ∧ changing.jobOfSeq 7 3 = some (4, jobOf .admitted)) := by
  refine ⟨by decide, by decide, by decide, by decide, by decide, by decide, by decide, by decide, by decide, by decide, by decide, by decide,
    by decide, by decide, by decide, by decide, by decide, by decide, Option.isSome_iff_exists.mp (List.find?_isSome.mpr ⟨0, by simp, by decide⟩), by decide, by decide⟩

theorem wit_jobsAdmittedDispatchedAndPhased :
    (let s := planState (jobOf .read) none
     s.job? 4 = some (jobOf .read) ∧ s.hubActs = true ∧ s.mayAdmit 4 (jobOf .read) = true ∧ s.writesOut tagHub = 0) ∧
    (let s := planState (jobOf .admitted) none
     Map.sorted s.jobs.jobs = true ∧ s.atBoundary = true ∧ s.mod.power = .run ∧ s.mod.readyReq = false ∧ s.holderOf 15 = none ∧
     s.noDispatch 15 = false ∧ s.nextJob 15 = some (4, jobOf .admitted)) ∧
    (let s := planState inPhase (some 4)
     s.holderOf 15 = some 4 ∧ s.partRec 15 = some part15 ∧ inPhase.drained = maskOf part15.peaks ∧ s.phaseJob 4 = some inPhase ∧
     s.jobHalves inPhase 7 = [(15, 0)] ∧ s.seqRuns 7 = true ∧ (s.partOfHalf 15).bind s.holderOf = some 4 ∧
     (s.physOf 15 5).any (s.coreGood 15) = true ∧ (s.drawsOf 15).any (fun d => d.unit == 5) = true ∧ s.drawGranted 15 5 = true) := by
  decide
theorem wit_aJobHasAPhase : ((planState inPhase (some 4)).jobPhase inPhase).isSome = true := by decide +kernel
theorem wit_aTileWaits :
    (planState inPhase (some 4)).waitingTiles inPhase 15 0 5 [{ half := 0, core := 5, groups := 1, rest := 0, param := 0 }] =
      [(0, { half := 0, core := 5, groups := 1, rest := 0, param := 0 })] := by decide +kernel
set_option maxRecDepth 100000 in
theorem wit_anAdmissionPasses :
    let s := planState (jobOf .read) none
    (s.admitCheck (jobOf .read)).1 = s ∧ (s.admitCheck (jobOf .read)).2.1 = 0 ∧ (s.admitCheck (jobOf .read)).2.2.isSome = true ∧
    s.clientRun 3 < s.clientQuota 3 := by decide +kernel

theorem wit_peakCommandsAndPatches :
    (let s := resetPart15
     s.unitsRun = true ∧ s.partActive 15 = some { kind := 3, target := 15, port := 0, cause := 2, done := false } ∧ s.partRec 15 = some part15 ∧
     s.seqRuns 8 = true ∧ s.seqRuns 7 = true ∧ s.mem.net = [] ∧ s.mem.txns = [] ∧ s.holderOf 15 = some 4 ∧ s.job? 4 = some inPhase) ∧
    (let s := cleansing
     s.unitsRun = true ∧ s.seqRuns 7 = true ∧ s.shift = some ({ noSwap with start := 1, live := true }, emptyImage 0, regionImage) ∧
     s.mayCleanse { noSwap with start := 1, live := true } (emptyImage 0) = true ∧ changedRegions (emptyImage 0) regionImage ≠ [] ∧
     s.dieOn 7 = true) ∧
    ((peakTry 7 2 0).boot.running = true ∧ (peakTry 7 2 0).peakSt 7 ∈ [1, 2, 5]) ∧
    (cleansing.boot.running = false ∧ (cleansing.partOfHalf 15).bind cleansing.holderOf = none) ∧
    (patching.seq.applying = some patch5 ∧ patching.seqGoes 8 = true ∧ bit patching.seq.mustSwitch 7 = true ∧
      patching.flag R.seqPatchStatus 12 = false) ∧
    ((switching.seqGoes 7 = true ∧ switching.seqPhase 7 = 0) ∧ switching.topEvent 7 = 3 ∧ (switching.seqSt 7).staged = some 5) := by decide
theorem wit_aPatchIsAccepted :
    (keyed 0x900000).slotBad 2 1 = 0 ∧ ((keyed 0x900000).slotPatch 1).2 = 0 ∧ (keyed 0x900000).seq.applying = none ∧
    (keyed 0x900000).img.swap = none :=
  ⟨slot5_patch.1, slot5_patch.2, by decide, by decide⟩

theorem wit_sequencersRunCommandsAndWords :
    ((running 0 addWord).seqGoes 7 = true ∧ (running 0 addWord).seqPhase 7 = 0 ∧ (running 0 addWord).topEvent 7 = 0) ∧
    ((running 1 addWord).seqPhase 7 = 1 ∧ (running 1 addWord).fetchWord 7 [] = (running 1 addWord, some (MicroWord.ofNat addWord)) ∧
      (MicroWord.ofNat addWord).ok false = true ∧ (MicroWord.ofNat addWord).hold = false ∧ (MicroWord.ofNat addWord).busOp = 0 ∧
      (MicroWord.ofNat addWord).nxMode = 0 ∧ (MicroWord.ofNat addWord).aluOp = 1) ∧
    ((running 1 (addWord + 2 ^ 86)).fetchWord 7 [] = (running 1 (addWord + 2 ^ 86), some (MicroWord.ofNat (addWord + 2 ^ 86))) ∧
      (MicroWord.ofNat (addWord + 2 ^ 86)).hold = true ∧ (running 1 (addWord + 2 ^ 86)).microCond 7 0 = false) ∧
    ((running 1 (addWord + 2 ^ 121)).fetchWord 7 [] = (running 1 (addWord + 2 ^ 121), some (MicroWord.ofNat (addWord + 2 ^ 121))) ∧
      (MicroWord.ofNat (addWord + 2 ^ 121)).ok false = false) ∧
    ((running 1 addWord).fetchWord 7 [0, 1]).2 = none ∧
    ((running 2 (addWord + 2 ^ 13)).fetchWord 7 [] = (running 2 (addWord + 2 ^ 13), some (MicroWord.ofNat (addWord + 2 ^ 13))) ∧
      (running 2 (addWord + 2 ^ 13)).seqPhase 7 = 2 ∧ (running 2 (addWord + 2 ^ 13)).microCond 7 1 = true) ∧
    (opcodeKnown 7 (((running 1 addWord).seqSt 7).cmd.headD 0 % 64) = false ∧ ((running 1 addWord).seqSt 7).serving = 0) ∧
    ((latched true []).topEvent 7 = 4 ∧ (latched false [[1, 2, 3, 4]]).topEvent 7 = 5) ∧
    ({ running 1 addWord with rnd := { hostUp.rnd with round := 40 } } : State).fld (R.seqCfg 8) 11 0 <
      ({ running 1 addWord with rnd := { hostUp.rnd with round := 40 } } : State).cmdTurns 7 := by decide +kernel

theorem wit_hostLinksAccessesAndCompletions :
    (hostUp.isUp = true ∧ hostUp.linkUp 1 0 = false ∧ hostUp.fld (R.hptPortCfg 1) 2 1 ≤ 2 ∧ 16 ≤ hostUp.fullLanes 1 ∧ hostUp.endpointOf 1 63 = 0) ∧
    (hostUp.setReg (R.hptLink 1) 0x81).linkUp 1 0 = true ∧
    (let s := withLine .s grp
     s.pwr.halted = false ∧ s.flag R.fltStatus 0 = false ∧ s.inHbm (s.bar2Addr 0 0 124) = true ∧ s.inHbm (s.bar2Addr 0 0 124 + 4 - 1) = true ∧
     s.bar2Addr 0 0 124 / 128 = (s.bar2Addr 0 0 124 + 4 - 1) / 128 ∧ s.writesOut (tagBar2 (funcKey 0 0)) = 0 ∧
     Map.getD s.hst.bar2Out (funcKey 0 0) [] = [] ∧ hostUp.inHbm (hostUp.bar2Addr 0 0 124) = false) ∧
    (2047 ∈ (masked.hostFunc 1 5).pend ∧ (masked.hostFunc 1 5).enabled = true ∧ (masked.hostFunc 1 5).msix = true ∧ 3 ∉ (masked.hostFunc 1 5).pend) ∧
    (asked.unitsRun = true ∧ Map.get? asked.hst.reads 6 = some askRead ∧ asked.group? gref = some askGroup ∧ askGroup.memop = some askOp ∧
      askOp.pieces ≠ [] ∧ (∀ p ∈ askOp.pieces, p.addr / 128 = 0 ∧ p.st = .out)) ∧
    Map.get? asked.hst.reads 7 = some { askRead with who := .seq 8 0 } := by decide

theorem wit_mapCachesHostDmaAndPageStreams :
    (hostUp.hst.swmInval = none ∧ hostUp.hst.pstInval = none ∧ hostUp.hst.swmHeld = none) ∧
    (dmaReady.unitsRun = true ∧ dmaReady.hostDma? 7 = none ∧ 4 ≤ dmaReady.poolSize ∧ hostUp.poolSize < 4 ∧ dmaReady.dmaRanges
      { src := dmaReady.pair (R.hptDmaSrcLo 7) (R.hptDmaSrcHi 7), dst := dmaReady.pair (R.hptDmaDstLo 7) (R.hptDmaDstHi 7),
        len := dmaReady.fld (R.hptDmaLen 7) 24 0, mask := 0, irq := true, vector := 2047, sent := 0, lines := 0 } = true) ∧
    (dmaDone.hostDma? 7 = some doneDma ∧ doneDma.len ≤ 128 * doneDma.lines ∧ dmaDone.poolHas (.hostDma 7) = true ∧
      dmaDone.writesOut (tagHostDma 7) = 0) ∧
    (streaming.pwr.halted = false ∧ streaming.flag R.fltStatus 0 = false ∧ streaming.isPf 1 0 = true ∧ streaming.stream 63 = openStream ∧
      openStream.desc = some pageDesc ∧ pageDesc.enable = true ∧ openStream.lens = [5] ∧ openStream.ended = true ∧
      streaming.unitsRun = true ∧ openStream.st = 1 ∧ streaming.fld R.pstTimeout 15 0 ≠ 0 ∧
      openStream.since + 1000 * streaming.fld R.pstTimeout 15 0 ≤ streaming.mod.islandUs ∧ openStream.producer ≠ some .tarn) := by decide

theorem wit_ringPortsMarksAndDepartures :
    (ringUp.rng.switchesOpen = true ∧ ringUp.portSt 1 = 2 ∧ ringUp.mod.power = .run ∧ (ringUp.rport 1).turns % 8192 = 8191 ∧
      (ringUp.rport 0).turns % 8192 ≠ 8191 ∧ (ringUp.rport 1).naks = [] ∧ (ringUp.rport 1).damaged = [] ∧ (ringUp.rport 1).held = [] ∧ ringUp.myId = 3 ∧
      (ringUp.rport 1).sent.find? (fun f => f.turn % 65536 == 65535) = some frame1 ∧ (ringUp.rport 1).replays = []) ∧
    (aMark.name = ringUp.fld R.rngIdCfg 31 16 ∧ aMark.origin ≠ ringUp.myId ∧ aMark.hops < 32 ∧
      Map.get? ringUp.rng.members 31 = some { mark := aMark, missing := some 5 } ∧
      5 + 1000 * ringUp.fld R.rngCfg 31 16 ≤ ringUp.mod.islandUs) ∧
    (ringShut.mod.power = .run ∧ ringShut.flag R.rngCfg 0 = true ∧ ringShut.mod.bypassReq = false ∧ ringShut.rng.departing = none ∧
      ringShut.rng.switchesOpen = false ∧ ringShut.flag R.fltStatus 0 = false ∧ ringShut.portSt 0 = 0) ∧
    (ringNak.mod.power = .run ∧ ringNak.portSt 0 = 2 ∧ (ringNak.rport 0).naks = [(65535, 59, 2)] ∧ (ringNak.rport 0).turns % 8192 ≠ 8191) ∧
    (ringUp.rng.firstUp = some 0 ∧ ringUp.rng.joining = true ∧ 0 + 2000 ≤ ringUp.mod.islandUs ∧ ringUp.unitsRun = true ∧
      ringUp.rng.departing = none ∧ ringUp.rnd.running = true ∧ ringUp.pwr.halted = false) := by decide

theorem wit_ringRequestsAnswersDmaAndCensus :
    (ringRx.pwr.halted = false ∧ ringRx.rng.switchesOpen = true ∧ takeRx .put ringRx.rng.rx [] = some ((1, rpkt .put 0), ringRx.rng.rx.tail) ∧
      ringRx.admitRing false (rpkt .put 0) = .run ∧ ringRx.admitRing true (rpkt .put 0) = .stale ∧
      ringRx.admitRing false { rpkt .put 0 with seq := 8 } = .drop ∧ ringRx.admitRing false { rpkt .put 0 with seq := 6 } = .old ∧
      ringRx.inboundAddr (rpkt .put 0) (ringRx.flag R.rngIn 29) = (2 ^ 30, 0) ∧ (2 ^ 30) % 128 = 0 ∧ (rpkt .put 0).byteMask = 2 ^ 128 - 1) ∧
     ((ringRx.inboundAddr { rpkt .put 0 with offset := 2 ^ 30 } true).2 = 1 ∧ (ringRx.inboundAddr (rpkt .put 0) false).2 = 2 ∧
      ringRx.pairBusy (rpkt .get 0) = false ∧ ringRx.poisoned (2 ^ 30) 128 = false ∧ ringRx.flag (R.rngMboxBind 255) 31 = false ∧
      (Map.getD ringRx.rng.answers (pairKey 31 4) []).find? (fun a => a.seq == 6) = some (ringRx.answerTo { rpkt .put 0 with seq := 6 } .putAck 0 0) ∧
      ringRx.rng.census = none ∧ ringRx.inHbm (ringRx.censusBuf + 64 + 64 * 31) = true) ∧
    (ringAns.answeredTxn { ownPkt with kind := .putAck } = some (12, ownTxn) ∧
      takeRx .putAck ringAns.rng.rx [] = some ((0, { ownPkt with kind := .putAck }), []) ∧ ringAns.rtxn? 12 = some ownTxn ∧
      ringAns.ringDma? 7 = some ownDma ∧ ringAns.rng.txns = [(12, ownTxn)] ∧ ringAns.timerRuns ownTxn = true ∧
      ownTxn.tries < ringAns.fld R.rngCfg 15 8) ∧
    (ringCopy.unitsRun = true ∧ ringCopy.ringDma? 7 = none ∧ 4 ≤ ringCopy.poolSize ∧ ringUp.poolSize < 4 ∧ ringCopy.ringRanges
      { src := ringCopy.pair (R.rngDmaSrcLo 7) (R.rngDmaSrcHi 7), dst := ringCopy.pair (R.rngDmaDstLo 7) (R.rngDmaDstHi 7),
        len := ringCopy.fld (R.rngDmaLen 7) 24 0, mask := 0, irq := true, db := true, vector := 2047, mbox := 255,
        value := 0, sent := 0, lines := 0, halting := false } = true) ∧
    (ringMember.maySend = true ∧ ringMember.portSt 0 = 2 ∧ ringMember.portSt 1 = 2 ∧ ringMember.rng.census = none ∧ ringMember.unitsRun = true ∧
      ringMember.myInc = 0 ∧ ringSweep.rng.census = some aSweep ∧ aSweep.reissued = false ∧ 1 ≤ popCount 32 aSweep.east) := by
  refine ⟨?_, ?_, ?_, ?_, ?_⟩ <;> decide +kernel

set_option maxRecDepth 4000 in
theorem wit_tarnPassesUartsLinAndConsole :
    (tarnReady.unitsRun = true ∧ tarnReady.trn.pass = none ∧ tarnReady.nextQueue = some 3 ∧ tarnReady.rangeOk 0x1000 64 = true ∧
      inSwm 0x1000 = false ∧ tarnReady.poisoned 0x1000 64 = false ∧ 16 ≤ tarnReady.poolSize ∧ tarnReady.poolHas .tarn = false ∧
      (tarnReady.parsePass 3 0 0x1000 (tarnReady.deviceBytes 0x1000 64)).2 = true ∧ (hostUp.parsePass 3 0 0x1000 (hostUp.deviceBytes 0x1000 64)).2 = false ∧
      fieldAt (tarnReady.deviceBytes 0x1000 64) 1 1 = 1 ∧ (tarnReady.parseLayer (tarnReady.deviceBytes 0x2000 32)).2 = true ∧
      (tarnReady.parseLayer (tarnReady.deviceBytes 0x2000 32)).1.scree = false ∧ fieldAt (tarnReady.deviceBytes 0x1000 64) 0x18 8 = 0x2000) ∧
    (tarnReady.funcOk 0 0 = true ∧ tarnReady.isPf 0 0 = true ∧ tarnReady.isCtl 0 0 = true ∧
      tarnReady.reg (R.trnQHead 3) ≠ tarnReady.reg (R.trnQTail 3)) ∧
    (tarnRuns.trn.pass = some aPass ∧ tarnRuns.unitsRun = true ∧ aPass.granted = true ∧ aPass.bg.length = 4 ∧ aPass.kind = 0 ∧ aPass.tiles = 0 ∧
      tarnRuns.writesOut tagTarn = 0 ∧ ({ aPass with tiles := 1 } : TarnPass).total = 1 ∧ inSwm aPass.addr = false) ∧
    (rxBits 0x0840001A (lineOf8 0x41) = some (charCells 0x400000 0x41) ∧ rxClass 0x0840001A (charCells 0x400000 0x41) = 0x41 ∧
      serialState.mod.power ≠ .off ∧ uartMode (serialState.reg (R.uCfg 0)) = 0 ∧ (serialState.uart 0).rx.length = 64 ∧ (serialState.uart 1).rx = [] ∧
      (serialState.uart 0).shift.isSome = true ∧ (serialState.uart 1).cfg = some (2, 5) ∧ serialState.uartBetween 0 = false) ∧
    (linState.linRuns = true ∧ linState.ser.frame = none ∧ linState.linDue 7 = true ∧ (∀ j < 7, linState.linDue j = false) ∧
      linState.uartBetween 1 = true ∧ linState.flag R.glbOsc 1 = false ∧ linResult aFrame [0x55, 0x50] [(1, true), (linCheck aFrame.desc [1], true)] = 0 ∧
      linResult aFrame [0x55, 0x50] [] = 4 ∧ linResult aFrame [0x55, 0x51] [] = 1) ∧
    (serialState.heldLine.bind commandSource = some 7 ∧ serialState.crn.consoleRead = none) := by
  refine ⟨?_, ?_, ?_, ?_, ?_⟩ <;> decide +kernel

set_option maxRecDepth 4000 in
theorem wit_jtagDebugCairnsFaceplateAndFaults :
    (hostUp.flag R.jtgPolicy 0 = true ∧ hostUp.flag R.jtgPolicy 1 = true ∧ bits (hostUp.reg R.glbIdent) 23 16 = 0x10 ∧ tableAt true 0x1FFFFFC = none ∧
      (locked.flag R.jtgPolicy 0 = false ∧ locked.flag R.jtgPolicy 1 = false)) ∧
    (hostUp.crn.snap = none ∧ hostUp.boot.active = [] ∧ hostUp.mod.toStandby = none ∧ hostUp.crn.thermalStandby = false ∧
      snapping.crn.snap = some { slot := 0, number := 1, code := 0x1101, triggers := 1, round := 0, us := 0 } ∧ hostUp.unitsRun = true ∧
      hostUp.crn.streamRead = none ∧ snapValid hostUp.store.mem 7 = false ∧ (hostUp.bindStream 63 .cairn).2 = false ∧
      (streamable.bindStream 63 .cairn).2 = true ∧ streamable.crn.streamRead = none ∧
      (latching.cairn (latching.fld R.crnRdSel 4 0)).entries[latching.fld R.crnRdSel 29 16]? = some anEntry ∧ latching.fld R.crnRdSel 4 0 = 8) ∧
    (plating.crn.drawing = none ∧ plating.crn.queued = some 2) ∧
    (noticed.unitsRun = true ∧ noticed.mayServe 8 1 = true ∧ noticed.flt.notices = [tarnNotice] ∧ tarnNotice.kind = 11 ∧ tarnNotice.parts = 0 ∧
      noticed.flt.records.length = 32 ∧ hostUp.flag R.crnCfg 0 = false) := by
  refine ⟨?_, ?_, ?_, ?_⟩ <;> decide +kernel

/-- Words that fit, and a group slot of a col that does. -/
def wordF : CoreFields := words 0 4 5 0 0
def slotG : GroupSlot := { group := 8, seq := 0, slot := 8, replay := false, mapver := 0, replaySeq := 0, replaySlot := 0, crcOk := true }

/-! ### Ill-formed commands that the check refuses, one or more for each check -/

theorem test_wf_access : ∀ c ∈ [Instr.registerWrite 2 0 0 0, .registerWrite 0 64 0 0, .registerWrite 0 0 (2 ^ 25) 0, .loHalfWrite 2 0 0 0,
    .hiHalfWrite 0 64 0 0, .selectorWrite 0 0 (2 ^ 25) 0, .bar0BadAccess true 8 4, .bar0BadAccess false 0 8, .bar0BadAccess true (2 ^ 25 + 1) 4,
    .mboxRead (2 ^ 23), .mboxWrite (2 ^ 23) 0, .bar2Read 0 0 0 0, .bar2Read 0 0 0 4097, .bar2Write 0 0 0 [256] false, .msixUnmask 0 0 2048,
    .pageViewRead 0 0 64 0 4, .pageViewRead 0 0 0 (2 ^ 17) 4, .pageViewRead 0 0 0 0 0, .pageAck 0 0 64 0, .streamAbort 2 0 0,
    .atomicopRefuse 2 0, .translationRequestRefuse 0 64, .hostCompletion 0 8 [], .hostCompletion 0 0 [256]], c.wf = false := by decide +kernel
theorem test_wf_module : ∀ c ∈ [Instr.j1Sample (2 ^ 16) 0, .enterStandbyFromOff 32, .perstDeassert 32, .slotIdCompare 32, .converterTileFail 24,
    .bootStepWave1 [(14, 0)], .bootStepWave2 [(0, 2 ^ 9)], .bootStepCrossCols [(14, 0)], .bootStepHbm 256, .peakLagging 8, .peakSecondAttempt 8,
    .peakFailed 8, .peakReportUp 8 { badA := 0, badB := 0, vcalA := 0, vcalB := 0 }, .selfTest 0 { badA := 2 ^ 72, badB := 0, vcalA := 0, vcalB := 0 },
    .resetCold (2 ^ 16), .resetWarm (2 ^ 16), .resetPartition 0 128, .resetFunctionLevel 0 0 2, .resetSequencer (2 ^ 16) 0, .partitionResetComplete 16,
    .sequencerResetComplete 9, .flrConfig 2 0, .flrComplete 0 64 true true, .hostHotReset 0 2 true, .vfEnableClear 2 0, .linkUp 0 0 3 16 [],
    .linkUp 0 0 0 0 [], .linkUp 0 0 0 17 [], .linkUp 0 0 0 16 [(64, true)], .linkDown 0 2], c.wf = false := by decide +kernel
theorem test_wf_image : ∀ c ∈ [Instr.promoteImage 16, .imageLoad 2 0, .imageLoad 0 16, .imageCommit (2 ^ 16), .epochMarkAck 9, .partitionOpen 16,
    .hopFrameSend 7 0 0 0 [], .hopFrameSend 5 2 0 0 [], .hopFrameSend 0 0 2 0 [], .hopFrameSend 0 0 0 128 [], .handshakeStall (.core 15 72),
    .handshakeStall (.array 16), .handshakeStall (.stack 8), .handshakeStall (.colEnd 14 0), .handshakeStall (.otherUnit 9 0), .floorGateAdmit 16,
    .roundBoundary { ext := [16], canary := [], slow := [] }, .roundBoundary { ext := [], canary := [(0, 8, 0)], slow := [] },
    .roundBoundary { ext := [], canary := [], slow := [(16, 0)] }], c.wf = false := by decide +kernel
theorem test_wf_cores : ∀ c ∈ [Instr.iadd { half := 16, core := 0, slot := 0 } wordF, .iadd { half := 0, core := 72, slot := 0 } wordF,
    .iadd { half := 0, core := 0, slot := 64 } wordF, .ld { half := 0, core := 0, slot := 0 } { wordF with pred := 8 },
    .st { half := 0, core := 0, slot := 0 } { wordF with d := 256 }, .mov { half := 0, core := 0, slot := 0 } { wordF with imm := 2048 },
    .bra { half := 0, core := 0, slot := 0 } { wordF with long := true, w1 := 2 ^ 64 }, .sel { half := 0, core := 0, slot := 0 } { wordF with w1 := 1 },
    .barComplete 0 0 0 16, .blockEnd 0 72 0, .trapReport 16, .trapClear 16, .resumableFaultReport { half := 16, core := 0, slot := 0 },
    .mfltResume 16, .tileLaunch 0 72, .tileAccept 16, .leaveGrant 16, .droopKick 0 8 0, .junctionWarn 0 256, .junctionHotClear [],
    .junctionTrip 16 0, .hbmIdleSelfRefresh 8, .patrolScrub 8 [] [], .ticketExpire 0 (2 ^ 16), .l1HoldEnd 0 72 0], c.wf = false := by decide +kernel
theorem test_wf_links : ∀ c ∈ [Instr.colGroupSlotReceive 14 0 slotG, .colGroupSlotReceive 0 0 { slotG with group := 9 },
    .colGroupSlotReceive 0 0 { slotG with slot := 9 }, .colNakReceive 0 2 0 0, .colCreditReturn 0 0 [(256, 0)], .colLockLoss 0 9,
    .colRetireMessage 14 0, .colSpareReplace 14, .colDegrade 14, .colFail 14 true, .colRetrainDone 0 9 true, .colCtlRetrain 8, .ringPortUp 2 0 0 0 0 0,
    .ringPortUp 0 0 0 32 0 0, .ringPortDown 2, .ringFrameSend 2, .ringSlotReceive 0 0 0 none true { rpkt .put 0 with src := 32 },
    .ringCredit 0 2 0, .rollMark 0 { aMark with origin := 32 }, .departureMark 0 32 0, .memberAbsent 32, .ringRetryTimer 0 2048, .ringDmaStart 8 0,
    .ringDmaDone 8, .censusToken 0 { origin := 32, sweep := 0, reverse := false, returning := false, visited := 0, inc := 0 }], c.wf = false := by decide +kernel
theorem test_wf_engines : ∀ c ∈ [Instr.doorbellTail 0 0 4096 0, .doorbellCqHead 0 0 0 (2 ^ 32), .chnEnable 4096, .flushComplete 4096, .postCompletion 4096,
    .hubPartitionReset 16, .peakPhaseStart 8 0, .peakPartitionReset 0 16, .cleanse 8, .coreRemap 8, .unknownOpcode 9, .microwordExecute 9 [],
    .commandBoundary 0 [[0]], .patchSwitch 9, .hostDmaStart 8 0, .streamTimeout 64, .tarnQueueTail 4 0, .uartDataRead 2, .linFrameEnd [256] [],
    .linResponseTimeout [] [(256, true)], .jtagExtest false false (2 ^ 13), .dbgArm (2 ^ 16), .dbgStep 0 64, .dbgHaltSequencers (2 ^ 9),
    .unitFaultDetect (.coreStore 16 0), .unitFaultDetect (.sliceSector 0 0 4 0), .unitFaultDetect (.stackSector 8 0 0),
    .unitFaultDetect (.tarn 256), .unitFaultDetect (.resetLate 9)], c.wf = false := by decide +kernel
theorem test_wf_accepts : (Instr.iadd { half := 15, core := 71, slot := 63 } wordF).wf = true ∧ (Instr.mboxRead (2 ^ 23 - 1)).wf = true ∧
    (Instr.ringSlotReceive 1 0 0 none true (rpkt .put 0)).wf = true := by decide +kernel

/-! ### Values from the manual's worked examples -/

/-- "Homing one line of a farm render's texture set": H16, the hashed home and the set. -/
theorem test_home : hostUp.homeOf 0x6C347825 = 1 ∧ h16 0x6C347825 = 0x1411 ∧ Machine.setOf 13 0x6C347825 = 13 * 12288 + 10277 := by decide +kernel
/-- "Numbering half P2.A in both modes": bad cores 12, 14, 40 and the bad reserve 35. -/
theorem test_fixed_map : let m := fixedMap fun k => !([12, 14, 35, 40].contains k)
    m.length = 64 ∧ m[11]? = some 8 ∧ m[13]? = some 17 ∧ m[36]? = some 26 ∧ m[12]? = some 13 ∧ m[0]? = some 0 := by decide +kernel
/-- The register index's example: COR_MFLT_CTL of P1.B. -/
theorem test_register_address : R.corMfltCtl 3 = 0x01110B30 := by decide
/-- "One entry": the 32 bytes of event 0x0409, its payload packed by R851. -/
theorem test_cairn_entry :
    let pay := (packPayload [(1, 3), (1, 12), (1, 5), (1, 7), (1, 4), (1, 1), (8, 0x80000047)]).1
    ({ code := 0x0409, source := 0x11, flags := 0, uctx := 0, time := 0x123A40 * 128 + 0x25, payload := pay } : CairnEntry).bytes =
    [9, 4, 0x11, 0, 0, 0, 0, 0, 0x25, 0x20, 0x1D, 9, 0, 0, 0, 0, 3, 0xC, 5, 7, 4, 1, 0x47, 0, 0, 0x80, 0, 0, 0, 0, 0, 0] := by decide
/-- "One coolant status frame": the protected identifier and the enhanced checksum. -/
theorem test_lin_frame : linPid 0x10 = 0x50 ∧
    linCheck 0xA10 [0xF5, 0x00, 0x81, 0x01, 0xCC, 0x01, 0x23, 0x01] = 0x45 := by decide
/-- The stock settings: 115,200 b/s is div 26, frac 1; 19,200 b/s div 156, frac 4 in frame mode. -/
theorem test_uart_stock : (uartStock 0 0).map uartDiv16 = some (16 * 26 + 1) ∧ (uartStock 1 3).map uartDiv16 = some (16 * 156 + 4) ∧
    (uartStock 1 3).map uartMode = some 2 ∧ (uartStock 0 2).map uartMode = some 1 ∧ uartStock 1 2 = none := by decide
/-- "A 40-layer review composite": the pixel after its three layers, and its RGBA8 bytes. -/
theorem test_tarn_pixel :
    pixelOut 0 true [0x3F180000, 0x3E880000, 0x3E480000, 0x3F800000] = [151, 68, 50, 255] := by decide +kernel
/-- "Decoding a peak sequencer fault": the address that dispatch of opcode 2 with c0 1 forms. -/
theorem test_dispatch_address : ((0x200 : Nat).lor (2 * 4)).lor 1 = 0x209 := by decide

end Sys2Proof.Tests
end

section
/-! PROOFS. The rules that a BAR0 write follows, said once: which register it reaches, what a plain write leaves in each bit
by the bit's access type, what an event leaves as it was. Then the statements of chapter "Scope" about them. -/

namespace Sys2Proof.Machine

/-! ### Bits of masked numbers -/

theorem bit_eq_testBit (n k : Nat) : bit n k = n.testBit k := by
  rw [Nat.testBit_eq_decide_div_mod_eq]; rfl

@[simp] theorem bit_land (n m k : Nat) : bit (n.land m) k = (bit n k && bit m k) := by
  simp only [bit_eq_testBit]; exact Nat.testBit_and n m k

@[simp] theorem bit_zero (k : Nat) : bit 0 k = false := by simp [bit]

theorem bit_mod_two_pow (n : Nat) {k w : Nat} (h : k < w) : bit (n % 2 ^ w) k = bit n k := by
  simp [bit_eq_testBit, h]

/-- Masks that share no bit: one of the two is clear at every place. -/
theorem bit_of_land_eq_zero {m n : Nat} (h : m.land n = 0) (k : Nat) : (bit m k && bit n k) = false := by
  rw [← bit_land, h, bit_zero]

/-- Numbers that share no bit add without a carry. -/
theorem bit_add_of_disjoint (x y k : Nat) (h : ∀ j, (bit x j && bit y j) = false) :
    bit (x + y) k = (bit x k || bit y k) := by
  have h0 : ¬(x % 2 = 1 ∧ y % 2 = 1) := by simpa [bit] using h 0
  simp only [bit_eq_testBit] at h ⊢
  induction k generalizing x y with
  | zero =>
    simp only [Nat.testBit_zero, ← Bool.decide_or, decide_eq_decide]
    omega
  | succ k ih =>
    have hs : (x + y) / 2 = x / 2 + y / 2 := by omega
    have hd : ∀ j, ((x / 2).testBit j && (y / 2).testBit j) = false := fun j => by
      simpa only [Nat.testBit_succ] using h (j + 1)
    rw [Nat.testBit_succ, hs, Nat.testBit_succ, Nat.testBit_succ]
    exact ih _ _ (by simpa using hd 0) hd

/-- Taking away a number's own bits under a mask clears them. -/
theorem bit_sub_land (n m k : Nat) : bit (n - n.land m) k = (bit n k && !bit m k) := by
  have hx (j : Nat) : bit (n ^^^ n.land m) j = (bit n j && !bit m j) := by
    rw [bit_eq_testBit, Nat.testBit_xor, ← bit_eq_testBit, ← bit_eq_testBit, bit_land]
    cases bit n j <;> cases bit m j <;> rfl
  have hd (j : Nat) : (bit (n ^^^ n.land m) j && bit (n.land m) j) = false := by
    rw [hx, bit_land]
    cases bit m j <;> simp only [Bool.not_true, Bool.and_false, Bool.false_and]
  have hsum : (n ^^^ n.land m) + n.land m = n := by
    refine Nat.eq_of_testBit_eq fun j => ?_
    rw [← bit_eq_testBit, ← bit_eq_testBit, bit_add_of_disjoint _ _ j hd, hx, bit_land]
    cases bit n j <;> cases bit m j <;> rfl
  have hsub : n - n.land m = n ^^^ n.land m := by omega
  rw [hsub, hx]

theorem bit_blend (m v w k : Nat) : bit (blend m v w) k = if bit m k then bit w k else bit v k := by
  unfold blend
  rw [bit_add_of_disjoint _ _ k fun j => by rw [bit_sub_land, bit_land]; cases bit m j <;> simp,
    bit_sub_land, bit_land]
  cases bit m k <;> simp

@[simp] theorem blend_zero (v w : Nat) : blend 0 v w = v := by simp [blend]

/-! ### Rows of the register tables -/

/-- The fields of a row are apart: no bit has two access types that a write of software acts on (R8). -/
def RegRow.apart (q : RegRow) : Bool :=
  q.rw.land q.rwl == 0 && q.rw.land q.w1c == 0 && q.w1c.land q.rwl == 0

theorem Rows.of_apart (b : Block) (i : Nat) : (Rows.of b i).all RegRow.apart = true := by
  cases b
  case uart | seq | uc => unfold Rows.of; dsimp only; split <;> decide
  all_goals rfl

theorem mem_rows_of_regRow {a i r : Nat} {b : Block} {q : RegRow} (hq : regRow a = some q)
    (hb : blockAt a = some (b, i, r)) : q ∈ Rows.of b i := by
  unfold regRow at hq
  rw [hb] at hq
  exact List.mem_of_find?_eq_some hq

theorem apart_of_regRow {a i r : Nat} {b : Block} {q : RegRow} (hq : regRow a = some q)
    (hb : blockAt a = some (b, i, r)) : q.apart = true :=
  List.all_eq_true.mp (Rows.of_apart b i) q (mem_rows_of_regRow hq hb)

/-- No counter of a cairn has a field that an image locks. -/
theorem notCairnCount_of_rwl {a : Nat} {q : RegRow} (hq : regRow a = some q) (hl : q.rwl ≠ 0) : notCairnCount a := by
  refine Classical.byContradiction fun hn => ?_
  have ha : 0x50100 ≤ a ∧ a < 0x501A4 := by unfold notCairnCount at hn; omega
  have hb : blockAt a = some (.crn, 0, a - 0x50000) := by
    unfold blockAt
    iterate 5 rw [if_neg (by omega)]
    rw [if_pos (by omega)]
  have hc : ∀ p ∈ Rows.crn, p.rwl = 0 := by decide
  exact hl (hc q (mem_rows_of_regRow hq hb))

/-! ### What a write or an event leaves as it was -/

theorem OnlyRegs.refl (s : State) : OnlyRegs s s := rfl

theorem OnlyRegs.trans {s t u : State} (h : OnlyRegs s t) (h' : OnlyRegs t u) : OnlyRegs s u := by
  calc u = { t with regs := u.regs, crn := u.crn } := h'
    _ = { s with regs := u.regs, crn := u.crn } := by rw [h]

theorem OnlyRegs.setReg (s : State) (a v : Nat) : OnlyRegs s (s.setReg a v) := rfl

theorem OnlyRegs.hubEvent (s : State) (code : Nat) (fs : List (Nat × Nat)) : OnlyRegs s (s.hubEvent code fs) := by
  unfold State.hubEvent State.event
  split
  · obtain ⟨c, a, k, -, h⟩ := s.offer_eq 8 (s.entry 8 0 code 0 false fs) false
    rw [h]; rfl
  · rfl

theorem RegsBut.setReg (s : State) (a v : Nat) : RegsBut [a] s (s.setReg a v) := fun x hx _ =>
  State.reg_setReg_ne s v (by simpa using hx)

theorem RegsBut.hubEvent {l : List Nat} {s t : State} (h : RegsBut l s t) (code : Nat) (fs : List (Nat × Nat)) :
    RegsBut l s (t.hubEvent code fs) := fun x hx hc => by
  rw [State.reg_hubEvent t code fs x hc, h x hx hc]

/-! ### Plain registers (R8, R10, R12) -/

/-- What a plain write of `v` leaves in a register of row `q` that held `old`. -/
def RegRow.written (q : RegRow) (locked : Bool) (old v : Nat) : Nat :=
  let w := blend q.rw old v
  let w := w - w.land (q.w1c.land v)
  if locked then w else blend q.rwl w v

/-- Each bit takes what its access type gives (R8). -/
theorem RegRow.bit_written {q : RegRow} (hq : q.apart = true) (locked : Bool) (old v k : Nat) :
    bit (q.written locked old v) k =
      if bit q.rwl k then (if locked then bit old k else bit v k)
      else if bit q.w1c k then bit old k && !bit v k
      else if bit q.rw k then bit v k else bit old k := by
  simp only [RegRow.apart, Bool.and_eq_true, beq_iff_eq] at hq
  obtain ⟨⟨hrl, hrc⟩, hcl⟩ := hq
  have hrl := bit_of_land_eq_zero hrl k
  have hrc := bit_of_land_eq_zero hrc k
  have hcl := bit_of_land_eq_zero hcl k
  have hw : bit (blend q.rw old v - (blend q.rw old v).land (q.w1c.land v)) k =
      if bit q.w1c k then bit old k && !bit v k else if bit q.rw k then bit v k else bit old k := by
    rw [bit_sub_land, bit_blend, bit_land]
    cases hc : bit q.w1c k with
    | false => simp only [Bool.false_and, Bool.not_false, Bool.and_true, Bool.false_eq_true, if_false]
    | true =>
      have hr : bit q.rw k = false := by rwa [hc, Bool.and_true] at hrc
      simp only [hr, Bool.true_and, Bool.false_eq_true, if_false, if_true]
  unfold RegRow.written
  cases locked with
  | false => simp only [Bool.false_eq_true, if_false, bit_blend, hw]
  | true =>
    rw [if_pos rfl, if_pos rfl, hw]
    by_cases hl : bit q.rwl k = true
    · have hr : bit q.rw k = false := by rwa [hl, Bool.and_true] at hrl
      have hc : bit q.w1c k = false := by rwa [hl, Bool.and_true] at hcl
      simp only [hl, hr, hc, Bool.false_eq_true, if_false, if_true]
    · rw [if_neg hl]

/-- A plain write sets its register; of a locked field it tells with event 0x0201 (R10). -/
theorem State.plainWrite_eq (s : State) (a : Nat) (q : RegRow) (v : Nat) :
    s.plainWrite a q v =
      if q.rwl ≠ 0 ∧ s.locked = true then (s.setReg a (q.written s.locked (s.reg a) v)).rwlIgnored a
      else s.setReg a (q.written s.locked (s.reg a) v) := by
  unfold State.plainWrite RegRow.written
  by_cases hz : q.rwl = 0
  · simp [hz]
  · cases s.locked <;> simp [hz]

theorem State.bit_reg_plainWrite {s : State} {a k : Nat} {q : RegRow} (hq : regRow a = some q) (ha : q.apart = true)
    (v : Nat) (hk : k < 32) :
    bit ((s.plainWrite a q v).reg a) k =
      if bit q.rwl k then (if s.locked then bit (s.reg a) k else bit v k)
      else if bit q.w1c k then bit (s.reg a) k && !bit v k
      else if bit q.rw k then bit v k else bit (s.reg a) k := by
  rw [State.plainWrite_eq]
  split
  · next h =>
    rw [State.rwlIgnored, State.reg_hubEvent _ _ _ _ (notCairnCount_of_rwl hq h.1), State.reg_setReg_self,
      bit_mod_two_pow _ hk, RegRow.bit_written ha]
  · rw [State.reg_setReg_self, bit_mod_two_pow _ hk, RegRow.bit_written ha]

theorem RegsBut.plainWrite (s : State) (a : Nat) (q : RegRow) (v : Nat) : RegsBut [a] s (s.plainWrite a q v) := by
  rw [State.plainWrite_eq]
  split
  · exact (RegsBut.setReg s a _).hubEvent _ _
  · exact RegsBut.setReg s a _

theorem OnlyRegs.plainWrite (s : State) (a : Nat) (q : RegRow) (v : Nat) : OnlyRegs s (s.plainWrite a q v) := by
  rw [State.plainWrite_eq]
  split
  · exact (OnlyRegs.setReg s a _).trans (OnlyRegs.hubEvent _ _ _)
  · exact OnlyRegs.setReg s a _

/-! ### Which register a write reaches (R4, R7, R696) -/

section
variable {s : State} {port func a i r : Nat} {b : Block} {q : RegRow}

/-- A write that reaches a register does what the register's half of a pair, its own effect, its access types or its
function give. -/
theorem State.hostWriteReg_reaches (h : s.reaches port func a q b i r) (v : Nat) :
    s.hostWriteReg port func a v =
      if isLo b r then (if s.pairOpen b r then s.stage a v else s)
      else if 4 ≤ r ∧ isLo b (r - 4) = true then (if s.pairOpen b (r - 4) then s.pairWrite (a - 4) v else s)
      else (s.ownWrite b i r v).getD (if q.group = .none then s.plainWrite a q v else s.groupWrite a q i v) := by
  obtain ⟨hf, hp, hc, ha, ht, hq, hb, hd, hlo, hhi, hh⟩ := h
  simp only [State.hostWriteReg, hf, ha, hp, ht, hc, State.writeReg, hq, hb, hd, hh, hlo, hhi]
  cases s.ownWrite b i r v <;> simp

/-- The write of a register that is no half of a pair and has no effect of its own. -/
theorem State.hostWriteReg_noEffect (h : s.reaches port func a q b i r) (v : Nat) (hl : isLo b r = false)
    (hh : 4 ≤ r → isLo b (r - 4) = false) (ho : s.ownWrite b i r v = none) :
    s.hostWriteReg port func a v = if q.group = .none then s.plainWrite a q v else s.groupWrite a q i v := by
  have hn : ¬(4 ≤ r ∧ isLo b (r - 4) = true) := fun ⟨h4, h5⟩ => by simp [hh h4] at h5
  rw [State.hostWriteReg_reaches h, if_neg (by simp [hl]), if_neg hn, ho, Option.getD_none]

end

/-- A PF that is not the control function writes no register: the access is refused (R696). -/
theorem State.hostWriteReg_refused {s : State} {port func a : Nat} (v : Nat) (hf : s.funcOk port func = true)
    (hp : s.isPf port func = true) (hc : s.isCtl port func = false) (ha : a % 4 = 0) (ht : tableAt true a = none)
    (hlo : a ≠ R.chnDbLo) (hhi : a ≠ R.chnDbHi) :
    s.hostWriteReg port func a v = s.refuseAccess port func 0 a 1 := by
  simp [State.hostWriteReg, hf, hp, hc, ha, ht, hlo, hhi]

/-! ### Pairs and selectors (R7, R37, R40) -/

/-- A pair whose two registers exist, in force: the writable bits of both, and nothing held any more. -/
theorem State.pairWrite_eq (s : State) (lo v : Nat) {p q : RegRow} (hp : regRow lo = some p)
    (hq : regRow (lo + 4) = some q) :
    s.pairWrite lo v =
      ((s.setReg lo (blend p.rw (s.reg lo) (s.stagedOf lo (s.reg lo)))).setReg (lo + 4)
        (blend q.rw (s.reg (lo + 4)) v)).unstage lo := by
  simp only [State.pairWrite, hp, hq]

@[simp] theorem State.reg_unstage (s : State) (k a : Nat) : (s.unstage k).reg a = s.reg a := rfl

/-- A selection of a function without effects of its own waits for the round boundary, or is ignored (R40). -/
theorem State.groupWrite_waits {s : State} {q : RegRow} (a i v : Nat) (he : q.expert = false)
    (hg : q.group ∉ [SelGroup.none, .inlim, .pwr, .seq, .hpt, .rng, .uc]) (hr : s.rnd.running = true) :
    s.groupWrite a q i v =
      match s.stock q.group i (v % 16) with
      | some _ => { s with delayed := s.delayed ++ [(a, BitVec.ofNat 32 (v % 16))] }
      | none => s := by
  simp only [List.mem_cons, List.not_mem_nil, or_false, not_or] at hg
  obtain ⟨-, hinlim, hpwr, hseq, hhpt, hrng, huc⟩ := hg
  have hsel : s.groupWrite a q i v = s.selectWrite a q.group i (v % 16) := by
    simp only [State.groupWrite, he, hseq, hpwr, decide_false, Bool.false_and, Bool.false_eq_true, if_false]
  rw [hsel]
  unfold State.selectWrite
  cases s.stock q.group i (v % 16) with
  | none => rfl
  | some l =>
    dsimp only
    rw [if_neg hinlim, State.later_running hr]
    split
    · next e => exact absurd e hhpt
    · next e => exact absurd e hrng
    · next e => exact absurd e huc
    · rfl

/-! ### The statements -/

/-- Settles O6: a plain register's bits follow their access types, whose masks no two rows of the tables share; an ignored
or refused write records an event, which changes nothing but a cairn and its counters. -/
theorem registerWriteByAccessType : Obligations.RegisterWriteByAccessType := by
  constructor
  · intro port func a i r v b q s h hg hl hh ho
    obtain ⟨-, -, -, -, -, hq, hb, -⟩ := id h
    refine ⟨s.plainWrite a q v.toNat, ?_, fun k hk => ?_, RegsBut.plainWrite s a q _, OnlyRegs.plainWrite s a q _⟩
    · change Host.Outcome.next (s.hostWriteReg port func a v.toNat) = _
      rw [State.hostWriteReg_noEffect h _ hl hh ho, if_pos hg]
    · exact State.bit_reg_plainWrite hq (apart_of_regRow hq hb) _ hk
  · intro port func a v s hf hp hc ha ht hlo hhi
    refine ⟨s.refuseAccess port func 0 a 1, ?_, RegsBut.hubEvent (fun _ _ _ => rfl) _ _, OnlyRegs.hubEvent _ _ _⟩
    change Host.Outcome.next (s.hostWriteReg port func a v.toNat) = _
    rw [State.hostWriteReg_refused _ hf hp hc ha ht hlo hhi]

/-- LO_HALF_WRITE: the value is held and nothing else differs (R7). -/
theorem loHalfWrite_holds {s : State} {port func a i r : Nat} {b : Block} {q : RegRow}
    (h : s.reaches port func a q b i r) (v : Word) (hl : isLo b r = true) (ho : s.pairOpen b r = true) :
    exec (.loHalfWrite port func a v) s = .next { s with staged := Map.set s.staged a v } := by
  change Host.Outcome.next (s.hostWriteReg port func a v.toNat) = _
  rw [State.hostWriteReg_reaches h, if_pos hl, if_pos ho, State.stage, BitVec.ofNat_toNat, BitVec.setWidth_eq]

/-- HI_HALF_WRITE: the pair is applied (R7). -/
theorem hiHalfWrite_applies {s : State} {port func a i r : Nat} {b : Block} {q : RegRow}
    (h : s.reaches port func a q b i r) (v : Word) (h4 : 4 ≤ r) (hl : isLo b r = false) (hp : isLo b (r - 4) = true)
    (ho : s.pairOpen b (r - 4) = true) :
    exec (.hiHalfWrite port func a v) s = .next (s.pairWrite (a - 4) v.toNat) := by
  change Host.Outcome.next (s.hostWriteReg port func a v.toNat) = _
  rw [State.hostWriteReg_reaches h, if_neg (by simp [hl]), if_pos ⟨h4, hp⟩, if_pos ho]

theorem badAccess_eq_not_goodAccess (off size : Nat) : badAccess off size = !goodAccess off size := rfl

/-- BAR0_BAD_ACCESS: a write is discarded, and a read answers ones in every byte (R6). -/
theorem bar0BadAccess_eq {off size : Nat} (hb : badAccess off size = true) (write : Bool) (s : State) :
    exec (.bar0BadAccess write off size) s = .next (if write then s else s.hostAnswer 0 (2 ^ (8 * size) - 1)) := by
  have hg : goodAccess off size = false := by rwa [badAccess_eq_not_goodAccess, Bool.not_eq_true'] at hb
  change execBar0BadAccess write off size s = _
  simp only [execBar0BadAccess, hg, Bool.or_false]

/-- Settles O7: each command is the write of BAR0 that its register gives: a low half staged, a pair applied, a selection
put behind those that wait, or nothing. -/
theorem pairAndSelectorWrites : Obligations.PairAndSelectorWrites := by
  refine ⟨?_, ?_, ?_, ?_⟩
  · intro port func a i r v b q s h hl ho
    exact loHalfWrite_holds h v hl ho
  · intro port func a i r v b p q s h ha h4 hl hlp ho hp
    obtain ⟨-, -, -, -, -, hq, -⟩ := id h
    obtain ⟨lo, rfl⟩ : ∃ lo, a = lo + 4 := ⟨a - 4, by omega⟩
    rw [Nat.add_sub_cancel] at hp ⊢
    refine ⟨s.pairWrite lo v.toNat, hiHalfWrite_applies h v h4 hl hlp ho, ?_⟩
    have hne : lo ≠ lo + 4 := by omega
    rw [State.pairWrite_eq s lo v.toNat hp hq]
    refine ⟨?_, ?_, Map.get?_erase_self _ _, fun x hx hx' => ?_, rfl⟩
    · rw [State.reg_unstage, State.reg_setReg_ne _ _ hne, State.reg_setReg_self]
    · rw [State.reg_unstage, State.reg_setReg_self]
    · rw [State.reg_unstage, State.reg_setReg_ne _ _ hx, State.reg_setReg_ne _ _ hx']
  · intro port func a i r v b q s h hl hh ho he hg hr
    change Host.Outcome.next (s.hostWriteReg port func a v.toNat) = _
    have hn : q.group ≠ .none := fun e => hg (by simp [e])
    rw [State.hostWriteReg_noEffect h _ hl hh ho, if_neg hn]
    exact congrArg Host.Outcome.next (State.groupWrite_waits a i _ he hg hr)
  · intro off size s hb
    exact ⟨bar0BadAccess_eq hb true s, s.hostAnswer 0 (2 ^ (8 * size) - 1), bar0BadAccess_eq hb false s, rfl, rfl⟩

end Sys2Proof.Machine
end

section
/-! PROOFS. A job's way through the hub and the peaks, said once per command: what an admission, a dispatch, a phase's start
and end, a tile's launch and a drain make of the state. Then the statement of chapter "Plans and Their Guarantees" about
them. -/

namespace Sys2Proof.Machine

/-! ### Tables with one entry changed -/

theorem Map.mem_of_get? {α : Type} {t : Table α} {k : Nat} {v : α} (h : Map.get? t k = some v) : (k, v) ∈ t := by
  induction t with
  | nil => simp [Map.get?] at h
  | cons p t ih =>
    obtain ⟨j, w⟩ := p
    simp only [Map.get?] at h
    split at h
    · next e => simp [e, Option.some.inj h]
    · exact List.mem_cons_of_mem _ (ih h)

/-- In a canonical table an entry is what its key reads. -/
theorem Map.get?_of_mem {α : Type} {t : Table α} {k : Nat} {v : α} (hs : Map.sorted t = true) (h : (k, v) ∈ t) :
    Map.get? t k = some v := by
  induction t with
  | nil => simp at h
  | cons p t ih =>
    obtain ⟨j, w⟩ := p
    obtain ⟨hlt, ht⟩ := Map.sorted_cons.mp hs
    rcases List.mem_cons.mp h with e | hm
    · simp [Map.get?, Prod.mk.inj e]
    · have hne : j ≠ k := Nat.ne_of_lt (hlt _ hm)
      simp [Map.get?, hne, ih ht hm]

/-- A change of an entry that is left out before and after does not show among the entries that meet `P`. -/
theorem Map.filter_set_of_not {α : Type} {t : Table α} {k : Nat} {v w : α} {P : α → Bool} (h : Map.get? t k = some v)
    (hv : P v = false) (hw : P w = false) :
    (Map.set t k w).filter (fun q => P q.2) = t.filter (fun q => P q.2) := by
  induction t with
  | nil => simp [Map.get?] at h
  | cons p t ih =>
    obtain ⟨j, u⟩ := p
    simp only [Map.get?] at h
    simp only [Map.set]
    split
    · next e =>
      rw [if_pos e] at h
      obtain rfl := Option.some.inj h
      simp [hv, hw]
    · next e =>
      rw [if_neg e] at h
      split
      · simp [hw]
      · rw [List.filter_cons, List.filter_cons, ih h]

theorem Map.get?_foldl_set_ne {α β : Type} (key : β → Nat) (val : β → α) (l : List β) (t : Table α) {k : Nat}
    (hk : k ∉ l.map key) : Map.get? (l.foldl (fun t q => Map.set t (key q) (val q)) t) k = Map.get? t k := by
  refine List.foldlRecOn (motive := fun u => Map.get? u k = Map.get? t k) l _ rfl fun u hu b hb => ?_
  have hne : k ≠ key b := fun e => hk (e ▸ List.mem_map_of_mem hb)
  rw [Map.get?_set_ne _ _ hne, hu]

/-- Entries set one after another under keys of their own: each key reads its entry. -/
theorem Map.get?_foldl_set {α β : Type} (key : β → Nat) (val : β → α) (l : List β) (hl : (l.map key).Nodup) (t : Table α)
    {q : β} (hq : q ∈ l) : Map.get? (l.foldl (fun t q => Map.set t (key q) (val q)) t) (key q) = some (val q) := by
  induction l generalizing t with
  | nil => simp at hq
  | cons b l ih =>
    obtain ⟨hb, hl⟩ := List.nodup_cons.mp hl
    rw [List.foldl_cons]
    rcases List.mem_cons.mp hq with rfl | hq
    · rw [Map.get?_foldl_set_ne key val l _ hb, Map.get?_set_self]
    · exact ih hl _ hq

/-! ### The job table, and what the shared operations leave of it -/

theorem State.job_modJob_of_job {s : State} {j : Nat} {x : Job} (hj : s.job? j = some x) (f : Job → Job) :
    (s.modJob j f).job? j = some (f x) := by simp [State.job_modJob, hj]

@[simp] theorem State.reg_modJob (s : State) (j : Nat) (f : Job → Job) (a : Nat) : (s.modJob j f).reg a = s.reg a := rfl
@[simp] theorem State.fld_modJob (s : State) (j : Nat) (f : Job → Job) (a hi lo : Nat) :
    (s.modJob j f).fld a hi lo = s.fld a hi lo := rfl
@[simp] theorem State.chan_modJob (s : State) (j : Nat) (f : Job → Job) (c : Nat) : (s.modJob j f).chan c = s.chan c := rfl
@[simp] theorem State.holderOf_modJob (s : State) (j : Nat) (f : Job → Job) (p : Nat) :
    (s.modJob j f).holderOf p = s.holderOf p := rfl
@[simp] theorem State.core_modJob (s : State) (j : Nat) (f : Job → Job) (h c : Nat) : (s.modJob j f).core h c = s.core h c := rfl
@[simp] theorem State.modJob_cor (s : State) (j : Nat) (f : Job → Job) : (s.modJob j f).cor = s.cor := rfl
@[simp] theorem State.modJob_rnd (s : State) (j : Nat) (f : Job → Job) : (s.modJob j f).rnd = s.rnd := rfl
@[simp] theorem State.modJob_flt (s : State) (j : Nat) (f : Job → Job) : (s.modJob j f).flt = s.flt := rfl

theorem State.job_of_jobs {s t : State} (h : t.jobs = s.jobs) (j : Nat) : t.job? j = s.job? j := by unfold State.job?; rw [h]
theorem State.chan_of_jobs {s t : State} (h : t.jobs = s.jobs) (c : Nat) : t.chan c = s.chan c := by unfold State.chan; rw [h]
theorem State.holderOf_of_jobs {s t : State} (h : t.jobs = s.jobs) (p : Nat) : t.holderOf p = s.holderOf p := by
  unfold State.holderOf; rw [h]

theorem State.partRec_of_img {s t : State} (h : t.img = s.img) (p : Nat) : t.partRec p = s.partRec p := by
  unfold State.partRec State.partTable; rw [h]

/-- A register is kept by writes of the fields of others. -/
theorem State.reg_foldl_setFld_ne {β : Type} (a v : β → Nat) (hi lo : Nat) (l : List β) (s : State) {b : Nat}
    (hb : b ∉ l.map a) : (l.foldl (fun s q => s.setFld (a q) hi lo (v q)) s).reg b = s.reg b := by
  refine List.foldlRecOn (motive := fun t : State => t.reg b = s.reg b) l _ rfl fun t ht q hq => ?_
  have hne : b ≠ a q := fun e => hb (e ▸ List.mem_map_of_mem hq)
  rw [State.reg_setFld_ne _ _ _ _ hne, ht]

/-- A field written in registers of their own: each reads the value written to it. -/
theorem State.fld_foldl_setFld {β : Type} (a v : β → Nat) {hi lo : Nat} (hhi : hi < 32) (hlo : lo ≤ hi + 1) (l : List β)
    (hl : (l.map a).Nodup) (s : State) {q : β} (hq : q ∈ l) :
    (l.foldl (fun s q => s.setFld (a q) hi lo (v q)) s).fld (a q) hi lo = v q % 2 ^ (hi + 1 - lo) := by
  induction l generalizing s with
  | nil => simp at hq
  | cons b l ih =>
    obtain ⟨hb, hl⟩ := List.nodup_cons.mp hl
    rw [List.foldl_cons]
    rcases List.mem_cons.mp hq with rfl | hq
    · rw [State.fld_of_reg (State.reg_foldl_setFld_ne a v hi lo l _ hb), State.fld_setFld_self _ _ _ _ _ hhi hlo]
    · exact ih hl _ hq

theorem State.jobs_foldl_setFld {β : Type} (a v : β → Nat) (hi lo : Nat) (l : List β) (s : State) :
    (l.foldl (fun s q => s.setFld (a q) hi lo (v q)) s).jobs = s.jobs :=
  List.foldlRecOn (motive := fun t : State => t.jobs = s.jobs) l _ rfl fun _ ht _ _ => ht

/-! ### A phase grant, and a partition freed (R64, R612) -/

theorem State.grantPhase_keeps (s : State) (p g : Nat) : (s.grantPhase p g).rnd = s.rnd ∧ (s.grantPhase p g).flt = s.flt ∧
    (s.grantPhase p g).jobs = s.jobs := by
  unfold State.grantPhase
  dsimp only
  split
  · exact ⟨rfl, rfl, rfl⟩
  · exact List.foldlRecOn (motive := fun t : State => t.rnd = s.rnd ∧ t.flt = s.flt ∧ t.jobs = s.jobs) _ _ ⟨rfl, rfl, rfl⟩
      fun _ ht _ _ => ht

theorem State.setDraws_keeps (s : State) (h : Nat) (l : List Draw) :
    (s.setDraws h l).flt = s.flt ∧ (s.setDraws h l).jobs = s.jobs := by
  unfold State.setDraws
  constructor
  · rw [State.setFld_flt, State.setFld_flt]
  · rw [State.setFld_jobs, State.setFld_jobs]

/-- Partition `p` without its holder, its booking and its grant. -/
def State.unheld (s : State) (p : Nat) : State :=
  let s := { s with jobs := { s.jobs with holder := Map.erase s.jobs.holder p } }
  ((s.setFld (R.pwrPart p) 23 12 0).setFlag (R.pwrPart p) 24 false).setFld (R.pwrGrant p) 11 0 0

theorem State.unheld_keeps (s : State) (p : Nat) : (s.unheld p).flt = s.flt ∧
    (s.unheld p).jobs = { s.jobs with holder := Map.erase s.jobs.holder p } := by
  unfold State.unheld
  constructor
  · rw [State.setFld_flt, State.setFlag_flt, State.setFld_flt]
  · rw [State.setFld_jobs, State.setFlag_jobs, State.setFld_jobs]

theorem State.freePart_eq (s : State) (p : Nat) : s.freePart p =
    match (s.unheld p).partRec p with
    | some r => r.halves.foldl (fun s h => (s.setDraws h []).setFld (R.govShare h) 11 0 0) (s.unheld p)
    | none => s.unheld p := rfl

theorem State.freePart_keeps (s : State) (p : Nat) : (s.freePart p).flt = s.flt ∧
    (s.freePart p).jobs = { s.jobs with holder := Map.erase s.jobs.holder p } := by
  rw [State.freePart_eq]
  split
  · refine List.foldlRecOn (motive := fun t : State => t.flt = s.flt ∧
      t.jobs = { s.jobs with holder := Map.erase s.jobs.holder p }) _ _ (s.unheld_keeps p) fun t ht h _ => ?_
    obtain ⟨hf, hj⟩ := t.setDraws_keeps h []
    rwa [State.setFld_flt, State.setFld_jobs, hf, hj]
  · exact s.unheld_keeps p

@[simp] theorem State.freePart_flt (s : State) (p : Nat) : (s.freePart p).flt = s.flt := (s.freePart_keeps p).1

theorem State.holderOf_freePart (s : State) (p : Nat) : (s.freePart p).holderOf p = none := by
  unfold State.holderOf
  rw [(s.freePart_keeps p).2]
  exact Map.get?_erase_self _ _

@[simp] theorem State.chan_freePart (s : State) (p c : Nat) : (s.freePart p).chan c = s.chan c := by
  unfold State.chan
  rw [(s.freePart_keeps p).2]

/-! ### The end of a job (R592) -/

section
variable {s : State} {j : Nat} {x : Job}

/-- The record stands last among those of the job's channel. -/
theorem State.recs_recordEnd (hj : s.job? j = some x) (status code : Nat) (d : List Nat) :
    ((s.recordEnd j status code d).chan x.channel).recs =
      (s.chan x.channel).recs ++ [x.record j 0 status code s.rnd.round d] := by
  have hrec : ((s.addRec x.channel (x.record j 0 status code s.rnd.round d)).chan x.channel).recs =
      (s.chan x.channel).recs ++ [x.record j 0 status code s.rnd.round d] := by
    simp [State.addRec, State.chan_setChan]
  unfold State.recordEnd
  simp only [hj]
  split
  · rw [State.chan_freePart, State.chan_modJob, hrec]
  · rw [State.chan_modJob, hrec]

/-- A job that holds its partition gives it up. -/
theorem State.holderOf_recordEnd (hj : s.job? j = some x) (hh : s.holderOf x.part = some j) (status code : Nat)
    (d : List Nat) : (s.recordEnd j status code d).holderOf x.part = none := by
  unfold State.recordEnd
  simp only [hj]
  split
  · exact State.holderOf_freePart _ _
  · next hne => exact absurd hh hne

theorem State.recordEnd_flt (s : State) (j status code : Nat) (d : List Nat) : (s.recordEnd j status code d).flt = s.flt := by
  unfold State.recordEnd
  split
  · rfl
  · dsimp only
    split
    · rw [State.freePart_flt]; rfl
    · rfl

/-- Where no fence waits for the end of the partition's job (R901), the record is all of it. -/
theorem State.endJob_eq_recordEnd (hj : s.job? j = some x)
    (hf : s.holderOf x.part = some j → Map.get? s.flt.fenceAtEnd x.part = none) (status code : Nat) (d : List Nat) :
    s.endJob j status code d = s.recordEnd j status code d := by
  unfold State.endJob
  simp only [hj]
  split
  · next hh => simp only [State.fenceDue, State.recordEnd_flt, hf hh]
  · rfl

/-- The job with the verdict on its bound (R24, R592). -/
def Job.judged (x : Job) : Job := { x with breach := x.voidCond == 0 && decide (x.bound < x.charged) }

/-- A job completes: the record with status 0, in a state whose jobs differ by the verdict. -/
theorem State.completeJob_eq (s : State) (j : Nat) (x : Job) : ∃ u : State, s.completeJob j x = u.endJob j 0 0 [] ∧
    u.jobs = (s.modJob j fun y => { y with breach := x.judged.breach }).jobs ∧ u.rnd = s.rnd ∧ u.flt = s.flt := by
  unfold State.completeJob
  refine ⟨_, rfl, ?_⟩
  split
  · simp [Job.judged]
  · simp [Job.judged]

theorem State.completeJob_ends (hj : s.job? j = some x) (hh : s.holderOf x.part = some j)
    (hf : Map.get? s.flt.fenceAtEnd x.part = none) :
    (s.completeJob j x).holderOf x.part = none ∧
      ((s.completeJob j x).chan x.channel).recs = (s.chan x.channel).recs ++ [x.judged.record j 0 0 0 s.rnd.round []] := by
  obtain ⟨u, he, hu, hr, hflt⟩ := s.completeJob_eq j x
  have hju : u.job? j = some x.judged := (State.job_of_jobs hu j).trans (State.job_modJob_of_job hj _)
  have hhu : u.holderOf x.part = some j := by rw [State.holderOf_of_jobs hu, State.holderOf_modJob, hh]
  have hend := State.endJob_eq_recordEnd hju (fun _ => hflt ▸ hf) 0 0 []
  refine ⟨?_, ?_⟩
  · rw [he, hend]
    exact State.holderOf_recordEnd hju hhu 0 0 []
  · have hrecs := State.recs_recordEnd hju 0 0 []
    rwa [← hend, ← he, hr, State.chan_of_jobs hu, State.chan_modJob] at hrecs

end

/-! ### Admission (R55 to R58, R580) -/

section
variable {s : State} {j code : Nat} {x : Job} {h : PlanHead}

/-- The turn of job `j` for admission, and what the checks say of it. -/
def State.checked (s : State) (j : Nat) (x : Job) (code : Nat) (h : PlanHead) : Prop :=
  s.job? j = some x ∧ s.hubActs = true ∧ s.mayAdmit j x = true ∧ s.writesOut tagHub = 0 ∧ s.admitCheck x = (s, code, some h)

/-- The job is refused: it ends with the code of the check. -/
theorem admitJob_refuses (hc : s.checked j x code h) (h0 : code ≠ 0) : exec (.admitJob j) s =
    .next ((s.modJob j fun _ => { x with planId := h.planId }).endJob j 1 code []) := by
  obtain ⟨hj, hact, hmay, hw, hchk⟩ := hc
  change execAdmitJob j s = _
  simp [execAdmitJob, hj, hact, hmay, hw, hchk, h0]

/-- The job is deferred at its client's quota. -/
theorem admitJob_defers (hc : s.checked j x 0 h) (hn : x.counted = false) (hq : s.clientQuota x.client ≤ s.clientRun x.client) :
    exec (.admitJob j) s = .next ((s.modJob j fun _ => { x.withPlan h with st := .deferred, wasDeferred := true }).hubEvent 0x0905
      [(2, x.client), (2, x.channel), (2, x.seq)]) := by
  obtain ⟨hj, hact, hmay, hw, hchk⟩ := hc
  change execAdmitJob j s = _
  simp [execAdmitJob, hj, hact, hmay, hw, hchk, Job.withPlan, hn, hq]

/-- The job is admitted: booked at its leave_peak and counted. -/
theorem admitJob_books (hc : s.checked j x 0 h) (hn : x.counted = false) (hq : s.clientRun x.client < s.clientQuota x.client) :
    exec (.admitJob j) s = .next ((s.modJob j fun _ => { x.withPlan h with st := .admitted, counted := true, claim := h.leavePeak }).addFld
      (R.jobClRun x.client) 12 0 1) := by
  obtain ⟨hj, hact, hmay, hw, hchk⟩ := hc
  have hq' : ¬s.clientQuota x.client ≤ s.clientRun x.client := Nat.not_le.mpr hq
  change execAdmitJob j s = _
  simp [execAdmitJob, hj, hact, hmay, hw, hchk, Job.withPlan, hn, hq']

/-- A count below a quota of its own width goes up by one. -/
theorem State.clientRun_addFld {c : Nat} (hq : s.clientRun c < s.clientQuota c) :
    (s.addFld (R.jobClRun c) 12 0 1).clientRun c = s.clientRun c + 1 := by
  have hlt : s.clientQuota c < 2 ^ 13 := bits_lt _ 12 0
  unfold State.clientRun at hq ⊢
  rw [State.addFld, State.fld_setFld_self _ _ _ _ _ (by omega) (by omega), satAdd_eq _ _ _ (by omega),
    Nat.mod_eq_of_lt (by omega)]

end

/-- ADMIT_JOB: the record of a refusal, the booking of a job admitted, or its deferral. -/
theorem admitJob_outcomes {s : State} {j code : Nat} {x : Job} {h : PlanHead} (hc : s.checked j x code h) :
    (code ≠ 0 → s.holderOf x.part ≠ some j → Does (.admitJob j) s fun t => (t.chan x.channel).recs = (s.chan x.channel).recs ++
      [{ x with planId := h.planId }.record j 0 1 code s.rnd.round []]) ∧
    (code = 0 → x.counted = false → s.clientRun x.client < s.clientQuota x.client → Does (.admitJob j) s fun t =>
      t.job? j = some { x.withPlan h with st := .admitted, counted := true, claim := h.leavePeak } ∧
      t.clientRun x.client = s.clientRun x.client + 1) ∧
    (code = 0 → x.counted = false → s.clientQuota x.client ≤ s.clientRun x.client → Does (.admitJob j) s fun t =>
      t.job? j = some { x.withPlan h with st := .deferred, wasDeferred := true }) := by
  have hj : s.job? j = some x := hc.1
  refine ⟨fun h0 hh => ⟨_, admitJob_refuses hc h0, ?_⟩, fun h0 hn hq => ?_, fun h0 hn hq => ?_⟩
  · have hj1 := State.job_modJob_of_job hj fun _ => { x with planId := h.planId }
    rw [State.endJob_eq_recordEnd hj1 fun e => absurd e hh]
    exact State.recs_recordEnd hj1 1 code []
  · subst h0
    exact ⟨_, admitJob_books hc hn hq, (State.job_of_jobs (State.addFld_jobs _ _ _ _ _) j).trans (State.job_modJob_of_job hj _),
      State.clientRun_addFld (s := s.modJob j _) hq⟩
  · subst h0
    exact ⟨_, admitJob_defers hc hn hq, (State.job_of_jobs (State.hubEvent_jobs _ _ _) j).trans (State.job_modJob_of_job hj _)⟩


/-! ### Dispatch (R20, R583) -/

theorem firstJob_mem {lt : Job → Job → Bool} {l : List (Nat × Job)} {q : Nat × Job} (h : firstJob lt l = some q) : q ∈ l := by
  induction l with
  | nil => simp [firstJob] at h
  | cons a l ih =>
    simp only [firstJob] at h
    split at h
    · simp_all
    · next b hb =>
      split at h
      · exact List.mem_cons_of_mem _ (ih (hb.trans h))
      · simp_all

/-- The next job of a partition is one of its jobs, as the table reads it. -/
theorem State.job_of_nextJob {s : State} {p j : Nat} {x : Job} (hs : Map.sorted s.jobs.jobs = true)
    (h : s.nextJob p = some (j, x)) : s.job? j = some x ∧ x.part = p := by
  obtain ⟨hm, hp⟩ := List.mem_filter.mp (firstJob_mem h)
  simp only [Bool.and_eq_true, beq_iff_eq] at hp
  exact ⟨Map.get?_of_mem hs hm, hp.1⟩

/-- A job as it is when it has been dispatched (R583). -/
def Job.started (x : Job) : Job :=
  { x with st := .running, dispatched := true, inPhase := false, claim := x.leavePeak, cut := false }

/-- Partition `p` given to job `j`, whose booking is `b`. -/
def State.runOn (s : State) (p j b : Nat) : State :=
  let s := { s with jobs := { s.jobs with holder := Map.set s.jobs.holder p j } }.modJob j Job.started
  (s.setFld (R.pwrPart p) 23 12 b).setFlag (R.pwrPart p) 24 false

theorem State.dispatchPart_runs {s : State} {p j : Nat} {x : Job} (hh : s.holderOf p = none) (hd : s.noDispatch p = false)
    (hn : s.nextJob p = some (j, x)) : s.dispatchPart p = s.runOn p j x.leavePeak := by
  unfold State.dispatchPart
  simp only [hh, hd, hn]
  rfl

/-- A partition's turn of a dispatch leaves all as it was, or gives the partition its next job. -/
theorem State.dispatchPart_cases (s : State) (p : Nat) : s.dispatchPart p = s ∨
    ∃ j x, s.nextJob p = some (j, x) ∧ s.dispatchPart p = s.runOn p j x.leavePeak := by
  unfold State.dispatchPart
  split
  · exact .inl rfl
  · split
    · exact .inl rfl
    · next j x hn => exact .inr ⟨j, x, hn, rfl⟩

theorem State.runOn_jobs (s : State) (p j b : Nat) : (s.runOn p j b).jobs =
    { s.jobs with holder := Map.set s.jobs.holder p j, jobs := Map.modify s.jobs.jobs j Job.started } := by
  unfold State.runOn
  rw [State.setFlag_jobs, State.setFld_jobs]
  rfl

theorem State.runOn_img (s : State) (p j b : Nat) : (s.runOn p j b).img = s.img := by
  unfold State.runOn
  rw [State.setFlag_img, State.setFld_img]
  rfl

theorem State.holderOf_runOn (s : State) (p j b q : Nat) :
    (s.runOn p j b).holderOf q = if q = p then some j else s.holderOf q := by
  unfold State.holderOf
  rw [State.runOn_jobs]
  exact Map.get?_set _ _ _ _

theorem State.job_runOn {s : State} {j : Nat} {x : Job} (hj : s.job? j = some x) (p b : Nat) :
    (s.runOn p j b).job? j = some x.started := by
  unfold State.job?
  rw [State.runOn_jobs]
  exact State.job_modJob_of_job hj _

theorem State.reg_runOn_ne (s : State) {p a : Nat} (j b : Nat) (h : a ≠ R.pwrPart p) : (s.runOn p j b).reg a = s.reg a := by
  unfold State.runOn
  rw [State.reg_setFlag_ne _ _ _ h, State.reg_setFld_ne _ _ _ _ h]
  rfl

/-- The booking stands in the partition's register. -/
theorem State.booking_runOn (s : State) (p j b : Nat) : (s.runOn p j b).fld (R.pwrPart p) 23 12 = b % 4096 := by
  unfold State.runOn
  rw [State.fld_setFlag_ne _ _ _ _ _ _ (by omega) (by omega) (by omega)]
  exact State.fld_setFld_self _ _ _ _ _ (by omega) (by omega)

theorem pwrPart_inj {p q : Nat} (h : R.pwrPart p = R.pwrPart q) : p = q := by unfold R.pwrPart at h; omega

/-- What decides on partition `p` is in `t` as in `s`: its holder, its register, its jobs, and the images. -/
structure SamePart (p : Nat) (s t : State) : Prop where
  sorted : Map.sorted t.jobs.jobs = true
  img : t.img = s.img
  holder : t.holderOf p = s.holderOf p
  reg : t.reg (R.pwrPart p) = s.reg (R.pwrPart p)
  jobs : t.jobsWhere (·.part == p) = s.jobsWhere (·.part == p)

namespace SamePart
variable {p j : Nat} {x : Job} {s t u : State}

theorem refl (hs : Map.sorted s.jobs.jobs = true) : SamePart p s s := ⟨hs, rfl, rfl, rfl, rfl⟩

theorem trans (h : SamePart p s t) (h' : SamePart p t u) : SamePart p s u :=
  ⟨h'.sorted, h'.img.trans h.img, h'.holder.trans h.holder, h'.reg.trans h.reg, h'.jobs.trans h.jobs⟩

theorem nextJob (h : SamePart p s t) : t.nextJob p = s.nextJob p := by
  have hw (v : State) : v.nextJob p =
      firstJob Job.before ((v.jobsWhere (·.part == p)).filter fun q => q.2.st == .admitted || q.2.st == .stopped) := by
    simp only [State.nextJob, State.jobsWhere, List.filter_filter, Bool.and_comm]
  rw [hw, hw, h.jobs]

theorem noDispatch (h : SamePart p s t) : t.noDispatch p = s.noDispatch p := by
  unfold State.noDispatch State.partPresent
  rw [State.flag_of_reg h.reg, State.partRec_of_img h.img, h.img]

/-- A job of the partition reads as before. -/
theorem job (h : SamePart p s t) (hj : s.job? j = some x) (hp : x.part = p) : t.job? j = some x := by
  have hm : (j, x) ∈ s.jobsWhere (·.part == p) := List.mem_filter.mpr ⟨Map.mem_of_get? hj, by simp [hp]⟩
  rw [← h.jobs] at hm
  exact Map.get?_of_mem h.sorted (List.mem_filter.mp hm).1

/-- The turn of another partition. -/
theorem dispatchPart {q : Nat} (hs : Map.sorted s.jobs.jobs = true) (hq : q ≠ p) : SamePart p s (s.dispatchPart q) := by
  rcases s.dispatchPart_cases q with e | ⟨i, y, hn, e⟩
  · rw [e]; exact refl hs
  · obtain ⟨hi, hy⟩ := State.job_of_nextJob hs hn
    have hi' : Map.modify s.jobs.jobs i Job.started = Map.set s.jobs.jobs i y.started := by
      unfold Map.modify
      rw [show Map.get? s.jobs.jobs i = some y from hi]
    have hno : (y.part == p) = false := by simpa [hy] using hq
    have hreg : R.pwrPart p ≠ R.pwrPart q := fun e => hq (pwrPart_inj e).symm
    rw [e]
    refine ⟨?_, State.runOn_img _ _ _ _, ?_, State.reg_runOn_ne _ _ _ hreg, ?_⟩
    · rw [State.runOn_jobs]
      exact hi' ▸ Map.sorted_set _ _ _ hs
    · rw [State.holderOf_runOn, if_neg hq.symm]
    · unfold State.jobsWhere
      rw [State.runOn_jobs]
      exact hi' ▸ Map.filter_set_of_not (P := fun z : Job => z.part == p) hi hno hno

/-- The turns of other partitions. -/
theorem dispatchParts {l : List Nat} (hs : Map.sorted s.jobs.jobs = true) (hl : p ∉ l) :
    SamePart p s (l.foldl State.dispatchPart s) :=
  List.foldlRecOn (motive := fun t => SamePart p s t) l _ (refl hs) fun _ ht _ hq =>
    ht.trans (dispatchPart ht.sorted fun e => hl (e ▸ hq))

end SamePart

/-- DISPATCH at a round boundary is the turn of each partition. -/
theorem dispatch_eq {s : State} (hact : s.hubActs = true) (hb : s.atBoundary = true) (hp : s.mod.power = .run)
    (hr : s.mod.readyReq = false) : exec .dispatch s = .next ((List.range 16).foldl State.dispatchPart s) := by
  change execDispatch s = _
  simp [execDispatch, hact, hb, hp, hr]

/-- Each partition's turn comes once, so that a free partition gets its first waiting job whatever the others get. -/
theorem dispatch_gives {s : State} {j : Nat} {x : Job} (hj : s.job? j = some x) (hs : Map.sorted s.jobs.jobs = true)
    (hp : x.part < 16) (hh : s.holderOf x.part = none) (hd : s.noDispatch x.part = false)
    (hn : s.nextJob x.part = some (j, x)) : let t := (List.range 16).foldl State.dispatchPart s
    t.holderOf x.part = some j ∧ t.fld (R.pwrPart x.part) 23 12 = x.leavePeak % 4096 ∧ t.job? j = some x.started := by
  obtain ⟨l, r, hlr⟩ := List.append_of_mem (List.mem_range.mpr hp)
  have hnd : (l ++ x.part :: r).Nodup := hlr ▸ List.nodup_range
  obtain ⟨-, hr, hdis⟩ := List.nodup_append.mp hnd
  have hl : x.part ∉ l := fun hm => hdis _ hm _ (List.mem_cons_self ..) rfl
  intro t
  have ht : t = r.foldl State.dispatchPart ((l.foldl State.dispatchPart s).dispatchPart x.part) := by
    simp only [t, hlr, List.foldl_append, List.foldl_cons]
  have h1 : SamePart x.part s (l.foldl State.dispatchPart s) := SamePart.dispatchParts hs hl
  generalize l.foldl State.dispatchPart s = u at h1 ht
  rw [State.dispatchPart_runs (h1.holder.trans hh) (h1.noDispatch.trans hd) (h1.nextJob.trans hn)] at ht
  have hju := State.job_runOn (h1.job hj rfl) x.part x.leavePeak
  have hsu : Map.sorted (u.runOn x.part j x.leavePeak).jobs.jobs = true := by
    rw [State.runOn_jobs]
    dsimp only
    unfold Map.modify
    rw [show Map.get? u.jobs.jobs j = some x from h1.job hj rfl]
    exact Map.sorted_set _ _ _ h1.sorted
  have h2 : SamePart x.part (u.runOn x.part j x.leavePeak) t := ht ▸ SamePart.dispatchParts hsu (List.nodup_cons.mp hr).1
  refine ⟨?_, ?_, h2.job hju rfl⟩
  · rw [h2.holder, State.holderOf_runOn, if_pos rfl]
  · rw [State.fld_of_reg h2.reg, State.booking_runOn]

/-! ### Phases begun and ended by the hub (R592, R612) -/

section
variable {s : State} {j : Nat} {x : Job} {h : PlanHead} {b : List Nat} {p : PhaseEnt}

/-- HUB_PHASE_START: the grant is the phase's leave, or what a cut booking leaves of it (R612, R623). -/
theorem hubPhaseStart_eq (hj : s.job? j = some x) (hact : s.hubActs = true) (hst : x.st = .running) (hin : x.inPhase = false)
    (hh : s.holderOf x.part = some j) (hph : s.jobPhase x = some (h, b, p)) : exec (.hubPhaseStart j) s =
    .next ((s.modJob j fun x => { x with inPhase := true, moved := [], launched := [], begun := 0, shared := 0, drained := 0 }).setFld
      (R.pwrGrant x.part) 11 0 (if x.cut then min p.leave x.claim else p.leave)) := by
  change execHubPhaseStart j s = _
  simp [execHubPhaseStart, hj, hact, hst, hin, hh, hph]

/-- A job behind the phase that it has ended. -/
def Job.pastPhase (x : Job) : Job := { x with inPhase := false, phase := x.phase + 1 }

/-- The phase of job `j` in partition `p` is over: its grant goes. -/
def State.phaseOver (s : State) (p j : Nat) : State := (s.grantPhase p 0).modJob j Job.pastPhase

theorem State.phaseOver_keeps (s : State) (p j : Nat) : (s.phaseOver p j).rnd = s.rnd ∧ (s.phaseOver p j).flt = s.flt := by
  obtain ⟨hr, hf, -⟩ := s.grantPhase_keeps p 0
  exact ⟨hr, hf⟩

theorem State.phaseOver_jobs (s : State) (p j : Nat) : (s.phaseOver p j).jobs = (s.modJob j Job.pastPhase).jobs := by
  obtain ⟨-, -, hj⟩ := s.grantPhase_keeps p 0
  unfold State.phaseOver State.modJob
  rw [hj]

theorem State.job_phaseOver (hj : s.job? j = some x) (p : Nat) : (s.phaseOver p j).job? j = some x.pastPhase :=
  (State.job_of_jobs (s.phaseOver_jobs p j) j).trans (State.job_modJob_of_job hj _)

/-- Every peak of the partition has drained the phase that job `j` runs. -/
def State.phaseDone (s : State) (j : Nat) (x : Job) : Prop :=
  s.job? j = some x ∧ s.hubActs = true ∧ x.st = .running ∧ x.inPhase = true ∧
    ∃ r, s.partRec x.part = some r ∧ x.drained = maskOf r.peaks

/-- HUB_PHASE_END of the last phase: the job completes. -/
theorem hubPhaseEnd_completes (hd : s.phaseDone j x) (hl : x.phases ≤ x.phase + 1) :
    exec (.hubPhaseEnd j) s = .next ((s.phaseOver x.part j).completeJob j x.pastPhase) := by
  obtain ⟨hj, hact, hst, hin, r, hr, hdr⟩ := hd
  change execHubPhaseEnd j s = _
  simp [execHubPhaseEnd, hj, hact, hst, hin, hr, hdr, hl]
  rfl

/-- HUB_PHASE_END of another phase that no preemption point follows: the job goes on. -/
theorem hubPhaseEnd_goesOn (hd : s.phaseDone j x) (hl : x.phase + 1 < x.phases) (hph : s.jobPhase x = some (h, b, p))
    (hp : p.point = false) : exec (.hubPhaseEnd j) s = .next (s.phaseOver x.part j) := by
  obtain ⟨hj, hact, hst, hin, r, hr, hdr⟩ := hd
  have hl' : ¬x.phases ≤ x.phase + 1 := Nat.not_le.mpr hl
  change execHubPhaseEnd j s = _
  simp [execHubPhaseEnd, hj, hact, hst, hin, hr, hdr, hl', hph, hp]
  rfl

/-- What the end of a phase leaves: the record and the free partition of a job that completes, or the job at its next phase. -/
theorem hubPhaseEnd_outcomes (hd : s.phaseDone j x) :
    (x.phases ≤ x.phase + 1 → s.holderOf x.part = some j → Map.get? s.flt.fenceAtEnd x.part = none →
      Does (.hubPhaseEnd j) s fun t => t.holderOf x.part = none ∧ (t.chan x.channel).recs =
        (s.chan x.channel).recs ++ [x.pastPhase.judged.record j 0 0 0 s.rnd.round []]) ∧
    (∀ h b p, x.phase + 1 < x.phases → s.jobPhase x = some (h, b, p) → p.point = false → Does (.hubPhaseEnd j) s fun t =>
      t.job? j = some x.pastPhase ∧ t.holderOf x.part = s.holderOf x.part) := by
  have hj : s.job? j = some x := hd.1
  obtain ⟨hrnd, hflt⟩ := s.phaseOver_keeps x.part j
  have hjobs := s.phaseOver_jobs x.part j
  have hjo := State.job_phaseOver hj x.part
  have hho : (s.phaseOver x.part j).holderOf x.part = s.holderOf x.part := State.holderOf_of_jobs hjobs _
  have hco : (s.phaseOver x.part j).chan x.channel = s.chan x.channel := State.chan_of_jobs hjobs _
  constructor
  · intro hl hh hf
    refine ⟨_, hubPhaseEnd_completes hd hl, ?_⟩
    have hend := State.completeJob_ends hjo (hho.trans hh) (hflt ▸ hf)
    rwa [hrnd, show x.pastPhase.channel = x.channel from rfl, hco] at hend
  · intro h b p hl hph hp
    exact ⟨_, hubPhaseEnd_goesOn hd hl hph hp, hjo, hho⟩

end

/-! ### What the peaks do in a phase (R50, R270, R272, R345, R612, R613) -/

/-- Half `h` with empty read-only caches and the settings of R329 taken. -/
def State.cleanHalf (s : State) (h : Nat) : State :=
  let clean (k : Nat) (c : Core) : Core := if ofHalf h k then { c with constLines := [], descLines := [] } else c
  { s with cor := { s.cor with
      cores := Map.mapVals s.cor.cores clean, isa := Map.set s.cor.isa h (s.reg (R.corIsaCfg (h / 2)) % 32) } }

theorem State.reg_phaseArray_ne (s : State) {h a : Nat} (ha : a ≠ R.mxaStatus h) : (s.phaseArray h).reg a = s.reg a := by
  unfold State.phaseArray State.setArray
  exact State.reg_setReg_ne _ _ ha

@[simp] theorem State.phaseArray_cor (s : State) (h : Nat) : (s.phaseArray h).cor = s.cor := by
  unfold State.phaseArray State.setArray
  rw [State.setReg_cor]

@[simp] theorem State.reg_cleanHalf (s : State) (h a : Nat) : (s.cleanHalf h).reg a = s.reg a := rfl

/-- A half that starts a phase ends with its caches emptied, the split shown, and its array set. -/
theorem State.beginHalf_eq (s : State) (h sel : Nat) : ∃ u : State,
    s.beginHalf h sel = ((u.cleanHalf h).setFld (R.corResident h) 18 16 sel).phaseArray h := ⟨_, rfl⟩

theorem State.split_beginHalf (s : State) (h sel : Nat) : (s.beginHalf h sel).fld (R.corResident h) 18 16 = sel % 8 := by
  obtain ⟨u, e⟩ := s.beginHalf_eq h sel
  have ha : R.corResident h ≠ R.mxaStatus h := by unfold R.corResident R.mxaStatus Base.corHalf Base.mxa; omega
  rw [e, State.fld_of_reg (State.reg_phaseArray_ne _ ha)]
  exact State.fld_setFld_self _ _ _ _ _ (by omega) (by omega)

theorem State.isa_beginHalf (s : State) (h sel : Nat) :
    Map.get? (s.beginHalf h sel).cor.isa h = some ((s.beginHalf h sel).reg (R.corIsaCfg (h / 2)) % 32) := by
  obtain ⟨u, e⟩ := s.beginHalf_eq h sel
  have hne : R.corIsaCfg (h / 2) ≠ R.corResident h := by
    unfold R.corIsaCfg R.corResident Base.cor Base.corHalf; omega
  have ha : R.corIsaCfg (h / 2) ≠ R.mxaStatus h := by unfold R.corIsaCfg R.mxaStatus Base.cor Base.mxa; omega
  have hreg : (s.beginHalf h sel).reg (R.corIsaCfg (h / 2)) = u.reg (R.corIsaCfg (h / 2)) := by
    rw [e, State.reg_phaseArray_ne _ ha, State.reg_setFld_ne _ _ _ _ hne, State.reg_cleanHalf]
  rw [hreg, e, State.phaseArray_cor, State.setFld_cor]
  exact Map.get?_set_self _ _ _

theorem State.caches_beginHalf (s : State) (h sel : Nat) : ∀ q ∈ (s.beginHalf h sel).cor.cores, q.1 / 128 = h →
    q.2.constLines = [] ∧ q.2.descLines = [] := by
  obtain ⟨u, e⟩ := s.beginHalf_eq h sel
  intro q hq hh
  rw [e, State.phaseArray_cor, State.setFld_cor] at hq
  obtain ⟨c, -, rfl⟩ := List.mem_map.mp hq
  have hof : ofHalf h c.1 = true := beq_iff_eq.mpr hh
  simp [hof]

section
variable {s : State} {j peak : Nat} {x : Job} {hd : PlanHead} {b : List Nat} {p : PhaseEnt}

/-- PEAK_PHASE_START where one half of the partition is on the peak. -/
theorem peakPhaseStart_eq (hu : s.unitsRun = true) (hs : s.seqRuns peak = true) (hj : s.phaseJob j = some x)
    (hph : s.jobPhase x = some (hd, b, p)) (hb : bit x.begun peak = false) {h i : Nat} (hh : s.jobHalves x peak = [(h, i)]) :
    exec (.peakPhaseStart peak j) s =
      .next ((s.beginHalf h (p.l1 hd)).modJob j fun x => { x with begun := putBit x.begun peak true }) := by
  change execPeakPhaseStart peak j s = _
  unfold execPeakPhaseStart
  rw [State.whenSeq_eq hu hs]
  simp [hj, hph, hb, hh]

/-- The partition's halves on a peak given their shares. -/
def State.shareHalves (s : State) (l : List (Nat × Nat)) (g n : Nat) : State :=
  l.foldl (fun s q => s.setFld (R.govShare q.1) 11 0 (shareSplit g n q.2)) s

theorem State.shareHalves_jobs (s : State) (l : List (Nat × Nat)) (g n : Nat) : (s.shareHalves l g n).jobs = s.jobs :=
  State.jobs_foldl_setFld _ _ _ _ _ _

/-- SHARE_UPDATE. -/
theorem shareUpdate_eq (hu : s.unitsRun = true) (hs : s.seqRuns peak = true) (hj : s.phaseJob j = some x) {r : PartRec}
    (hr : s.partRec x.part = some r) : exec (.shareUpdate peak j) s =
      .next ((s.shareHalves (s.jobHalves x peak) (s.fld (R.pwrGrant x.part) 11 0) r.halves.length).modJob j
        fun x => { x with shared := putBit x.shared peak true }) := by
  change execShareUpdate peak j s = _
  unfold execShareUpdate
  rw [State.whenSeq_eq hu hs]
  simp only [hj, hr]
  rfl

theorem govShare_inj {h k : Nat} (e : R.govShare h = R.govShare k) : h = k := by unfold R.govShare Base.gov at e; omega

/-- Halves that differ have shares of their own (R613). -/
theorem State.share_shareHalves {l : List (Nat × Nat)} (hl : (l.map (·.1)).Nodup) (s : State) (g n : Nat) {q : Nat × Nat}
    (hq : q ∈ l) : (s.shareHalves l g n).fld (R.govShare q.1) 11 0 = shareSplit g n q.2 % 4096 := by
  have hnd : (l.map fun q => R.govShare q.1).Nodup := by
    rw [show (l.map fun q => R.govShare q.1) = (l.map (·.1)).map R.govShare by simp]
    exact List.Pairwise.map R.govShare (fun _ _ hne e => hne (govShare_inj e)) hl
  exact State.fld_foldl_setFld (fun q : Nat × Nat => R.govShare q.1) (fun q => shareSplit g n q.2) (by omega) (by omega) l
    hnd s hq

/-- What a tile finds when it may be launched: its job, its core, room, and a granted draw (R50, R270, R614). -/
def State.mayLaunch (s : State) (j h core : Nat) (x : Job) (hd : PlanHead) (b : List Nat) (p : PhaseEnt) : Prop :=
  s.unitsRun = true ∧ s.seqRuns (h / 2) = true ∧ (s.partOfHalf h).bind s.holderOf = some j ∧ s.phaseJob j = some x ∧
    s.jobPhase x = some (hd, b, p) ∧ bit x.begun (h / 2) = true ∧ bit x.shared (h / 2) = true ∧
    (s.physOf h core).any (s.coreGood h) = true ∧ (s.drawsOf h).any (fun d => d.unit == core) = true ∧
    s.drawGranted h core = true

/-- TILE_LAUNCH of the first tile that waits for a core. -/
theorem tileLaunch_eq {h core i : Nat} (hm : s.mayLaunch j h core x hd b p) {tl : TileEnt} {l : List (Nat × TileEnt)}
    (hw : s.waitingTiles x h (s.logicalHalf h) core (phaseTiles b p) = (i, tl) :: l)
    (hfit : (s.core h core).groups.length + tl.groups ≤ p.groupsMax) : exec (.tileLaunch h core) s =
      .next (s.launchTile j x h (s.logicalHalf h) core i tl hd p) := by
  obtain ⟨hu, hs, hh, hj, hph, hbeg, hsh, hphy, hdr, hgr⟩ := hm
  have hfit' : ¬p.groupsMax < (s.core h core).groups.length + tl.groups := Nat.not_lt.mpr hfit
  change execTileLaunch h core s = _
  unfold execTileLaunch
  rw [State.whenSeq_eq hu hs]
  simp only [hh, hj, hbeg, hsh, hphy, hph, hw, hfit', hdr, hgr, Bool.not_true, Bool.or_self, Bool.false_eq_true, if_false,
    if_true]

theorem State.job_launchTile (hj : s.job? j = some x) (y : Job) (h lh core i : Nat) (tl : TileEnt) :
    (s.launchTile j y h lh core i tl hd p).job? j = some { x with launched := i :: x.launched } := by
  unfold State.launchTile
  exact State.job_modJob_of_job hj _

theorem Core.freeSlots_nodup (c : Core) (n : Nat) : (c.freeSlots n).Nodup :=
  (List.nodup_range.filter _).sublist (List.take_sublist _ _)

/-- The groups of a tile stand in the slots it takes, in their order, their registers zero (R272). -/
theorem State.groups_launchTile (s : State) (j : Nat) (x : Job) (h lh core i : Nat) (tl : TileEnt) (hd : PlanHead)
    (p : PhaseEnt) : let slots := (s.core h core).freeSlots tl.groups
    ∀ q ∈ slots.zipIdx, Map.get? ((s.launchTile j x h lh core i tl hd p).core h core).groups q.1 =
      some (Group.fresh p.regs ((slots.head?).getD 0) q.2 (s.cor.launches + q.2)) := by
  intro slots q hq
  have hnd : (slots.zipIdx.map (·.1)).Nodup := by
    rw [List.zipIdx_map_fst]; exact Core.freeSlots_nodup _ _
  unfold State.launchTile
  rw [State.core_modJob]
  unfold State.core State.setCore
  rw [Map.getD_set_self]
  exact Map.get?_foldl_set (·.1) (fun q => Group.fresh p.regs ((slots.head?).getD 0) q.2 (s.cor.launches + q.2)) _ hnd _ hq

/-- The tile's block stands at its lowest slot, with the tile's parameter, kernel and window (R270). -/
theorem State.block_launchTile (s : State) (j : Nat) (x : Job) (h lh core i : Nat) (tl : TileEnt) (hd : PlanHead)
    (p : PhaseEnt) : ∃ k, Map.get? ((s.launchTile j x h lh core i tl hd p).core h core).blocks
        ((((s.core h core).freeSlots tl.groups).head?).getD 0) = some k ∧
      k.job = j ∧ k.tidx = i ∧ k.gcnt = tl.groups ∧ k.param = tl.param ∧ k.kernel = x.planAddr + p.kernelOff ∧
      k.kernelLen = p.kernelLen ∧ k.window = tl.groups * p.lstore * 256 := by
  unfold State.launchTile
  rw [State.core_modJob]
  unfold State.core State.setCore
  rw [Map.getD_set_self]
  exact ⟨_, Map.get?_set_self _ _ _, rfl, rfl, rfl, rfl, rfl, rfl, rfl⟩

/-- Half `h` is at rest: no block, no array tile, no write on its way, no store that is not performed (R59). -/
def State.drainedHalf (s : State) (h : Nat) : Prop :=
  (∀ q ∈ s.cor.cores, q.1 / 128 = h → q.2.blocks = []) ∧ (s.array h).queue = [] ∧ (s.array h).running = [] ∧
    (∀ q ∈ s.mem.net, q.2.src.half? = some h → q.2.kind ≠ .wrNC ∧ q.2.kind ≠ .atom) ∧
    (∀ q ∈ s.mem.l1, q.1 / 128 = h → ∀ o ∈ q.2.opens, o.2 = [])

/-- PHASE_DRAIN on a peak that has launched its tiles and is at rest. -/
theorem phaseDrain_eq (hu : s.unitsRun = true) (hs : s.seqRuns peak = true) (hj : s.phaseJob j = some x)
    (hph : s.jobPhase x = some (hd, b, p)) {h i : Nat} (hh : s.jobHalves x peak = [(h, i)]) (hb : bit x.begun peak = true)
    (hr : s.drainedHalf h) (hl : ∀ q ∈ (phaseTiles b p).zipIdx, q.1.half = i → q.2 ∈ x.launched) :
    exec (.phaseDrain peak j) s = .next (s.modJob j fun x => { x with drained := putBit x.drained peak true }) := by
  obtain ⟨hblk, hque, hrun, hnet, hopen⟩ := hr
  have hblk' : (s.cor.cores.all fun q => !ofHalf h q.1 || q.2.blocks.isEmpty) = true := by
    simp only [List.all_eq_true, Bool.or_eq_true, Bool.not_eq_true', List.isEmpty_iff, ofHalf, beq_eq_false_iff_ne]
    exact fun q hq => (Classical.em (q.1 / 128 = h)).symm.imp_right (hblk q hq)
  have hnet' : (s.mem.net.any fun q => q.2.src.half? == some h && (q.2.kind == .wrNC || q.2.kind == .atom)) = false := by
    simp only [List.any_eq_false, Bool.and_eq_true, Bool.or_eq_true, beq_iff_eq, not_and, not_or]
    exact hnet
  have hopen' : (s.mem.l1.all fun q => !ofHalf h q.1 || q.2.opens.all fun o => o.2.isEmpty) = true := by
    simp only [List.all_eq_true, Bool.or_eq_true, Bool.not_eq_true', List.isEmpty_iff, ofHalf, beq_eq_false_iff_ne]
    exact fun q hq => (Classical.em (q.1 / 128 = h)).symm.imp_right (hopen q hq)
  have hl' : ((phaseTiles b p).zipIdx.all fun t =>
      x.launched.contains t.2 || !(([(h, i)] : List (Nat × Nat)).any fun q => q.2 == t.1.half)) = true := by
    simp only [List.all_eq_true, List.any_cons, List.any_nil, Bool.or_false, Bool.or_eq_true, Bool.not_eq_true',
      beq_eq_false_iff_ne, List.contains_iff_mem]
    exact fun q hq => (Classical.em (q.1.half = i)).imp (hl q hq) fun hne e => hne e.symm
  change execPhaseDrain peak j s = _
  unfold execPhaseDrain
  rw [State.whenSeq_eq hu hs]
  simp only [hj, hph, hh, hb, hl', List.all_cons, List.all_nil, hblk', hque, hrun, List.isEmpty_nil, hnet', hopen',
    Bool.not_false, Bool.and_true, if_true]

end

/-! ### The statement -/

/-- Settles O52: each command's equation on the states the statement describes, read by the lemmas about its effect. -/
theorem jobsAdmittedDispatchedAndPhased : Obligations.JobsAdmittedDispatchedAndPhased := by
  intro j x s hj
  refine ⟨?admission, ?dispatch, ?phaseStart, ?phaseEnd, ?peaks⟩
  case admission =>
    intro code h hact hmay hw hchk
    exact admitJob_outcomes ⟨hj, hact, hmay, hw, hchk⟩
  case dispatch =>
    intro hs hact hb hp hr hlt hh hd hn
    exact ⟨_, dispatch_eq hact hb hp hr, dispatch_gives hj hs hlt hh hd hn⟩
  case phaseStart =>
    intro h b p hact hst hin hh hph
    exact ⟨_, hubPhaseStart_eq hj hact hst hin hh hph, State.fld_setFld_self _ _ _ _ _ (by omega) (by omega),
      (State.job_of_jobs (State.setFld_jobs _ _ _ _ _) j).trans (State.job_modJob_of_job hj _)⟩
  case phaseEnd =>
    intro r hact hst hin hr hdr
    exact hubPhaseEnd_outcomes ⟨hj, hact, hst, hin, r, hr, hdr⟩
  case peaks =>
    intro peak hd b p hu hs hpeak hpj hph
    refine ⟨?start, ?share, ?launch, ?drain⟩
    case start =>
      intro h i hb hh _
      refine ⟨_, peakPhaseStart_eq hu hs hpj hph hb hh, ?_⟩
      dsimp only
      rw [State.fld_modJob, State.reg_modJob, State.modJob_cor]
      exact ⟨State.split_beginHalf _ _ _, State.isa_beginHalf _ _ _, State.caches_beginHalf _ _ _⟩
    case share =>
      intro r hr hnd _
      have hj' := (State.job_of_jobs (State.shareHalves_jobs s (s.jobHalves x peak) (s.fld (R.pwrGrant x.part) 11 0)
        r.halves.length) j).trans hj
      exact ⟨_, shareUpdate_eq hu hs hpj hr, ⟨_, State.job_modJob_of_job hj' _, rfl⟩, fun q hq =>
        State.share_shareHalves hnd _ _ _ hq⟩
    case launch =>
      rintro h core i tl l rfl _ hh hbeg hsh hphy hw hfit hdr hgr
      exact ⟨_, tileLaunch_eq ⟨hu, hs, hh, hpj, hph, hbeg, hsh, hphy, hdr, hgr⟩ hw hfit,
        ⟨_, State.job_launchTile hj _ _ _ _ _ _, rfl⟩, State.block_launchTile .., State.groups_launchTile _ _ _ _ _ _ _ _ _ _⟩
    case drain =>
      intro h i hh hb hblk hque hrun hnet hopen hl
      exact ⟨_, phaseDrain_eq hu hs hpj hph hh hb ⟨hblk, hque, hrun, hnet, hopen⟩ hl, State.job_modJob_of_job hj _⟩

end Sys2Proof.Machine
end

section
/-! PROOFS. The contacts of the module, its power states, converter tiles and oscillator, the store's window and the input
thresholds. What the work of the hub and the peaks leaves alone is said once: the module's state and the registers of block
GLB. Then each command has what it does, and the statements of chapter "Module and Package" are put together from these. -/

namespace Sys2Proof.Machine

/-! ### Registers written one after another -/

theorem RegsBut.refl (l : List Nat) (s : State) : RegsBut l s s := fun _ _ _ => rfl

theorem RegsBut.setMod (l : List Nat) (s : State) (m : ModuleState) : RegsBut l s { s with mod := m } := fun _ _ _ => rfl

/-- Another write of a listed register. -/
theorem RegsBut.setReg_mem {l : List Nat} {s t : State} (h : RegsBut l s t) {a : Nat} (ha : a ∈ l) (v : Nat) :
    RegsBut l s (t.setReg a v) := fun x hx hc => by
  have hne : x ≠ a := fun e => hx (e ▸ ha)
  rw [State.reg_setReg_ne t v hne, h x hx hc]

theorem RegsBut.setFlag_mem {l : List Nat} {s t : State} (h : RegsBut l s t) {a : Nat} (ha : a ∈ l) (i : Nat) (b : Bool) :
    RegsBut l s (t.setFlag a i b) := h.setReg_mem ha _

/-! ### A table changed in every entry -/

theorem Map.get?_mapVals {α : Type} (t : Table α) (f : Nat → α → α) (k : Nat) :
    Map.get? (Map.mapVals t f) k = (Map.get? t k).map (f k) := by
  induction t with
  | nil => rfl
  | cons p t ih =>
    obtain ⟨j, v⟩ := p
    change Map.get? ((j, f j v) :: Map.mapVals t f) k = _
    simp only [Map.get?, ih]
    split
    · next h => subst h; rfl
    · rfl

/-! ### The module's state and the registers of block GLB -/

/-- The module's state and the registers of block GLB are as they were. -/
structure SameGlb (s t : State) : Prop where
  mod : t.mod = s.mod
  reg : ∀ a, a < Base.img → t.reg a = s.reg a

namespace SameGlb

variable {s t u : State}

theorem refl (s : State) : SameGlb s s := ⟨rfl, fun _ _ => rfl⟩

theorem trans (h : SameGlb s t) (h' : SameGlb t u) : SameGlb s u :=
  ⟨h'.mod.trans h.mod, fun a ha => (h'.reg a ha).trans (h.reg a ha)⟩

/-- States that differ neither in the register file nor in the module's state. -/
theorem of_eq (hr : t.regs = s.regs) (hm : t.mod = s.mod) : SameGlb s t :=
  ⟨hm, fun a _ => by unfold State.reg; rw [hr]⟩

theorem setPwr (s : State) (x : PowerCtl) : SameGlb s { s with pwr := x } := .of_eq rfl rfl
theorem setCrn (s : State) (x : CairnState) : SameGlb s { s with crn := x } := .of_eq rfl rfl
theorem setRnd (s : State) (x : RoundState) : SameGlb s { s with rnd := x } := .of_eq rfl rfl

theorem flag (h : SameGlb s t) {a : Nat} (ha : a < Base.img) (i : Nat) : t.flag a i = s.flag a i :=
  State.flag_of_reg (h.reg a ha) i

theorem fld (h : SameGlb s t) {a : Nat} (ha : a < Base.img) (hi lo : Nat) : t.fld a hi lo = s.fld a hi lo :=
  State.fld_of_reg (h.reg a ha) hi lo

/-- A register of another block written. -/
theorem setReg (s : State) {a : Nat} (ha : Base.img ≤ a) (v : Nat) : SameGlb s (s.setReg a v) :=
  ⟨rfl, fun _ hb => State.reg_setReg_ne s v (Nat.ne_of_lt (Nat.lt_of_lt_of_le hb ha))⟩

theorem setFld (s : State) {a : Nat} (ha : Base.img ≤ a) (hi lo v : Nat) : SameGlb s (s.setFld a hi lo v) := setReg s ha _

theorem setFlag (s : State) {a : Nat} (ha : Base.img ≤ a) (i : Nat) (b : Bool) : SameGlb s (s.setFlag a i b) := setReg s ha _

theorem addFld (s : State) {a : Nat} (ha : Base.img ≤ a) (hi lo k : Nat) : SameGlb s (s.addFld a hi lo k) := setReg s ha _

theorem event (s : State) {die : Nat} (hd : die ≤ 8) (half code : Nat) (fs : List (Nat × Nat)) :
    SameGlb s (s.event die half code fs) :=
  ⟨s.event_mod die half code fs, fun a ha => State.reg_event s _ _ _ _ a hd (.inl (Nat.lt_trans ha (by decide)))⟩

theorem hubEvent (s : State) (code : Nat) (fs : List (Nat × Nat)) : SameGlb s (s.hubEvent code fs) :=
  event s (Nat.le_refl 8) 0 code fs

theorem freeze (s : State) (i code : Nat) : SameGlb s (s.freeze i code) :=
  ⟨s.freeze_mod i code, fun a ha => State.reg_freeze s _ _ a (.inl (Nat.lt_trans ha (by decide)))
    (Nat.ne_of_lt (Nat.lt_trans ha (by decide)))⟩

theorem notice (s : State) (n : Notice) (hd : n.die ≤ 8) : SameGlb s (s.notice n) :=
  ⟨s.notice_mod n, fun a ha => State.reg_notice s n a hd (.inl (Nat.lt_trans ha (by decide)))
    (Nat.ne_of_lt (Nat.lt_trans ha (by decide)))⟩

end SameGlb

/-! ### The pool, the draws and the stacks (R642) -/

theorem State.tarnEnd_eq (s : State) (status detail : Nat) : ∃ x, s.tarnEnd status detail = { s with trn := x } := by
  unfold State.tarnEnd
  split
  · split
    · exact ⟨_, rfl⟩
    · exact ⟨_, rfl⟩
  · exact ⟨_, rfl⟩

/-- A change of the pool brings Tarn a change of its pass, and its wait may be counted. -/
theorem State.tarnLeave_eq (s : State) :
    ∃ u x, s.tarnLeave = { u with trn := x } ∧ (u = s ∨ ∃ k, u = s.count R.trnLeaveWait k) := by
  unfold State.tarnLeave
  split
  · exact ⟨s, _, rfl, .inl rfl⟩
  · next p _ =>
    split
    · split
      · exact ⟨s, _, rfl, .inl rfl⟩
      · exact ⟨s, _, rfl, .inl rfl⟩
    · split
      · obtain ⟨x, hx⟩ := State.tarnEnd_eq (s.setPass { p with granted := false, leaveSince := none }) 9 0
        exact ⟨s, x, hx, .inl rfl⟩
      · split
        · split
          · exact ⟨_, _, rfl, .inr ⟨_, rfl⟩⟩
          · exact ⟨s, _, rfl, .inl rfl⟩
        · split
          · exact ⟨s, _, rfl, .inl rfl⟩
          · exact ⟨s, _, rfl, .inl rfl⟩

theorem State.tarnLeave_keeps (s : State) :
    SameGlb s s.tarnLeave ∧ s.tarnLeave.pwr = s.pwr ∧ s.tarnLeave.rng = s.rng := by
  obtain ⟨u, x, h, hu⟩ := s.tarnLeave_eq
  rw [h]
  rcases hu with rfl | ⟨k, rfl⟩
  · exact ⟨.of_eq rfl rfl, rfl, rfl⟩
  · exact ⟨(SameGlb.addFld s (by decide) _ _ _).trans (.of_eq rfl rfl), rfl, rfl⟩

/-- The pool's requests replaced: nothing else of the leave, of the ring or of block GLB. -/
theorem State.setPool_keeps (s : State) (l : List PoolReq) :
    SameGlb s (s.setPool l) ∧ (s.setPool l).pwr = { s.pwr with pool := l } ∧ (s.setPool l).rng = s.rng := by
  obtain ⟨hg, hp, hr⟩ := State.tarnLeave_keeps { s with pwr := { s.pwr with pool := l } }
  unfold State.setPool
  rw [State.setFld_pwr, State.setFld_pwr, State.setFld_rng, State.setFld_rng]
  exact ⟨(((SameGlb.setPwr s _).trans hg).trans (.setFld _ (by decide) _ _ _)).trans (.setFld _ (by decide) _ _ _), hp, hr⟩

theorem SameGlb.setDraws (s : State) (h : Nat) (l : List Draw) : SameGlb s (s.setDraws h l) := by
  have hgov : Base.img ≤ Base.gov h := by unfold Base.img Base.gov; omega
  have hshare : Base.img ≤ R.govShare h := Nat.le_trans hgov (Nat.le_add_right _ _)
  have hpause : Base.img ≤ R.govPause h := Nat.le_trans hgov (Nat.le_add_right _ _)
  unfold State.setDraws
  exact ((SameGlb.setPwr s _).trans (.setFld _ hshare _ _ _)).trans (.setFld _ hpause _ _ _)

theorem State.dry_setDraws (s : State) (h : Nat) (l : List Draw) : (s.setDraws h l).pwr.dry = s.pwr.dry := by
  unfold State.setDraws
  rw [State.setFld_pwr, State.setFld_pwr]

/-- The granted draws of every half paused. -/
def State.drawsPaused (s : State) : State :=
  (List.range 16).foldl (fun s h =>
    s.setDraws h ((s.drawsOf h).map fun d => if d.st == .granted then { d with st := .paused } else d)) s

theorem State.drawsPaused_keeps (s : State) : SameGlb s s.drawsPaused ∧ s.drawsPaused.pwr.dry = s.pwr.dry :=
  List.foldlRecOn (motive := fun t : State => SameGlb s t ∧ t.pwr.dry = s.pwr.dry) _ _ ⟨.refl s, rfl⟩ fun t ht h _ =>
    ⟨ht.1.trans (.setDraws t h _), (t.dry_setDraws h _).trans ht.2⟩

theorem State.revokeAll_eq (s : State) : s.revokeAll =
    { s.drawsPaused with pwr := { s.drawsPaused.pwr with halted := true } }.setPool
      (s.drawsPaused.pwr.pool.map fun r : PoolReq => { r with granted := false }) := rfl

/-- All leave revoked: the units are halted. -/
theorem State.revokeAll_halts (s : State) :
    SameGlb s s.revokeAll ∧ s.revokeAll.pwr.dry = s.pwr.dry ∧ s.revokeAll.pwr.halted = true := by
  obtain ⟨hu, hdry⟩ := s.drawsPaused_keeps
  obtain ⟨hg, hp, -⟩ := State.setPool_keeps { s.drawsPaused with pwr := { s.drawsPaused.pwr with halted := true } }
    (s.drawsPaused.pwr.pool.map fun r : PoolReq => { r with granted := false })
  rw [State.revokeAll_eq, hp]
  exact ⟨(hu.trans (.setPwr _ _)).trans hg, hdry, rfl⟩

theorem State.restStacks_keeps (s : State) : SameGlb s s.restStacks ∧ s.restStacks.pwr = s.pwr := by
  unfold State.restStacks
  refine List.foldlRecOn (motive := fun t : State => SameGlb s t ∧ t.pwr = s.pwr) _ _ ⟨.refl s, rfl⟩ fun t ht n hn => ?_
  have hn : n < 8 := List.mem_range.mp hn
  have ha : Base.img ≤ R.ucHbmState n := by unfold Base.img R.ucHbmState Base.ucA; omega
  split
  · rw [State.event_pwr, State.setFld_pwr]
    exact ⟨(ht.1.trans (.setFld t ha _ _ _)).trans (.event _ (by omega) _ _ _), ht.2⟩
  · exact ht

theorem State.voidAll_eq (s : State) (c : Nat) : ∃ x, s.voidAll c = { s with jobs := x } :=
  List.foldlRecOn (motive := fun t : State => ∃ x, t = { s with jobs := x }) _ _ ⟨s.jobs, rfl⟩ fun t ⟨x, hx⟩ q _ =>
    ⟨(t.voidJob q.2 c).jobs, by rw [hx]; rfl⟩

/-! ### A dry stop starts (R641, R642) -/

/-- A dry stop told and shown, before any unit has halted. -/
def State.dryShown (s : State) (c : DryCause) : State :=
  let code := match c with | .flow => 1 | .thermal => 2
  let s := s.hubEvent 0x0B01 [(1, code), (8, s.rnd.round)]
  let s := { s with pwr := { s.pwr with dry := some (c, s.mod.islandUs), dryEnding := false } }
  ((s.setFld R.pwrState 14 13 code).setFlag R.pwrEvent 8 true).addFld R.pwrDryTime 31 16 1

theorem State.dryShown_shows (s : State) (c : DryCause) :
    SameGlb s (s.dryShown c) ∧ (s.dryShown c).pwr.dry = some (c, s.mod.islandUs) := by
  unfold State.dryShown
  constructor
  · exact ((((SameGlb.hubEvent s _ _).trans (.setPwr _ _)).trans (.setFld _ (by decide) _ _ _)).trans
      (.setFlag _ (by decide) _ _)).trans (.addFld _ (by decide) _ _ _)
  · rw [State.addFld_pwr, State.setFlag_pwr, State.setFld_pwr, State.hubEvent_mod]

/-- The dry stop's condition fails for the jobs, and its cause says whether Standby follows the snapshot (R646). -/
def State.dryFails (s : State) (c : DryCause) : State :=
  let s := s.voidAll 3
  { s with crn := { s.crn with thermalStandby := decide (c = DryCause.thermal) } }

theorem State.dryFails_keeps (s : State) (c : DryCause) : SameGlb s (s.dryFails c) ∧ (s.dryFails c).pwr = s.pwr := by
  obtain ⟨x, hx⟩ := s.voidAll_eq 3
  unfold State.dryFails
  rw [hx]
  exact ⟨.of_eq rfl rfl, rfl⟩

theorem State.startDry_eq {s : State} (hp : s.mod.power = .run) (hh : s.pwr.halted = false)
    (hf : s.flag R.fltStatus 0 = false) (c : DryCause) :
    s.startDry c = ((s.dryShown c).dryFails c).haltUnits.freeze 1 0x0B01 := by
  unfold State.startDry
  rw [if_neg (by simp [hp, hh, hf])]
  rfl

/-- In Run, with the units running: the dry stop stands and the units halt. -/
theorem State.startDry_starts {s : State} (hp : s.mod.power = .run) (hh : s.pwr.halted = false)
    (hf : s.flag R.fltStatus 0 = false) (c : DryCause) :
    SameGlb s (s.startDry c) ∧ (s.startDry c).pwr.dry = some (c, s.mod.islandUs) ∧ (s.startDry c).pwr.halted = true := by
  obtain ⟨hshow, hdry⟩ := s.dryShown_shows c
  obtain ⟨hfail, hpwr⟩ := (s.dryShown c).dryFails_keeps c
  obtain ⟨hrev, hkeep, hhalt⟩ := ((s.dryShown c).dryFails c).revokeAll_halts
  obtain ⟨hrest, hpwr'⟩ := ((s.dryShown c).dryFails c).revokeAll.restStacks_keeps
  rw [State.startDry_eq hp hh hf, State.freeze_pwr, State.haltUnits, hpwr', hkeep, hhalt, hpwr, hdry]
  exact ⟨(((hshow.trans hfail).trans hrev).trans hrest).trans (.freeze _ _ _), rfl, rfl⟩

/-! ### The faceplate and the ring (R743, R749, R764, R881) -/

theorem SameGlb.plateChange (s : State) : SameGlb s s.plateChange := by
  unfold State.plateChange State.plateCause
  split
  · dsimp only
    split
    · exact (SameGlb.setCrn s _).trans (.setFlag _ (by decide) _ _)
    · exact .setCrn s _
  · exact .refl s

theorem State.setPower_eq (s : State) (p : PowerState) (cause : Nat) : s.setPower p cause =
    (({ s with mod := { s.mod with power := p } }.setFld R.glbPstate 1 0 p.code).setFld R.glbPstate 7 4 cause).plateChange := rfl

/-- Entering a power state: GLB_PSTATE shows it. -/
theorem State.setPower_shows (s : State) (p : PowerState) (cause : Nat) :
    (s.setPower p cause).mod = { s.mod with power := p } ∧ (s.setPower p cause).fld R.glbPstate 1 0 = p.code := by
  have hc : p.code < 2 ^ 2 := by cases p <;> decide
  have hg := SameGlb.plateChange (({ s with mod := { s.mod with power := p } }.setFld R.glbPstate 1 0 p.code).setFld
    R.glbPstate 7 4 cause)
  rw [State.setPower_eq]
  refine ⟨hg.mod, ?_⟩
  rw [hg.fld (by decide), State.fld_setFld_ne _ _ _ _ _ _ _ (by omega) (by omega) (by omega) (by omega),
    State.fld_setFld_self _ _ _ _ _ (by omega) (by omega), Nat.mod_eq_of_lt hc]

/-- Nothing of the module, of block GLB or of a standing departure differs. -/
structure SameDeparture (s t : State) : Prop extends SameGlb s t where
  departing : t.rng.departing = s.rng.departing

namespace SameDeparture

variable {s t u : State}

theorem refl (s : State) : SameDeparture s s := ⟨.refl s, rfl⟩

theorem trans (h : SameDeparture s t) (h' : SameDeparture t u) : SameDeparture s u :=
  ⟨h.toSameGlb.trans h'.toSameGlb, h'.departing.trans h.departing⟩

/-- The ring's state changed but for the departure. -/
theorem setRng (s : State) {r : RingState} (h : r.departing = s.rng.departing) : SameDeparture s { s with rng := r } :=
  ⟨.of_eq rfl rfl, h⟩

theorem setReg (s : State) {a : Nat} (ha : Base.img ≤ a) (v : Nat) : SameDeparture s (s.setReg a v) := ⟨.setReg s ha v, rfl⟩

theorem setFld (s : State) {a : Nat} (ha : Base.img ≤ a) (hi lo v : Nat) : SameDeparture s (s.setFld a hi lo v) :=
  setReg s ha _

theorem hubEvent (s : State) (code : Nat) (fs : List (Nat × Nat)) : SameDeparture s (s.hubEvent code fs) :=
  ⟨.hubEvent s code fs, by rw [State.hubEvent_rng]⟩

theorem sendItem (s : State) (p : Nat) (i : CtlItem) : SameDeparture s (s.sendItem p i) := by
  unfold State.sendItem
  split
  · exact setRng s rfl
  · exact refl s

theorem sendMarks (s : State) : SameDeparture s s.sendMarks := (sendItem s 0 _).trans (sendItem _ 1 _)

theorem showMap (s : State) : SameDeparture s s.showMap := by
  unfold State.showMap
  refine List.foldlRecOn (motive := SameDeparture s) _ _ (refl s) fun t ht m _ => ht.trans ?_
  have ha : Base.img ≤ R.rngMap m := by unfold Base.img R.rngMap Base.rng; omega
  split
  · exact setReg t ha _
  · split
    · exact setReg t ha _
    · dsimp only
      exact (setRng t (by rfl)).trans (setReg _ ha _)

theorem showRing (s : State) : SameDeparture s s.showRing := by
  have hs (k n : Nat) : SameDeparture s ((s.showMap.setFld R.rngState 2 0 k).setFld R.rngState 8 3 n) :=
    ((showMap s).trans (setFld _ (by decide) _ _ _)).trans (setFld _ (by decide) _ _ _)
  unfold State.showRing
  dsimp only
  split
  · exact hs _ _
  · exact (hs _ _).trans (hubEvent _ _ _)

end SameDeparture

/-! ### The ring DMA engines in a departure (R749, R764) -/

/-- Every ring DMA engine stops once it has no request under way. -/
def State.enginesHalting (s : State) : Prop := ∀ e d, s.ringDma? e = some d → d.halting = true

/-- An engine that stops without completing: its transfer is forgotten. -/
theorem State.endRingDma_keeps (s : State) {e st : Nat} (d : RingDma) (hst : st ≠ 2) :
    SameDeparture s (s.endRingDma e st d) ∧ (s.endRingDma e st d).rng.dma = Map.erase s.rng.dma e := by
  have hset : SameDeparture s { s with rng := { s.rng with dma := Map.erase s.rng.dma e } } := .setRng s rfl
  obtain ⟨hpool, -, hrng⟩ := State.setPool_keeps { s with rng := { s.rng with dma := Map.erase s.rng.dma e } }
    (s.pwr.pool.filter fun r => r.user != .ringDma e)
  have ha : Base.img ≤ R.rngDmaStatus e := by unfold Base.img R.rngDmaStatus Base.rng; omega
  unfold State.endRingDma
  dsimp only
  rw [if_neg hst]
  refine ⟨((hset.trans ⟨hpool, by rw [hrng]⟩).trans (.setFld _ ha _ _ _)).trans (.hubEvent _ _ _), ?_⟩
  rw [State.hubEvent_rng, State.setFld_rng]
  exact congrArg RingState.dma hrng

theorem State.ringDmaNext_halting {s : State} (h : s.enginesHalting) (e : Nat) :
    SameDeparture s (s.ringDmaNext e) ∧ (s.ringDmaNext e).enginesHalting := by
  unfold State.ringDmaNext
  split
  · exact ⟨.refl s, h⟩
  · next d hd =>
    dsimp only
    rw [if_pos (h e d hd)]
    split
    · exact ⟨.refl s, h⟩
    · obtain ⟨hk, hdma⟩ := s.endRingDma_keeps (e := e) (st := 3) d (by decide)
      refine ⟨hk, fun i x hx => ?_⟩
      unfold State.ringDma? at hx
      rw [hdma] at hx
      by_cases hi : i = e
      · simp [hi] at hx
      · rw [Map.get?_erase_ne _ hi] at hx
        exact h i x hx

theorem State.ringDmaNext_foldl_halting {s : State} (h : s.enginesHalting) (l : List Nat) :
    SameDeparture s (l.foldl State.ringDmaNext s) :=
  (List.foldlRecOn (motive := fun t : State => SameDeparture s t ∧ t.enginesHalting) l _ ⟨.refl s, h⟩ fun _ ht e _ =>
    have hn := State.ringDmaNext_halting ht.2 e
    ⟨ht.1.trans hn.1, hn.2⟩).1

/-- A ring DMA engine told to stop. -/
def RingDma.stopping (d : RingDma) : RingDma := { d with halting := true }

/-- A departure begun with the switches open, before anything is sent. -/
def State.departBegun (s : State) (c : DepartCause) : State :=
  { s with rng := { s.rng with
    departing := some c, departDone := false, departGot := 0, dma := Map.mapVals s.rng.dma fun _ d => d.stopping } }

theorem State.enginesHalting_departBegun (s : State) (c : DepartCause) : (s.departBegun c).enginesHalting := fun e d h => by
  have hd : (Map.get? s.rng.dma e).map RingDma.stopping = some d := by
    rw [← Map.get?_mapVals s.rng.dma fun _ d => d.stopping]
    exact h
  obtain ⟨x, -, rfl⟩ := Option.map_eq_some_iff.mp hd
  rfl

theorem State.depart_eq {s : State} (h : s.rng.departing = none) (ho : s.rng.switchesOpen = true) (c : DepartCause) :
    ∃ a b, s.depart c =
      ((((List.range 8).foldl State.ringDmaNext (s.departBegun c)).sendItem 0 a).sendItem 1 b).sendMarks.showRing := by
  unfold State.depart
  rw [if_neg (by simp [h]), if_neg (by simp [ho])]
  exact ⟨_, _, rfl⟩

/-- A departure starts where none stands (R749). -/
theorem State.depart_starts {s : State} (h : s.rng.departing = none) (c : DepartCause) :
    SameGlb s (s.depart c) ∧ (s.depart c).rng.departing = some c := by
  cases ho : s.rng.switchesOpen with
  | false =>
    unfold State.depart
    rw [if_neg (by simp [h]), if_pos (by simp [ho])]
    exact ⟨.of_eq rfl rfl, rfl⟩
  | true =>
    obtain ⟨a, b, he⟩ := State.depart_eq h ho c
    have hb : SameGlb s (s.departBegun c) := .of_eq rfl rfl
    have hdma := State.ringDmaNext_foldl_halting (s.enginesHalting_departBegun c) (List.range 8)
    have hk := ((hdma.trans (.sendItem _ 0 a)).trans (.sendItem _ 1 b)).trans ((SameDeparture.sendMarks _).trans (.showRing _))
    rw [he]
    exact ⟨hb.trans hk.toSameGlb, hk.departing⟩

/-! ### The beacon and the LIN schedule (R119, R834) -/

theorem SameGlb.linStop (s : State) : SameGlb s s.linStop := by
  have hlin : Base.img ≤ R.linEvent := by decide
  unfold State.linStop State.linStopped
  split
  · exact .refl s
  · split
    · exact .of_eq rfl rfl
    · exact (SameGlb.setFlag s hlin _ _).trans (.hubEvent _ _ _)

theorem State.beaconStops_stops (s : State) : SameGlb s s.beaconStops ∧ s.beaconStops.rnd.running = false := by
  unfold State.beaconStops
  split
  · next h => exact ⟨.refl s, by simpa using h⟩
  · dsimp only
    rw [State.notice_rnd]
    exact ⟨((SameGlb.hubEvent s _ _).trans (.setRnd _ _)).trans (.notice _ _ (Nat.le_refl 8)), rfl⟩

/-! ### FLOW_OK and BYPASS_REQ# (R106, R107, R113, R749) -/

/-- A recognized fall of FLOW_OK shown on the pin and as an event. -/
def State.flowFallen (s : State) : State :=
  ({ s with mod := { s.mod with flowOk := false, flowHighSince := none } }.setFlag R.glbModPins 0 false).setFlag R.glbModEvent 0 true

theorem State.flowFallen_shows (s : State) :
    s.flowFallen.flag R.glbModEvent 0 = true ∧ s.flowFallen.flag R.glbModPins 0 = false ∧
      s.flowFallen.reg R.fltStatus = s.reg R.fltStatus := by
  unfold State.flowFallen
  rw [State.flag_of_reg (State.reg_setFlag_ne _ _ _ (by decide : R.glbModPins ≠ R.glbModEvent)),
    State.reg_setFlag_ne _ _ _ (by decide), State.reg_setFlag_ne _ _ _ (by decide)]
  exact ⟨State.flag_setFlag_self _ _ _ _ (by decide), State.flag_setFlag_self _ _ _ _ (by decide), rfl⟩

theorem flowOkFall_starts {s : State} (hp : s.mod.power = .run) (hb : s.boot.running = false) (hh : s.pwr.halted = false)
    (hf : s.flag R.fltStatus 0 = false) : Does .flowOkFall s fun t =>
      t.mod.flowOk = false ∧ t.pwr.dry = some (.flow, s.mod.islandUs) ∧ t.pwr.halted = true ∧
      t.flag R.glbModEvent 0 = true ∧ t.flag R.glbModPins 0 = false := by
  obtain ⟨hevent, hpin, hflt⟩ := s.flowFallen_shows
  obtain ⟨hg, hdry, hhalt⟩ := State.startDry_starts (s := s.flowFallen) hp hh ((State.flag_of_reg hflt 0).trans hf) .flow
  refine ⟨s.flowFallen.startDry .flow, ?_, ?_, hdry, hhalt, (hg.flag (by decide) 0).trans hevent,
    (hg.flag (by decide) 0).trans hpin⟩
  · change execFlowOkFall s = _
    simp [execFlowOkFall, State.abortBoot, hp, hb, State.flowFallen]
  · rw [hg.mod]
    rfl

/-- A recognized rise of FLOW_OK shown on the pin and as an event. -/
def State.flowRisen (s : State) : State :=
  ({ s with mod := { s.mod with flowOk := true, flowHighSince := some s.mod.islandUs } }.setFlag R.glbModPins 0 true).setFlag
    R.glbModEvent 1 true

theorem flowOkRise_shows {s : State} (hp : s.mod.power ≠ .off) (hd : s.pwr.dry = none) : Does .flowOkRise s fun t =>
    t.mod = { s.mod with flowOk := true, flowHighSince := some s.mod.islandUs } ∧ t.flag R.glbModPins 0 = true ∧
    t.flag R.glbModEvent 1 = true ∧ RegsBut [R.glbModPins, R.glbModEvent] s t := by
  refine ⟨s.flowRisen, ?_, rfl, ?_, ?_, ?_⟩
  · change execFlowOkRise s = _
    simp [execFlowOkRise, hp, State.dryRise, hd, State.flowRisen]
  · rw [State.flowRisen, State.flag_of_reg (State.reg_setFlag_ne _ _ _ (by decide))]
    exact State.flag_setFlag_self _ _ _ _ (by decide)
  · exact State.flag_setFlag_self _ _ _ _ (by decide)
  · exact ((RegsBut.setMod _ s _).setFlag_mem (by simp) _ _).setFlag_mem (by simp) _ _

/-- BYPASS_REQ# asserted, shown on the pin and as an event. -/
def State.bypassAsked (s : State) : State :=
  ({ s with mod := { s.mod with bypassReq := true } }.setFlag R.glbModPins 1 true).setFlag R.glbModEvent 7 true

theorem bypassReqAssert_departs {s : State} (hp : s.mod.power = .run) (hd : s.rng.departing = none) :
    Does .bypassReqAssert s fun t => t.mod.bypassReq = true ∧ t.rng.departing = some .bypass := by
  obtain ⟨hg, hdep⟩ := State.depart_starts (s := s.bypassAsked) hd .bypass
  refine ⟨s.bypassAsked.depart .bypass, ?_, ?_, hdep⟩
  · change execBypassReqAssert s = _
    simp [execBypassReqAssert, State.isUp, hp, State.bypassAsked]
  · rw [hg.mod]
    rfl

/-- BYPASS_REQ# deasserted and shown, the departure of its own no longer standing. -/
def State.bypassEnded (s : State) : State :=
  { { s with mod := { s.mod with bypassReq := false } }.setFlag R.glbModPins 1 false with
    rng := { s.rng with departing := none, departDone := false } }

theorem bypassReqDeassert_ends {s : State} (hp : s.mod.power = .run) (hd : s.rng.departing = some .bypass) :
    Does .bypassReqDeassert s fun t => t.mod.bypassReq = false ∧ t.rng.departing = none ∧ t.flag R.glbModPins 1 = false := by
  have hk := SameDeparture.showRing s.bypassEnded
  have hpin : s.bypassEnded.flag R.glbModPins 1 = false :=
    State.flag_setFlag_self { s with mod := { s.mod with bypassReq := false } } _ _ _ (by decide)
  refine ⟨s.bypassEnded.showRing, ?_, ?_, hk.departing, (hk.flag (by decide) 1).trans hpin⟩
  · change execBypassReqDeassert s = _
    simp [execBypassReqDeassert, State.endDeparture, hp, hd, State.bypassEnded]
  · rw [hk.mod]
    rfl

/-! ### Power states (R98, R99) -/

theorem pstateReqRun_runs {s : State} (hp : s.mod.power = .ready) (hf : s.mod.flowOk = true) : Does .pstateReqRun s fun t =>
    t.mod.power = .run ∧ t.fld R.glbPstate 1 0 = PowerState.run.code := by
  obtain ⟨hm, hc⟩ := State.setPower_shows { s with mod := { s.mod with readyReq := false } } .run 3
  refine ⟨_, ?_, by rw [hm], hc⟩
  change execPstateReqRun s = _
  simp [execPstateReqRun, hp, hf]

theorem runToReady_readies {s : State} (hp : s.mod.power = .run) (hr : s.mod.readyReq = true) (hj : s.jobs.holder = [])
    (hu : s.unitsRun = true) (hs : s.seqRuns 8 = true) : Does .runToReady s fun t =>
      t.mod.power = .ready ∧ t.mod.readyReq = false ∧ t.fld R.glbPstate 1 0 = PowerState.ready.code := by
  obtain ⟨hm, hc⟩ := State.setPower_shows { s with mod := { s.mod with readyReq := false } } .ready 3
  refine ⟨_, ?_, by rw [hm], by rw [hm], hc⟩
  change execRunToReady s = _
  simp [execRunToReady, State.whenSeq_eq hu hs, hp, hr, hj]

/-! ### Converter tiles, the oscillator and the temperatures (R89, R90, R119, R122) -/

/-- A converter tile out of use, the capacity and the event shown. -/
def State.tileOut (s : State) (tile : Nat) : State :=
  { s with mod := { s.mod with tiles := putBit s.mod.tiles tile false } }.showConv.setFlag R.glbModEvent 8 true

theorem converterTileFail_lowers {tile : Nat} {s : State} (hp : s.mod.power = .standby) (ht : tile < 24) :
    Does (.converterTileFail tile) s fun t =>
      bit t.mod.tiles tile = false ∧ t.reg R.glbConvCap = convCap t.mod.tiles % 2 ^ 32 ∧ t.flag R.glbModEvent 8 = true ∧
      RegsBut [R.glbConv, R.glbConvCap, R.glbModEvent] s t := by
  refine ⟨s.tileOut tile, ?_, bit_putBit_self _ _ _, ?_, State.flag_setFlag_self _ _ _ _ (by decide), ?_⟩
  · change execConverterTileFail tile s = _
    simp [execConverterTileFail, hp, Nat.mod_eq_of_lt ht, State.isUp, State.showConv, State.tileOut]
  · rw [State.tileOut, State.reg_setFlag_ne _ _ _ (by decide)]
    exact State.reg_setReg_self _ _ _
  · exact (((RegsBut.setMod _ s _).setReg_mem (by simp) _).setReg_mem (by simp) _).setFlag_mem (by simp) _ _

/-- The island on its RC oscillator, shown with the event. -/
def State.onRcOsc (s : State) : State := (s.setReg R.glbOsc 2).setFlag R.glbModEvent 9 true

theorem refOscLost_stops {s : State} (hp : s.mod.power ≠ .off) (ho : s.flag R.glbOsc 1 = false) : Does .refOscLost s fun t =>
    t.reg R.glbOsc = 2 ∧ t.rnd.running = false ∧ t.flag R.glbModEvent 9 = true := by
  obtain ⟨hb, hrun⟩ := s.onRcOsc.linStop.beaconStops_stops
  have hg := (SameGlb.linStop s.onRcOsc).trans hb
  refine ⟨s.onRcOsc.linStop.beaconStops, ?_, ?_, hrun, ?_⟩
  · change execRefOscLost s = _
    simp [execRefOscLost, hp, ho, State.onRcOsc]
  · rw [hg.reg _ (by decide), State.onRcOsc, State.reg_setFlag_ne _ _ _ (by decide), State.reg_setReg_self,
      Nat.mod_eq_of_lt (by decide)]
  · rw [hg.flag (by decide)]
    exact State.flag_setFlag_self _ _ _ _ (by decide)

theorem refOscRestored_returns {s : State} (ho : s.flag R.glbOsc 1 = true) : Does .refOscRestored s fun t =>
    t.reg R.glbOsc = 1 ∧ t.rnd = s.rnd ∧ RegsBut [R.glbOsc] s t := by
  have hset : (s.setReg R.glbOsc 1).reg R.glbOsc = 1 := State.reg_setReg_self s R.glbOsc 1
  have hbut : RegsBut [R.glbOsc] s (s.setReg R.glbOsc 1) := .setReg s _ _
  refine ⟨(s.setReg R.glbOsc 1).linAllDue, ?_, hset, rfl, hbut⟩
  change execRefOscRestored s = _
  simp [execRefOscRestored, ho]

theorem shownTemp_le (t : Int) : shownTemp t ≤ 255 := Nat.min_le_left _ _

theorem limitSample_shows {s : State} (hp : s.mod.power = .standby) (i o l : Int) : Does (.limitSample i o l) s fun t =>
    t.reg R.glbTemp = shownTemp i + 256 * shownTemp o + 65536 * shownTemp l ∧ OnlyRegs s t ∧ RegsBut [R.glbTemp] s t := by
  have hi := shownTemp_le i
  have ho := shownTemp_le o
  have hl := shownTemp_le l
  refine ⟨_, ?_, ?_, OnlyRegs.setReg s R.glbTemp (shownTemp i + 256 * shownTemp o + 65536 * shownTemp l), RegsBut.setReg s _ _⟩
  · change execLimitSample i o l s = _
    simp [execLimitSample, State.isUp, hp]
  · rw [State.reg_setReg_self, Nat.mod_eq_of_lt (by omega)]

/-- Settles O11: each command by its own theorem above. -/
theorem moduleContactsAndPowerStates : Obligations.ModuleContactsAndPowerStates := by
  unfold Obligations.ModuleContactsAndPowerStates
  refine ⟨fun _ => flowOkFall_starts, fun _ => flowOkRise_shows, fun _ => bypassReqAssert_departs,
    fun _ => bypassReqDeassert_ends, fun _ => pstateReqRun_runs, ?ready, fun _ => runToReady_readies,
    fun _ _ => converterTileFail_lowers, fun _ => refOscLost_stops, fun _ => refOscRestored_returns,
    fun i o l _ hp => limitSample_shows hp i o l⟩
  case ready =>
    intro s hp
    change execPstateReqReady s = _
    simp [execPstateReqReady, hp]

/-! ### The store's window (R116, R117) -/

@[simp] theorem State.storeNext_store (s : State) : s.storeNext.store = s.store := rfl

theorem RegsBut.storeNext (s : State) : RegsBut [R.glbStoreAddr] s s.storeNext := .setReg s _ _

theorem State.fld_storeNext (s : State) : s.storeNext.fld R.glbStoreAddr 25 2 = (s.fld R.glbStoreAddr 25 2 + 1) % 2 ^ 24 := by
  rw [State.storeNext, State.fld_setFld_self _ _ _ _ _ (by decide) (by decide), Nat.mod_mod]

theorem storeDataRead_reads {s : State} (hw : s.store.writing = none) : Does .storeDataRead s fun t =>
    t.answer = Mem.readLE s.store.mem (4 * s.fld R.glbStoreAddr 25 2) 4 ∧ t.store = s.store ∧
    t.fld R.glbStoreAddr 25 2 = (s.fld R.glbStoreAddr 25 2 + 1) % 2 ^ 24 ∧ RegsBut [R.glbStoreAddr] s t := by
  refine ⟨{ s.storeNext with answer := Mem.readLE s.store.mem (4 * s.fld R.glbStoreAddr 25 2) 4 }, ?_, rfl, rfl,
    s.fld_storeNext, .storeNext s⟩
  change execStoreDataRead s = _
  simp [execStoreDataRead, hw]

/-- A word on its way into the store, the address moved on. -/
def State.wordWriting (s : State) (v : Nat) : State :=
  { s.storeNext with store := { s.store with writing := some (4 * s.fld R.glbStoreAddr 25 2, v) } }.setFlag R.glbStoreStatus 0 true

/-- A write of the window inside the staging region. -/
theorem storeDataWrite_staged {v : Word} {s : State} (hlo : 0x01500000 ≤ 4 * s.fld R.glbStoreAddr 25 2)
    (hhi : 4 * s.fld R.glbStoreAddr 25 2 < 0x02100000) (hw : s.store.writing = none) (hp : s.store.promo = none) :
    Does (.storeDataWrite v) s fun t =>
      t.store = { s.store with writing := some (4 * s.fld R.glbStoreAddr 25 2, v.toNat) } ∧
      t.flag R.glbStoreStatus 0 = true ∧ RegsBut [R.glbStoreAddr, R.glbStoreStatus] s t := by
  refine ⟨s.wordWriting v.toNat, ?_, rfl, State.flag_setFlag_self _ _ _ _ (by decide), ?_⟩
  · have hin : ¬(4 * s.fld R.glbStoreAddr 25 2 < 0x01500000 ∨ 0x02100000 ≤ 4 * s.fld R.glbStoreAddr 25 2) := by omega
    change Host.Outcome.next (s.storeWrite v.toNat) = _
    simp [State.storeWrite, hin, hw, hp, State.wordWriting]
  · have hnext : RegsBut [R.glbStoreAddr, R.glbStoreStatus] s s.storeNext := (RegsBut.refl _ s).setReg_mem (by simp) _
    exact RegsBut.setFlag_mem (t := { s.storeNext with store := _ }) hnext (by simp) _ _

theorem storeDataWrite_refused {v : Word} {s : State}
    (ho : 4 * s.fld R.glbStoreAddr 25 2 < 0x01500000 ∨ 0x02100000 ≤ 4 * s.fld R.glbStoreAddr 25 2) :
    Does (.storeDataWrite v) s fun t => t.store = s.store ∧ t.flag R.glbStoreStatus 1 = true := by
  refine ⟨s.storeNext.setFlag R.glbStoreStatus 1 true, ?_, rfl, State.flag_setFlag_self _ _ _ _ (by decide)⟩
  change Host.Outcome.next (s.storeWrite v.toNat) = _
  simp [State.storeWrite, ho]

/-- The word stands in the store, and no write is in progress. -/
def State.wordStored (s : State) (a v : Nat) : State :=
  { s with store := { s.store with mem := Mem.writeLE s.store.mem a 4 v, writing := none } }.setFlag R.glbStoreStatus 0 false

theorem storeWriteComplete_stores {a v : Nat} {s : State} (hw : s.store.writing = some (a, v)) :
    Does .storeWriteComplete s fun t =>
      Mem.readLE t.store.mem a 4 = v % 2 ^ 32 ∧
      (∀ b, b < a ∨ a + 4 ≤ b → Mem.read t.store.mem b = Mem.read s.store.mem b) ∧ t.store.writing = none ∧
      t.flag R.glbStoreStatus 0 = false ∧ RegsBut [R.glbStoreStatus] s t := by
  have hbut : RegsBut [R.glbStoreStatus] s (s.wordStored a v) := fun x hx _ => State.reg_setFlag_ne _ _ _ (by simpa using hx)
  refine ⟨s.wordStored a v, ?_, Mem.readLE_writeLE _ a 4 v, fun b hb => Mem.read_writeLE_ne _ a 4 v hb, rfl,
    State.flag_setFlag_self _ _ _ _ (by decide), hbut⟩
  change execStoreWriteComplete s = _
  simp [execStoreWriteComplete, hw, State.wordStored]

/-! ### The input thresholds (R124, R125) -/

theorem inlimThrWrite_invalid {v : Word} (s : State) (hv : thrOk v.toNat = false) : Does (.inlimThrWrite v) s fun t =>
    RegsBut [] s t ∧ t.delayed = s.delayed ∧ OnlyRegs s t := by
  refine ⟨s.hubEvent 0x0A08 [(4, v.toNat)], ?_, (RegsBut.refl [] s).hubEvent _ _, State.hubEvent_delayed s _ _, .hubEvent s _ _⟩
  change Host.Outcome.next (s.writeThr v.toNat) = _
  simp [State.writeThr, hv]

theorem groupAt_glbInlimThr : groupAt R.glbInlimThr = (.inlim, 0, false) := by decide

/-- An expert write of the thresholds applied: the selector reads custom (R39). -/
theorem State.applyWrite_glbInlimThr (s : State) (v : Nat) :
    s.applyWrite R.glbInlimThr v = (s.setReg R.glbInlimThr v).setReg R.glbInlim 0xF := by
  unfold State.applyWrite
  rw [groupAt_glbInlimThr]
  rfl

theorem inlimThrWrite_standby {v : Word} {s : State} (hv : thrOk v.toNat = true) (hp : s.mod.power = .standby) :
    Does (.inlimThrWrite v) s fun t => t.reg R.glbInlimThr = v.toNat ∧ t.fld R.glbInlim 3 0 = 0xF := by
  refine ⟨((s.setReg R.glbInlimThr v.toNat).setReg R.glbInlim 0xF).setFld R.glbInlim 3 0 0xF, ?_, ?_, ?_⟩
  · change Host.Outcome.next (s.writeThr v.toNat) = _
    simp [State.writeThr, hv, State.laterUp, State.isUp, hp, State.applyWrite_glbInlimThr]
  · rw [State.reg_setFld_ne _ _ _ _ (by decide), State.reg_setReg_ne _ _ (by decide), State.reg_setReg_self,
      Nat.mod_eq_of_lt v.isLt]
  · exact State.fld_setFld_self _ _ _ _ _ (by decide) (by decide)

/-- Settles O12: each command by its own theorem above. -/
theorem storeWindowAndThresholds : Obligations.StoreWindowAndThresholds := by
  unfold Obligations.StoreWindowAndThresholds
  exact ⟨fun _ => storeDataRead_reads, fun _ _ => storeDataWrite_staged, fun _ _ => storeDataWrite_refused,
    fun _ _ _ => storeWriteComplete_stores, fun _ s => inlimThrWrite_invalid s, fun _ _ => inlimThrWrite_standby⟩

end Sys2Proof.Machine
end

section
/-! PROOFS. The round number as software reads it: what a read of an ordinary register answers, and the two halves of the
round number, which chapter "Rounds, Turns, and Self-Timed Logic" reads one after the other (R175). -/

namespace Sys2Proof.Machine

/-- The register at an offset whose read does nothing but answer it: its peak is up, the read has no effect of its own, and
the value is not measured. -/
def State.readsPlainly (s : State) (a : Nat) (q : RegRow) : Prop :=
  regRow a = some q ∧ s.peakDown a = false ∧ s.readEffect a = none ∧ measured a = false

theorem State.readReg_plain {s : State} {a : Nat} {q : RegRow} (h : s.readsPlainly a q) :
    s.readReg a = { s with answer := (s.viewReg a).land q.readable } := by
  obtain ⟨hrow, hup, heff, hm⟩ := h
  simp [State.readReg, hrow, hup, heff, hm]

theorem blockAt_rndRoundHi : blockAt R.rndRoundHi = some (.rnd, 0, 0x4) := by decide

/-- The table's row of RND_ROUND_HI: all 32 bits can be read. -/
theorem regRow_rndRoundHi : ∃ q, regRow R.rndRoundHi = some q ∧ q.readable = 2 ^ 32 - 1 := by
  unfold regRow
  rw [blockAt_rndRoundHi]
  exact ⟨_, rfl, rfl⟩

theorem State.viewReg_rndRoundHi (s : State) : s.viewReg R.rndRoundHi = s.rnd.latchedHi := by
  unfold State.viewReg
  rw [blockAt_rndRoundHi]
  rfl

theorem State.readsPlainly_rndRoundHi (s : State) {q : RegRow} (hq : regRow R.rndRoundHi = some q) :
    s.readsPlainly R.rndRoundHi q :=
  ⟨hq, rfl, rfl, by decide⟩

theorem State.readReg_rndRoundHi (s : State) :
    s.readReg R.rndRoundHi = { s with answer := s.rnd.latchedHi % 2 ^ 32 } := by
  obtain ⟨q, hq, hall⟩ := regRow_rndRoundHi
  have hbits : s.rnd.latchedHi.land (2 ^ 32 - 1) = s.rnd.latchedHi % 2 ^ 32 := Nat.and_two_pow_sub_one_eq_mod _ 32
  rw [State.readReg_plain (s.readsPlainly_rndRoundHi hq), State.viewReg_rndRoundHi, hall, hbits]

theorem exec_roundLoRead (s : State) : exec .roundLoRead s = .next
    { s with rnd := { s.rnd with latchedHi := s.rnd.round / 2 ^ 32 % 2 ^ 32 }, answer := s.rnd.round % 2 ^ 32 } := rfl

/-- Settles O8: the latched half fits in 32 bits, so the read of RND_ROUND_HI returns it whole. -/
theorem roundNumberReadLatchesHighHalf : Obligations.RoundNumberReadLatchesHighHalf := by
  unfold Obligations.RoundNumberReadLatchesHighHalf
  refine fun s => ⟨_, exec_roundLoRead s, rfl, rfl, rfl, ?readHigh⟩
  case readHigh =>
    rw [State.readReg_rndRoundHi]
    exact Nat.mod_mod _ _

end Sys2Proof.Machine
end

section
/-! PROOFS. What memory traffic leaves as it was. The messages of the coherence protocol, the accesses of the cores and of
the hub, and the reset of a partition's halves change the memory system, the cores, the arrays, the ring, the registers and
the cairns. All else, the images among it, stands: said once for each operation that a delivered message can reach (R412 to
R522), and then for a protocol brought to rest. -/

namespace Sys2Proof.Machine

/-- The state with all that memory traffic changes left blank. -/
def State.untouched (s : State) : State :=
  { s with regs := [], store := .reset, crn := .reset, flt := .reset, cor := .reset, mem := .reset, hst := .reset,
           rng := .reset, arr := [], hbm := [], host := [], rnd := { s.rnd with floorOut := [], gateWait := [] } }

theorem State.img_of_untouched {s t : State} (h : t.untouched = s.untouched) : t.img = s.img := by
  change t.untouched.img = s.untouched.img
  rw [h]

/-! ### Rules for how operations are put together -/

@[simp] theorem State.untouched_with (s : State) (regs : Table Word) (store : StoreState) (crn : CairnState) (flt : FaultState)
    (cor : CoreState) (mem : CacheState) (hst : HostState) (rng : RingState) (arr : Table ArraySt) (hbm host : Mem) :
    { s with regs := regs, store := store, crn := crn, flt := flt, cor := cor, mem := mem, hst := hst, rng := rng, arr := arr,
             hbm := hbm, host := host }.untouched = s.untouched := (rfl)

@[simp] theorem State.untouched_ite (c : Prop) [Decidable c] (s t : State) :
    (if c then s else t).untouched = if c then s.untouched else t.untouched := apply_ite _ _ _ _

@[simp] theorem State.untouched_foldl {α : Type} (f : State → α → State) (h : ∀ t x, (f t x).untouched = t.untouched) (l : List α)
    (s : State) : (l.foldl f s).untouched = s.untouched :=
  List.foldlRecOn (motive := fun t : State => t.untouched = s.untouched) l _ rfl fun t ht x _ => (h t x).trans ht

/-! ### Registers, cairns and fault notices -/

@[simp] theorem State.untouched_setReg (s : State) (a v : Nat) : (s.setReg a v).untouched = s.untouched := by
  simp [State.setReg]

@[simp] theorem State.untouched_setFld (s : State) (a hi lo v : Nat) : (s.setFld a hi lo v).untouched = s.untouched :=
  s.untouched_setReg _ _

@[simp] theorem State.untouched_setFlag (s : State) (a i : Nat) (b : Bool) : (s.setFlag a i b).untouched = s.untouched :=
  s.untouched_setReg _ _

@[simp] theorem State.untouched_addFld (s : State) (a hi lo k : Nat) : (s.addFld a hi lo k).untouched = s.untouched :=
  s.untouched_setReg _ _

@[simp] theorem State.untouched_count (s : State) (a k : Nat) : (s.count a k).untouched = s.untouched :=
  s.untouched_setReg _ _

@[simp] theorem State.untouched_count64 (s : State) (lo hi k : Nat) : (s.count64 lo hi k).untouched = s.untouched := by
  simp [State.count64]

@[simp] theorem State.untouched_event (s : State) (die half code : Nat) (fs : List (Nat × Nat)) :
    (s.event die half code fs).untouched = s.untouched := by
  unfold State.event
  split
  · obtain ⟨c, a, k, -, h⟩ := s.offer_eq die (s.entry die half code 0 false fs) false
    rw [h]; rfl
  · rfl

@[simp] theorem State.untouched_halfEvent (s : State) (h code : Nat) (fs : List (Nat × Nat)) :
    (s.halfEvent h code fs).untouched = s.untouched := s.untouched_event _ _ _ _

@[simp] theorem State.untouched_hubEvent (s : State) (code : Nat) (fs : List (Nat × Nat)) :
    (s.hubEvent code fs).untouched = s.untouched := s.untouched_event _ _ _ _

@[simp] theorem State.untouched_freeze (s : State) (i code : Nat) : (s.freeze i code).untouched = s.untouched := by
  obtain ⟨r, c, st, h⟩ := s.freeze_eq i code
  rw [h]; rfl

@[simp] theorem State.untouched_notice (s : State) (n : Notice) : (s.notice n).untouched = s.untouched := by
  simp [State.notice]

@[simp] theorem State.untouched_oncePerRound (s : State) (code unit : Nat) (f : State → State)
    (hf : ∀ t, (f t).untouched = t.untouched) : (s.oncePerRound code unit f).untouched = s.untouched := by
  simp [State.oncePerRound, hf]

/-! ### Stacks, slices and directories (R412 to R450) -/

@[simp] theorem State.untouched_useStack (s : State) (line : Nat) : (s.useStack line).untouched = s.untouched := by
  unfold State.useStack
  split <;> simp

@[simp] theorem State.untouched_writeStack (s : State) (line mask data : Nat) :
    (s.writeStack line mask data).untouched = s.untouched := by simp [State.writeStack]

@[simp] theorem State.untouched_setWays (s : State) (half line : Nat) (l : List Way) :
    (s.setWays half line l).untouched = s.untouched := rfl

@[simp] theorem State.untouched_putWay (s : State) (half : Nat) (w : Way) (low : Bool) :
    (s.putWay half w low).untouched = s.untouched := by
  unfold State.putWay
  dsimp only
  split
  · split <;> simp
  · simp

@[simp] theorem State.untouched_countLookup (s : State) (half : Nat) (first : Bool) :
    (s.countLookup half first).untouched = s.untouched := by simp [State.countLookup]

@[simp] theorem State.untouched_readHome (s : State) (line mask : Nat) : (s.readHome line mask).1.untouched = s.untouched := by
  unfold State.readHome
  dsimp only
  split
  · split <;> simp
  · split <;> simp

@[simp] theorem State.untouched_putHome (s : State) (line mask data : Nat) :
    (s.putHome line mask data).untouched = s.untouched := by
  unfold State.putHome
  dsimp only
  split
  · rfl
  · split
    · split <;> simp
    · split <;> simp

@[simp] theorem State.untouched_unpoison (s : State) (line : Nat) : (s.unpoison line).untouched = s.untouched := by
  simp [State.unpoison, State.setPoison]

@[simp] theorem State.untouched_writeHome (s : State) (line mask data : Nat) :
    (s.writeHome line mask data).untouched = s.untouched := by simp [State.writeHome]

@[simp] theorem State.untouched_writeHomeBytes (s : State) (line bm data : Nat) :
    (s.writeHomeBytes line bm data).untouched = s.untouched := by simp [State.writeHomeBytes]

@[simp] theorem State.untouched_putGuest (s : State) (half line mask data : Nat) :
    (s.putGuest half line mask data).untouched = s.untouched := by simp [State.putGuest]

@[simp] theorem State.untouched_putDir (s : State) (e : DirEntry) : (s.putDir e).untouched = s.untouched := rfl
@[simp] theorem State.untouched_freeDir (s : State) (line : Nat) : (s.freeDir line).untouched = s.untouched := rfl

@[simp] theorem State.untouched_setL1 (s : State) (k : Nat) (c : L1) : (s.setL1 k c).untouched = s.untouched := by
  simp [State.setL1]

@[simp] theorem State.untouched_putL1 (s : State) (k : Nat) (x : L1Line) : (s.putL1 k x).untouched = s.untouched :=
  s.untouched_setL1 k _

@[simp] theorem State.untouched_dropL1 (s : State) (k line : Nat) : (s.dropL1 k line).untouched = s.untouched :=
  s.untouched_setL1 k _

@[simp] theorem State.untouched_touchL1 (s : State) (k line : Nat) (low : Bool) :
    (s.touchL1 k line low).untouched = s.untouched := by
  unfold State.touchL1
  dsimp only
  split <;> simp

/-! ### Messages (R464 to R468, R557) -/

@[simp] theorem State.untouched_setMsg (s : State) (n : Nat) (m : CohMsg) : (s.setMsg n m).untouched = s.untouched := rfl
@[simp] theorem State.untouched_unpost (s : State) (n : Nat) : (s.unpost n).untouched = s.untouched := rfl
@[simp] theorem State.untouched_setOut (s : State) (half n : Nat) : (s.setOut half n).untouched = s.untouched := rfl
@[simp] theorem State.untouched_setFloor (s : State) (h : Nat) (l : List (Nat × Nat)) :
    (s.setFloor h l).untouched = s.untouched := rfl
@[simp] theorem State.untouched_setGate (s : State) (h : Nat) (l : List Nat) : (s.setGate h l).untouched = s.untouched := rfl
@[simp] theorem State.untouched_setWrites (s : State) (tag n : Nat) : (s.setWrites tag n).untouched = s.untouched := rfl

@[simp] theorem State.untouched_lostAt (s : State) (col die n : Nat) : (s.lostAt col die n).untouched = s.untouched := by
  unfold State.lostAt
  split
  · simp
  · split <;> simp

@[simp] theorem State.untouched_unsent (s : State) (col src part engine : Nat) :
    (s.unsent col src part engine).untouched = s.untouched := by simp [State.unsent]

@[simp] theorem State.untouched_launch (s : State) (n : Nat) (m : CohMsg) : (s.launch n m).untouched = s.untouched := by
  unfold State.launch
  split <;> simp

@[simp] theorem State.untouched_post (s : State) (m : CohMsg) : (s.post m).untouched = s.untouched := by simp [State.post]

@[simp] theorem State.untouched_request (s : State) (m : CohMsg) : (s.request m).untouched = s.untouched := by
  unfold State.request
  dsimp only
  split <;> simp

@[simp] theorem State.untouched_askFloor (s : State) (h : Nat) (m : CohMsg) : (s.askFloor h m).untouched = s.untouched := by
  simp [State.askFloor]

@[simp] theorem State.untouched_floorDone (s : State) (h tag line : Nat) : (s.floorDone h tag line).untouched = s.untouched := by
  unfold State.floorDone
  split <;> simp

@[simp] theorem State.untouched_answered (s : State) (half line : Nat) : (s.answered half line).untouched = s.untouched := by
  unfold State.answered
  dsimp only
  split
  · split <;> simp
  · rfl

@[simp] theorem State.untouched_readCoherent (s : State) (line mask : Nat) :
    (s.readCoherent line mask).1.untouched = s.untouched := by
  unfold State.readCoherent
  dsimp only
  split <;> simp

@[simp] theorem State.untouched_writeDevice (s : State) (src : Agent) (tag halves addr : Nat) (bytes : List Nat) :
    (s.writeDevice src tag halves addr bytes).untouched = s.untouched := by simp [State.writeDevice]

@[simp] theorem State.untouched_nextBar2 (s : State) (tag : Nat) : (s.nextBar2 tag).untouched = s.untouched := by
  unfold State.nextBar2
  split
  · rfl
  · split <;> simp

/-! ### The system window and the ring (R364 to R367, R704 to R708) -/

@[simp] theorem State.untouched_mapEntry (s : State) (p : Nat) : (s.mapEntry p).1.untouched = s.untouched := by
  unfold State.mapEntry
  split
  · rfl
  · dsimp only
    split <;> simp

@[simp] theorem State.untouched_swmLookup (s : State) (addr : Nat) (write : Bool) :
    (s.swmLookup addr write).1.untouched = s.untouched := by
  have hm := s.untouched_mapEntry ((addr - swmLo) / 65536)
  unfold State.swmLookup
  dsimp only
  split
  · rfl
  · split
    · next t h => rwa [h] at hm
    · next t e h =>
      rw [h] at hm
      simp [apply_ite Prod.fst, hm]

@[simp] theorem State.untouched_hostWrite (s : State) (port addr : Nat) (bytes : List Nat) :
    (s.hostWrite port addr bytes).untouched = s.untouched := by simp [State.hostWrite]
@[simp] theorem State.untouched_hostAsk (s : State) (r : HostRead) : (s.hostAsk r).untouched = s.untouched := rfl
@[simp] theorem State.untouched_ringAsk (s : State) (who : Asker) (p : RPkt) : (s.ringAsk who p).untouched = s.untouched := rfl
@[simp] theorem State.untouched_lostCount (s : State) (m cause : Nat) : (s.lostCount m cause).untouched = s.untouched := rfl

@[simp] theorem State.untouched_windowFail (s : State) (unit : Nat) (hit : SwmHit) (page status : Nat) :
    (s.windowFail unit hit page status).untouched = s.untouched := by
  unfold State.windowFail
  split <;> simp


/-! ### The memory instructions of a core (R304 to R353) -/

@[simp] theorem State.untouched_setCore (s : State) (half core : Nat) (c : Core) :
    (s.setCore half core c).untouched = s.untouched := rfl
@[simp] theorem State.untouched_setGroup (s : State) (g : GroupRef) (x : Group) : (s.setGroup g x).untouched = s.untouched := rfl

@[simp] theorem State.untouched_progress (s : State) (g : GroupRef) : (s.progress g).untouched = s.untouched := by
  unfold State.progress
  split
  · rfl
  · split <;> simp

@[simp] theorem State.untouched_mapPieces (s : State) (g : GroupRef) (fn : Piece → Piece) :
    (s.mapPieces g fn).untouched = s.untouched := by
  unfold State.mapPieces
  split
  · rfl
  · split <;> simp

@[simp] theorem State.untouched_answerLine (s : State) (g : GroupRef) (tag line data : Nat) :
    (s.answerLine g tag line data).untouched = s.untouched := by
  unfold State.answerLine
  split
  · rfl
  · split <;> simp

@[simp] theorem State.untouched_replace (s : State) (k : Nat) (x : L1Line) : (s.replace k x).untouched = s.untouched := by
  unfold State.replace
  dsimp only
  split <;> simp

@[simp] theorem State.untouched_makeRoom (s : State) (k line : Nat) : (s.makeRoom k line).1.untouched = s.untouched := by
  unfold State.makeRoom
  dsimp only
  split
  · rfl
  · split <;> simp

@[simp] theorem State.untouched_missLine (s : State) (k line mask : Nat) (own low : Bool) :
    (s.missLine k line mask own low).untouched = s.untouched := by
  have hr := s.untouched_makeRoom k line
  unfold State.missLine
  split
  · next t h => rwa [h] at hr
  · next t h =>
    rw [h] at hr
    simp [hr]

@[simp] theorem State.untouched_fillLine (s : State) (k : Nat) (x : L1Line) (mask : Nat) :
    (s.fillLine k x mask).untouched = s.untouched := by simp [State.fillLine]

@[simp] theorem State.untouched_sendOut (s : State) (g : GroupRef) (line : Nat) :
    (s.sendOut g line).untouched = s.untouched := s.untouched_mapPieces g _

@[simp] theorem State.untouched_readOut (s : State) (g : GroupRef) (line mask data : Nat) :
    (s.readOut g line mask data).untouched = s.untouched := s.untouched_mapPieces g _

@[simp] theorem State.untouched_loadLine (s : State) (g : GroupRef) (op : MemOp) (line : Nat) :
    (s.loadLine g op line).untouched = s.untouched := by
  unfold State.loadLine
  dsimp only
  split <;> simp

@[simp] theorem State.untouched_storeLine (s : State) (g : GroupRef) (op : MemOp) (line : Nat) :
    (s.storeLine g op line).untouched = s.untouched := by
  unfold State.storeLine
  dsimp only
  split
  · simp
  · split
    case h_1 | h_2 =>
      repeat' split
      all_goals simp
    all_goals simp

@[simp] theorem State.untouched_loadHome (s : State) (g : GroupRef) (op : MemOp) (line : Nat) :
    (s.loadHome g op line).untouched = s.untouched := by simp [State.loadHome]

@[simp] theorem State.untouched_storeHome (s : State) (g : GroupRef) (op : MemOp) (line : Nat) :
    (s.storeHome g op line).untouched = s.untouched := by
  unfold State.storeHome
  dsimp only
  split <;> simp

@[simp] theorem State.untouched_atomHome (s : State) (g : GroupRef) (op : MemOp) (line : Nat) :
    (s.atomHome g op line).untouched = s.untouched := by simp [State.atomHome]

@[simp] theorem State.untouched_windowLine (s : State) (g : GroupRef) (op : MemOp) (line : Nat) :
    (s.windowLine g op line).untouched = s.untouched := by
  have hl := s.untouched_swmLookup (line * 128) (op.kind == .st)
  unfold State.windowLine
  dsimp only
  split
  all_goals
    next h =>
      rw [h] at hl
      simp [hl]

@[simp] theorem State.untouched_ringLine (s : State) (g : GroupRef) (op : MemOp) (line : Nat) :
    (s.ringLine g op line).untouched = s.untouched := by
  unfold State.ringLine
  dsimp only
  split <;> simp

@[simp] theorem State.untouched_poisonFault (s : State) (h line : Nat) : (s.poisonFault h line).untouched = s.untouched :=
  s.untouched_notice _

@[simp] theorem State.untouched_descRead (s : State) (half core e : Nat) : (s.descRead half core e).1.untouched = s.untouched := by
  unfold State.descRead
  dsimp only
  split <;> simp

@[simp] theorem State.untouched_constLine (s : State) (g : GroupRef) (op : MemOp) (line : Nat) :
    (s.constLine g op line).untouched = s.untouched := by
  unfold State.constLine
  split
  · rfl
  · split
    · rfl
    · dsimp only
      split
      · simp
      · split
        · simp
        · split <;> simp

@[simp] theorem State.untouched_tryLine (s : State) (g : GroupRef) (line : Nat) : (s.tryLine g line).untouched = s.untouched := by
  unfold State.tryLine
  split
  · rfl
  · split
    · rfl
    · split
      · rfl
      · split
        · simp
        · split
          · simp
          · split <;> simp

@[simp] theorem State.untouched_tryMem (s : State) (g : GroupRef) : (s.tryMem g).untouched = s.untouched := by
  unfold State.tryMem
  split
  · rfl
  · split <;> simp

@[simp] theorem State.untouched_retryCore (s : State) (k : Nat) : (s.retryCore k).untouched = s.untouched := by
  unfold State.retryCore
  split <;> simp

@[simp] theorem State.untouched_storePerformed (s : State) (g : GroupRef) : (s.storePerformed g).untouched = s.untouched := by
  unfold State.storePerformed
  split
  · rfl
  · dsimp only
    split <;> simp

/-! ### Messages at an L1 (R481 to R487) -/

@[simp] theorem State.untouched_protFault (s : State) (half line state msg : Nat) (atHome : Bool) :
    (s.protFault half line state msg atHome).untouched = s.untouched := by simp [State.protFault]

@[simp] theorem State.untouched_l1Fault (s : State) (k line : Nat) (m : CohMsg) :
    (s.l1Fault k line m).untouched = s.untouched := s.untouched_protFault _ _ _ _ _

@[simp] theorem State.untouched_invAck (s : State) (k line dirty data : Nat) :
    (s.invAck k line dirty data).untouched = s.untouched := s.untouched_post _

@[simp] theorem State.untouched_fwdAck (s : State) (k line : Nat) (st : L1St) (dirty data : Nat) (value : Bool) :
    (s.fwdAck k line st dirty data value).untouched = s.untouched := s.untouched_post _

@[simp] theorem State.untouched_sendData (s : State) (k line : Nat) (dest : Agent) (grant : L1St)
    (mask dirty data tag asked : Nat) : (s.sendData k line dest grant mask dirty data tag asked).untouched = s.untouched :=
  s.untouched_post _

@[simp] theorem State.untouched_sendAll (s : State) (k line : Nat) (first : L1St) (valid data : Nat) (l : List (Agent × Nat)) :
    (s.sendAll k line first valid data l).untouched = s.untouched := by simp [State.sendAll]

@[simp] theorem State.untouched_toWake (s : State) (k line valid data : Nat) :
    (s.toWake k line valid data).untouched = s.untouched := s.untouched_setL1 _ _

@[simp] theorem State.untouched_waitWake (s : State) (k line n : Nat) : (s.waitWake k line n).untouched = s.untouched := by
  simp [State.waitWake]

@[simp] theorem State.untouched_deferFwd (s : State) (k : Nat) (x : L1Line) (n : Nat) :
    (s.deferFwd k x n).untouched = s.untouched := s.untouched_putL1 _ _

@[simp] theorem State.untouched_onInvS (s : State) (k n : Nat) (m : CohMsg) : (s.onInvS k n m).untouched = s.untouched := by
  unfold State.onInvS
  split
  · simp
  · dsimp only
    split
    · simp
    · split <;> simp

@[simp] theorem State.untouched_onFwdS (s : State) (k n : Nat) (m : CohMsg) : (s.onFwdS k n m).untouched = s.untouched := by
  unfold State.onFwdS
  split
  · simp
  · dsimp only
    split
    · simp
    · split
      case h_7 => split <;> simp
      all_goals simp

@[simp] theorem State.untouched_onFwdM (s : State) (k n : Nat) (m : CohMsg) : (s.onFwdM k n m).untouched = s.untouched := by
  unfold State.onFwdM
  split
  · simp
  · dsimp only
    split
    · simp
    · split <;> simp

@[simp] theorem State.untouched_onFwdR (s : State) (k n : Nat) (m : CohMsg) : (s.onFwdR k n m).untouched = s.untouched := by
  unfold State.onFwdR
  dsimp only
  split
  · split <;> simp
  · split
    case h_6 => split <;> simp
    all_goals simp

@[simp] theorem State.untouched_onRecall (s : State) (k n : Nat) (m : CohMsg) : (s.onRecall k n m).untouched = s.untouched := by
  unfold State.onRecall
  split
  · simp
  · dsimp only
    split
    · simp
    · split <;> simp

@[simp] theorem State.untouched_onForward (s : State) (n : Nat) (m : CohMsg) : (s.onForward n m).untouched = s.untouched := by
  unfold State.onForward
  dsimp only
  split
  · simp
  · split
    · rfl
    · split <;> simp

@[simp] theorem State.untouched_guestFill (s : State) (half : Nat) (m : CohMsg) : (s.guestFill half m).untouched = s.untouched := by
  unfold State.guestFill
  split <;> simp

@[simp] theorem State.untouched_install (s : State) (k : Nat) (x : L1Line) : (s.install k x).untouched = s.untouched := by
  simp [State.install]

@[simp] theorem State.untouched_onData (s : State) (k n : Nat) (m : CohMsg) : (s.onData k n m).untouched = s.untouched := by
  unfold State.onData
  dsimp only
  split
  · split <;> simp
  · split
    · split <;> simp
    · split
      · simp
      · split <;> simp

@[simp] theorem State.untouched_onGrant (s : State) (k n : Nat) (m : CohMsg) : (s.onGrant k n m).untouched = s.untouched := by
  unfold State.onGrant
  dsimp only
  split
  · simp
  · split <;> simp

@[simp] theorem State.untouched_onDoneAck (s : State) (k n : Nat) (m : CohMsg) : (s.onDoneAck k n m).untouched = s.untouched := by
  unfold State.onDoneAck
  dsimp only
  split <;> simp

@[simp] theorem State.untouched_onRelease (s : State) (k n : Nat) (m : CohMsg) : (s.onRelease k n m).untouched = s.untouched := by
  unfold State.onRelease
  dsimp only
  split
  · simp
  · split
    · simp
    · split <;> simp

@[simp] theorem State.untouched_onPutAck (s : State) (k n : Nat) (m : CohMsg) : (s.onPutAck k n m).untouched = s.untouched := by
  unfold State.onPutAck
  dsimp only
  split <;> simp

@[simp] theorem State.untouched_onCoreWrAck (s : State) (k n : Nat) (m : CohMsg) :
    (s.onCoreWrAck k n m).untouched = s.untouched := by
  unfold State.onCoreWrAck
  dsimp only
  split <;> simp

@[simp] theorem State.untouched_onAtomRsp (s : State) (k n : Nat) (m : CohMsg) : (s.onAtomRsp k n m).untouched = s.untouched := by
  unfold State.onAtomRsp
  dsimp only
  split <;> simp

@[simp] theorem State.untouched_endHold (s : State) (k line : Nat) : (s.endHold k line).untouched = s.untouched := by
  unfold State.endHold
  split
  · rfl
  · split
    · rfl
    · refine (State.untouched_foldl _ (fun t i => ?_) _ _).trans (State.untouched_putL1 _ _ _)
      split <;> simp


/-! ### Messages at a home (R471 to R496) -/

@[simp] theorem State.untouched_setArb (s : State) (h : Nat) (l : List Nat) : (s.setArb h l).untouched = s.untouched := rfl
@[simp] theorem State.untouched_setTickets (s : State) (h : Nat) (l : List Ticket) :
    (s.setTickets h l).untouched = s.untouched := rfl
@[simp] theorem State.untouched_openTxn (s : State) (line : Nat) (t : Txn) : (s.openTxn line t).untouched = s.untouched := rfl
@[simp] theorem State.untouched_noteRead (s : State) (h line : Nat) : (s.noteRead h line).untouched = s.untouched := rfl
@[simp] theorem State.untouched_noteWrite (s : State) (h line : Nat) : (s.noteWrite h line).untouched = s.untouched := rfl
@[simp] theorem State.untouched_taken (s : State) (h n : Nat) : (s.taken h n).untouched = s.untouched := rfl

@[simp] theorem State.untouched_refuse (s : State) (h n : Nat) (m : CohMsg) : (s.refuse h n m).untouched = s.untouched := by
  simp [State.refuse]

@[simp] theorem State.untouched_letIn (s : State) (h n : Nat) (m : CohMsg) : (s.letIn h n m).1.untouched = s.untouched := by
  unfold State.letIn
  split
  · rfl
  · dsimp only
    split
    · simp
    · split <;> simp
    · split
      · split <;> simp
      · split <;> simp
  · rfl

@[simp] theorem State.untouched_forward (s : State) (kind : MsgKind) (h k line : Nat) (grant : L1St) (reqs : List (Agent × Nat)) :
    (s.forward kind h k line grant reqs).untouched = s.untouched := s.untouched_post _

@[simp] theorem State.untouched_invalidate (s : State) (h line : Nat) (ks : List Nat) :
    (s.invalidate h line ks).untouched = s.untouched := by simp [State.invalidate]

@[simp] theorem State.untouched_homeData (s : State) (h : Nat) (m : CohMsg) (grant : L1St) (data : Nat) :
    (s.homeData h m grant data).untouched = s.untouched := s.untouched_post _

@[simp] theorem State.untouched_homeAck (s : State) (kind : MsgKind) (h : Nat) (m : CohMsg) (olds : List (Nat × Nat)) :
    (s.homeAck kind h m olds).untouched = s.untouched := s.untouched_post _

@[simp] theorem State.untouched_release (s : State) (h line k : Nat) : (s.release h line k).untouched = s.untouched := by
  simp [State.release]

@[simp] theorem State.untouched_performWrite (s : State) (h : Nat) (m : CohMsg) : (s.performWrite h m).untouched = s.untouched := by
  simp [State.performWrite]

@[simp] theorem State.untouched_performAtom (s : State) (h : Nat) (m : CohMsg) : (s.performAtom h m).untouched = s.untouched := by
  simp [State.performAtom]

@[simp] theorem State.untouched_txnAct (s : State) (line : Nat) (t : Txn) : (s.txnAct line t).untouched = s.untouched := by
  unfold State.txnAct
  split
  · simp
  · split <;> simp

@[simp] theorem State.untouched_advance (s : State) (line : Nat) : (s.advance line).untouched = s.untouched := by
  unfold State.advance
  split
  · rfl
  · dsimp only
    split
    · rfl
    · split
      · split <;> simp
      · simp

@[simp] theorem State.untouched_dropHolders (s : State) (h : Nat) (e : DirEntry) (t : Txn) (but : Option Nat) :
    (s.dropHolders h e t but).1.untouched = s.untouched := by
  unfold State.dropHolders
  dsimp only
  split <;> simp

@[simp] theorem State.untouched_evictDir (s : State) (h : Nat) (e : DirEntry) : (s.evictDir h e).untouched = s.untouched := by
  simp [State.evictDir]

@[simp] theorem State.untouched_dirRoom (s : State) (h n : Nat) (m : CohMsg) : (s.dirRoom h n m).1.untouched = s.untouched := by
  unfold State.dirRoom
  split
  · rfl
  · split <;> simp

@[simp] theorem State.untouched_poisonRead (s : State) (h n : Nat) (m : CohMsg) : (s.poisonRead h n m).untouched = s.untouched := by
  simp [State.poisonRead]

@[simp] theorem State.untouched_countRead (s : State) (h line : Nat) : (s.countRead h line).untouched = s.untouched := by
  simp [State.countRead]

@[simp] theorem State.untouched_joinGetS (s : State) (h n : Nat) (m : CohMsg) (t : Txn) :
    (s.joinGetS h n m t).untouched = s.untouched := by
  unfold State.joinGetS
  dsimp only
  split
  · simp
  · split
    · rfl
    · split <;> simp

@[simp] theorem State.untouched_serveGetS (s : State) (h n : Nat) (m : CohMsg) : (s.serveGetS h n m).untouched = s.untouched := by
  have hr := s.untouched_dirRoom h n m
  unfold State.serveGetS
  dsimp only
  split
  · next t e => rwa [e] at hr
  · next t e =>
    rw [e] at hr
    split
    · simp [hr]
    · split <;> simp [hr]

@[simp] theorem State.untouched_onGetS (s : State) (h n : Nat) (m : CohMsg) : (s.onGetS h n m).untouched = s.untouched := by
  have hl := s.untouched_letIn h n m
  unfold State.onGetS
  split
  · next t e => rwa [e] at hl
  · next t e =>
    rw [e] at hl
    split
    · exact hl
    · split
      · simp [hl]
      · split
        · simp [hl]
        · split <;> simp [hl]

@[simp] theorem State.untouched_serveGetM (s : State) (h n : Nat) (m : CohMsg) : (s.serveGetM h n m).untouched = s.untouched := by
  have hr := s.untouched_dirRoom h n m
  unfold State.serveGetM
  dsimp only
  split
  · next t e => rwa [e] at hr
  · next t e =>
    rw [e] at hr
    split
    · simp [hr]
    · split <;> simp [hr]

@[simp] theorem State.untouched_serveUpg (s : State) (h n : Nat) (m : CohMsg) : (s.serveUpg h n m).untouched = s.untouched := by
  unfold State.serveUpg
  dsimp only
  split <;> simp

@[simp] theorem State.untouched_dropOwner (s : State) (e : DirEntry) : (s.dropOwner e).untouched = s.untouched := by
  simp [State.dropOwner]

@[simp] theorem State.untouched_servePut (s : State) (h n : Nat) (m : CohMsg) : (s.servePut h n m).untouched = s.untouched := by
  unfold State.servePut
  dsimp only
  split
  · rfl
  · split
    · split
      · simp
      · split <;> simp
    · simp

@[simp] theorem State.untouched_serveWrite (s : State) (h n : Nat) (m : CohMsg) (act : TxnAct) :
    (s.serveWrite h n m act).untouched = s.untouched := by
  unfold State.serveWrite
  dsimp only
  split <;> simp

@[simp] theorem State.untouched_onBegin (s : State) (h n : Nat) (m : CohMsg) (reads : Bool)
    (serve : State → Nat → Nat → CohMsg → State) (hs : ∀ t h n m, (serve t h n m).untouched = t.untouched) :
    (s.onBegin h n m reads serve).untouched = s.untouched := by
  have hl := s.untouched_letIn h n m
  unfold State.onBegin
  split
  · next t e => rwa [e] at hl
  · next t e =>
    rw [e] at hl
    split
    · exact hl
    · simp [hl, hs]

@[simp] theorem State.untouched_onValue (s : State) (h n : Nat) (m : CohMsg) : (s.onValue h n m).untouched = s.untouched := by
  have hl := s.untouched_letIn h n m
  unfold State.onValue
  split
  · next t e => rwa [e] at hl
  · next t e =>
    rw [e] at hl
    split
    · exact hl
    · dsimp only
      split
      · simp [hl]
      · split <;> simp [hl]

@[simp] theorem State.untouched_onInvAck (s : State) (h n : Nat) (m : CohMsg) : (s.onInvAck h n m).untouched = s.untouched := by
  unfold State.onInvAck
  dsimp only
  split <;> simp

@[simp] theorem State.untouched_onFwdAck (s : State) (h n : Nat) (m : CohMsg) : (s.onFwdAck h n m).untouched = s.untouched := by
  unfold State.onFwdAck
  dsimp only
  split
  · simp
  · split
    · simp
    · split
      · split <;> simp
      · simp

@[simp] theorem State.untouched_onDone (s : State) (h n : Nat) (m : CohMsg) : (s.onDone h n m).untouched = s.untouched := by
  unfold State.onDone
  dsimp only
  split
  · simp
  · split <;> simp

@[simp] theorem State.untouched_onCopy (s : State) (h n : Nat) (m : CohMsg) : (s.onCopy h n m).untouched = s.untouched := by
  simp [State.onCopy]

@[simp] theorem State.untouched_onWrAck (s : State) (n : Nat) (m : CohMsg) : (s.onWrAck n m).untouched = s.untouched := by
  unfold State.onWrAck
  split
  · simp
  · dsimp only
    repeat' split
    all_goals simp

/-! ### A protocol brought to rest, and the reset of a partition's halves (R203) -/

/-- The delivery of any message. -/
@[simp] theorem State.untouched_deliver (s : State) (n : Nat) : (s.deliver n).untouched = s.untouched := by
  unfold State.deliver
  split
  · rfl
  · split
    case h_4 | h_5 => simp
    case h_6 =>
      split
      · split <;> simp
      · split <;> simp
      · simp
    all_goals rfl

@[simp] theorem State.untouched_endHolds (s : State) : s.endHolds.untouched = s.untouched := by simp [State.endHolds]

/-- The bringing to rest, however many passes it takes. -/
@[simp] theorem State.untouched_settle (k : Nat) (s : State) : (State.settle k s).untouched = s.untouched := by
  induction k generalizing s with
  | zero => rfl
  | succ k ih => simp [State.settle, ih]

@[simp] theorem State.untouched_forget (s : State) (k line : Nat) : (s.forget k line).untouched = s.untouched := by
  unfold State.forget
  split
  · rfl
  · simp [State.setDirSet]

@[simp] theorem State.untouched_flushL1 (s : State) (k : Nat) : (s.flushL1 k).untouched = s.untouched := by simp [State.flushL1]

@[simp] theorem State.untouched_haltGroups (s : State) (h : Nat) : (s.haltGroups h).untouched = s.untouched := rfl

@[simp] theorem State.untouched_clearArray (s : State) (h : Nat) : (s.clearArray h).untouched = s.untouched := by
  simp [State.clearArray, State.setArray]

@[simp] theorem State.untouched_dropWindows (s : State) (h : Nat) : (s.dropWindows h).untouched = s.untouched := by
  simp [State.dropWindows, State.showConf]

@[simp] theorem State.untouched_resetHalves (s : State) (hs : List Nat) : (s.resetHalves hs).untouched = s.untouched := by
  simp [State.resetHalves]

@[simp] theorem State.untouched_resumeHalf (s : State) (h : Nat) : (s.resumeHalf h).untouched = s.untouched := by
  simp [State.resumeHalf]

@[simp] theorem State.untouched_resetDone (s : State) (kind target cause : Nat) :
    (s.resetDone kind target cause).untouched = s.untouched := by simp [State.resetDone]

end Sys2Proof.Machine
end

section
/-! PROOFS. Structure images: what a load, its end, a commit and a selection make of the image function and of IMG_STATUS,
said once per operation, and the statement of chapter "The Structure Image and Shift Change" about them (R237 to R243, R258,
R259). -/

namespace Sys2Proof.Machine

/-! ### Loads (R237, R238) -/

/-- The state with a load under way that replaces the pending image. -/
def State.loadAsked (s : State) (r : LoadReq) : State :=
  { s with img := { s.img with load := some r, pending := none, firstCommit := false } }

theorem State.startLoad_eq {s : State} (hb : s.flag R.imgStatus 0 = false) (hw : s.swapStands = false) (r : LoadReq) :
    s.startLoad r = (((s.loadAsked r).setFlag R.imgStatus 0 true).setFlag R.imgStatus 1 false).setFlag R.imgStatus 3 false := by
  simp [State.startLoad, hb, hw, State.loadAsked]

/-- Where none is busy and no swap stands, the load is under way. -/
theorem State.startLoad_starts {s : State} (hb : s.flag R.imgStatus 0 = false) (hw : s.swapStands = false) (r : LoadReq) :
    (s.startLoad r).img = { s.img with load := some r, pending := none, firstCommit := false } ∧
      (s.startLoad r).flag R.imgStatus 0 = true ∧ RegsBut [R.imgStatus] s (s.startLoad r) := by
  have hk : RegsBut [R.imgStatus] s (s.loadAsked r) := fun _ _ _ => rfl
  rw [State.startLoad_eq hb hw]
  refine ⟨rfl, ?_, ((hk.setFlag_mem (by simp) _ _).setFlag_mem (by simp) _ _).setFlag_mem (by simp) _ _⟩
  rw [State.flag_setFlag_ne _ _ _ _ _ (by decide) (by decide), State.flag_setFlag_ne _ _ _ _ _ (by decide) (by decide),
    State.flag_setFlag_self _ _ _ _ (by decide)]

theorem imageLoad_starts {src i : Nat} {s : State} (hi : i < 16) (hb : s.flag R.imgStatus 0 = false)
    (hw : s.swapStands = false) : Does (.imageLoad src i) s fun t =>
      t.img = { s.img with
        load := some { fromStore := src % 2 == 1, index := i, addr := s.pair R.imgSrcLo R.imgSrcHi / 64 * 64 },
        pending := none, firstCommit := false } ∧
      t.flag R.imgStatus 0 = true ∧ RegsBut [R.imgStatus] s t := by
  refine ⟨_, ?_, State.startLoad_starts hb hw _⟩
  change execImageLoad src i s = _
  rw [execImageLoad, Nat.mod_eq_of_lt hi]

/-! ### The result of a load's or a commit's checks (R238, R242) -/

theorem notCairnCount_imgStatus : notCairnCount R.imgStatus := .inl (by decide)

@[simp] theorem State.imageResult_img (s : State) (f : Nat × Nat) : (s.imageResult f).img = s.img := by
  unfold State.imageResult
  rw [State.setFld_img, State.setFld_img, State.setFlag_img]

@[simp] theorem State.imageResult_rnd (s : State) (f : Nat × Nat) : (s.imageResult f).rnd = s.rnd := by
  unfold State.imageResult
  rw [State.setFld_rnd, State.setFld_rnd, State.setFlag_rnd]

theorem State.imageResult_shows (s : State) (f : Nat × Nat) :
    (s.imageResult f).flag R.imgStatus 0 = false ∧ (s.imageResult f).fld R.imgStatus 15 8 = f.1 % 256 := by
  unfold State.imageResult
  constructor
  · rw [State.flag_setFld_ne _ _ _ _ _ _ (by decide) (by decide) (by decide),
      State.flag_setFld_ne _ _ _ _ _ _ (by decide) (by decide) (by decide), State.flag_setFlag_self _ _ _ _ (by decide)]
  · rw [State.fld_setFld_ne _ _ _ _ _ _ _ (by decide) (by decide) (by decide) (by decide)]
    exact State.fld_setFld_self _ _ _ _ _ (by decide) (by decide)

theorem State.fld_setImg (s : State) (x : ImageState) (a hi lo : Nat) : { s with img := x }.fld a hi lo = s.fld a hi lo := rfl

theorem RegsBut.imageResult (s : State) (f : Nat × Nat) : RegsBut [R.imgStatus] s (s.imageResult f) :=
  (((RegsBut.refl _ s).setFlag_mem (by simp) _ _).setReg_mem (by simp) _).setReg_mem (by simp) _

/-! ### The end of a load (R238) -/

@[simp] theorem State.untouched_hubRead (s : State) (addr n : Nat) : (s.hubRead addr n).1.untouched = s.untouched := by
  unfold State.hubRead
  dsimp only
  split
  · split <;> rfl
  · split
    · refine List.foldlRecOn (motive := fun q : State × Option (List Nat) => q.1.untouched = s.untouched) _ _ rfl ?page
      case page =>
        rintro ⟨t, o⟩ ht i -
        cases o with
        | none => exact ht
        | some bs =>
          have hl := (t.untouched_swmLookup (max addr ((addr / 65536 + i) * 65536)) false).trans ht
          dsimp only
          split
          · next h => rwa [h] at hl
          · next h =>
            rw [h] at hl
            exact (State.untouched_windowFail _ _ _ _ _).trans hl
    · rfl

/-- The loader's reads leave the image function as it is. -/
theorem State.loadSource_img (s : State) (r : LoadReq) : (s.loadSource r).1.img = s.img := by
  refine State.img_of_untouched ?_
  have hh := s.untouched_hubRead r.addr 64
  unfold State.loadSource
  split
  · split
    · rfl
    · split <;> rfl
  · split
    · next h => rwa [h] at hh
    · next t b h =>
      rw [h] at hh
      have hb := (t.untouched_hubRead r.addr (le b 8 4)).trans hh
      split
      · exact hh
      · split
        · next h' => rwa [h'] at hb
        · next h' => rwa [h'] at hb

theorem State.writeStockSet_img (s : State) (bank sel : Nat) (parts : List Nat) :
    (s.writeStockSet bank sel parts).img = s.img :=
  List.foldlRecOn (motive := fun t : State => t.img = s.img) _ _ rfl fun _ ht _ _ => ht

theorem State.writeTables_img (s : State) (b : List Nat) : (s.writeTables b).img = s.img :=
  List.foldlRecOn (motive := fun t : State => t.img = s.img) _ _ rfl fun _ ht _ _ => ht

/-- No load is under way, and IMG_STATUS shows the result `f` of one. -/
def State.loadOver (s : State) (f : Nat × Nat) : Prop :=
  s.img.load = none ∧ s.flag R.imgStatus 0 = false ∧ s.fld R.imgStatus 15 8 = f.1 % 256

theorem State.loadOver.hubEvent {s : State} {f : Nat × Nat} (h : s.loadOver f) (code : Nat) (fs : List (Nat × Nat)) :
    (s.hubEvent code fs).loadOver f := by
  have hr := State.reg_hubEvent s code fs _ notCairnCount_imgStatus
  rwa [State.loadOver, State.hubEvent_img, State.flag_of_reg hr, State.fld_of_reg hr]

theorem State.loadOver.drawn {s : State} {f : Nat × Nat} (h : s.loadOver f) : s.drawn.loadOver f := h

/-- The loader's checks are made with result `f`: the load is over, whether or not the image is pending. -/
theorem State.loadOver_judged {s : State} (hs : s.img.load = none) (r : LoadReq) (im : Image) (f : Nat × Nat) :
    let out : State × (Nat × Nat) := if f.1 = 0 then
        (((({ s with img := { s.img with pending := some im } }.imageResult f).setFlag R.imgStatus 1 true).hubEvent 0x0202
          [(1, r.fromStore.toNat), (8, im.id)]), f)
      else ((s.imageResult f).drawn.hubEvent 0x0203 [(1, f.1), (1, f.2), (4, Config.freeValue s.free)], f)
    out.1.loadOver out.2 := by
  intro out
  by_cases hf : f.1 = 0
  · obtain ⟨hbusy, hres⟩ := State.imageResult_shows { s with img := { s.img with pending := some im } } f
    simp only [out, if_pos hf]
    apply State.loadOver.hubEvent
    refine ⟨?_, ?_, ?_⟩
    · rwa [State.setFlag_img, State.imageResult_img]
    · rwa [State.flag_setFlag_ne _ _ _ _ _ (by decide) (by decide)]
    · rwa [State.fld_setFlag_ne _ _ _ _ _ _ (by decide) (by decide) (by decide)]
  · simp only [out, if_neg hf]
    apply State.loadOver.hubEvent
    apply State.loadOver.drawn
    exact ⟨(congrArg ImageState.load (s.imageResult_img f)).trans hs, s.imageResult_shows f⟩

/-- Whatever the loader found, the load is over and its result shows. -/
theorem State.finishLoad_loadOver (s : State) (r : LoadReq) : (s.finishLoad r).1.loadOver (s.finishLoad r).2 := by
  have hsrc := State.loadSource_img { s with img := { s.img with load := none } } r
  unfold State.finishLoad
  dsimp only
  split
  case h_1 t h =>
    rw [h] at hsrc
    exact State.loadOver_judged (s := t) (congrArg ImageState.load hsrc) r (stockImage 0 false) (0x01, 0)
  case h_2 t i h =>
    rw [h] at hsrc
    exact State.loadOver_judged (congrArg ImageState.load ((t.writeStockSet_img _ _ _).trans hsrc)) r _ _
  case h_3 t b h =>
    rw [h] at hsrc
    refine State.loadOver_judged (congrArg ImageState.load (Eq.trans ?_ hsrc)) r _ _
    split
    · rfl
    · exact t.writeTables_img b

theorem imageLoadDone_ends {r : LoadReq} {s : State} (hu : s.unitsRun = true) (hl : s.img.load = some r) :
    Does .imageLoadDone s fun t =>
      t.img.load = none ∧ t.flag R.imgStatus 0 = false ∧ t.fld R.imgStatus 15 8 = (s.finishLoad r).2.1 % 256 := by
  refine ⟨(s.finishLoad r).1, ?_, s.finishLoad_loadOver r⟩
  change execImageLoadDone s = _
  rw [execImageLoadDone, State.whenRun_eq hu, hl]

/-! ### Commits (R242, R243, R245) -/

theorem exec_imageCommit (k : Nat) (s : State) : exec (.imageCommit k) s = execImageCommit k s := rfl

theorem imageCommit_ignored {k : Nat} (hk : k < 65536) (hn : k ≠ 0xC0A7) (s : State) : Ignored (.imageCommit k) s := by
  rw [Ignored, exec_imageCommit, execImageCommit, Nat.mod_eq_of_lt hk, if_neg hn]

/-- With the key of R242, a commit while the units run is the hub's commit. -/
theorem imageCommit_eq {s : State} (hu : s.unitsRun = true) : exec (.imageCommit 0xC0A7) s = .next s.commit := by
  rw [exec_imageCommit, execImageCommit, if_pos (by decide), State.whenRun_eq hu]

section
variable {im : Image} {s : State}

theorem imageCommit_refuses (hu : s.unitsRun = true) (hp : s.img.pending = some im) (hf : (s.commitFault im).1 ≠ 0) :
    Does (.imageCommit 0xC0A7) s fun t =>
      t.img = s.img ∧ t.fld R.imgStatus 15 8 = (s.commitFault im).1 % 256 ∧ RegsBut [R.imgStatus] s t := by
  have hc : s.commit = (s.imageResult (s.commitFault im)).hubEvent 0x0205 [(1, (s.commitFault im).1)] := by
    simp [State.commit, hp, hf]
  refine ⟨_, (imageCommit_eq hu).trans (congrArg Host.Outcome.next hc), ?_⟩
  dsimp only
  rw [State.hubEvent_img, State.fld_of_reg (State.reg_hubEvent _ _ _ _ notCairnCount_imgStatus)]
  exact ⟨s.imageResult_img _, (s.imageResult_shows _).2, (RegsBut.imageResult s _).hubEvent _ _⟩

/-- The first commit waits for the boundary of the beacon (R243). -/
theorem imageCommit_waits (hu : s.unitsRun = true) (hp : s.img.pending = some im) (hf : (s.commitFault im).1 = 0)
    (hc : s.img.committed = none) (hr : s.rnd.running = true) : Does (.imageCommit 0xC0A7) s fun t =>
      t.img = { s.img with firstCommit := true } ∧ t.fld R.imgStatus 15 8 = 0 := by
  have he : s.commit = { s.imageResult (s.commitFault im) with img := { s.img with firstCommit := true } } := by
    simp [State.commit, hp, hf, hc, hr]
  have hres := (s.imageResult_shows (s.commitFault im)).2
  rw [hf] at hres
  exact ⟨_, (imageCommit_eq hu).trans (congrArg Host.Outcome.next he), rfl, (State.fld_setImg _ _ _ _ _).trans hres⟩

/-- Over a committed image a shift change stands, to be scheduled (R245). -/
theorem imageCommit_swaps (hu : s.unitsRun = true) (hp : s.img.pending = some im) (hf : (s.commitFault im).1 = 0)
    (hc : s.img.committed.isSome = true) : Does (.imageCommit 0xC0A7) s fun t =>
      t.img.swap.isSome = true ∧ t.img.committed = s.img.committed ∧ t.fld R.imgStatus 15 8 = 0 := by
  have he : ∃ w, s.commit = { s.imageResult (s.commitFault im) with img := { s.img with swap := some w } } := by
    obtain ⟨old, ho⟩ := Option.isSome_iff_exists.mp hc
    simp [State.commit, hp, hf, ho]
  obtain ⟨w, he⟩ := he
  have hres := (s.imageResult_shows (s.commitFault im)).2
  rw [hf] at hres
  exact ⟨_, (imageCommit_eq hu).trans (congrArg Host.Outcome.next he), rfl, rfl, (State.fld_setImg _ _ _ _ _).trans hres⟩

end

/-! ### Selections (R258, R259) -/

section
variable {v : Word} {s : State}

theorem imageSelWrite_ignored (hv : 4 ≤ v.toNat % 16) : Ignored (.imageSelWrite v) s := by
  change Host.Outcome.next (s.selectImage v.toNat) = _
  rw [State.selectImage, if_pos hv]

theorem imageSelWrite_locked (hv : v.toNat % 16 < 4) (hl : s.locked = true) : Does (.imageSelWrite v) s fun t =>
    RegsBut [] s t ∧ OnlyRegs s t := by
  refine ⟨s.rwlIgnored R.imgSel, ?_, (RegsBut.refl [] s).hubEvent _ _, .hubEvent s _ _⟩
  change Host.Outcome.next (s.selectImage v.toNat) = _
  rw [State.selectImage, if_neg (Nat.not_le.mpr hv), if_pos hl]

theorem imageSelWrite_loads (hv : v.toNat % 16 < 4) (hl : s.locked = false) (hb : s.flag R.imgStatus 0 = false)
    (hw : s.swapStands = false) : Does (.imageSelWrite v) s fun t =>
      t.img.load = some { fromStore := true, index := v.toNat % 16, addr := 0 } ∧ t.fld R.imgSel 3 0 = v.toNat % 16 := by
  obtain ⟨himg, -, -⟩ := State.startLoad_starts hb hw { fromStore := true, index := v.toNat % 16, addr := 0 }
  refine ⟨(s.startLoad { fromStore := true, index := v.toNat % 16, addr := 0 }).setFld R.imgSel 3 0 (v.toNat % 16), ?_, ?_, ?_⟩
  · change Host.Outcome.next (s.selectImage v.toNat) = _
    simp [State.selectImage, Nat.not_le.mpr hv, hl, hb, hw]
  · rw [State.setFld_img, himg]
  · exact (State.fld_setFld_self _ _ _ _ _ (by decide) (by decide)).trans (Nat.mod_mod _ _)

theorem imageDefaultWrite_keeps (hv : v.toNat % 16 < 4 ∨ (Map.get? s.store.images (v.toNat % 16)).isSome = true) :
    Does (.imageDefaultWrite v) s fun t =>
      t.reg R.imgDefault = v.toNat % 16 ∧ t.store = { s.store with defaultImage := v.toNat % 16 } := by
  refine ⟨{ s with store := { s.store with defaultImage := v.toNat % 16 } }.setReg R.imgDefault (v.toNat % 16), ?_, ?_, rfl⟩
  · change Host.Outcome.next (s.writeDefault v.toNat) = _
    rw [State.writeDefault, if_pos (by simpa using hv)]
  · rw [State.reg_setReg_self, Nat.mod_eq_of_lt (by omega)]

theorem imageDefaultWrite_ignored (hv : 4 ≤ v.toNat % 16) (he : Map.get? s.store.images (v.toNat % 16) = none) :
    Ignored (.imageDefaultWrite v) s := by
  change Host.Outcome.next (s.writeDefault v.toNat) = _
  rw [State.writeDefault, if_neg (by simp [hv, he])]

end

/-- Settles O20: each command by its own theorem above. -/
theorem imagesLoadedAndCommitted : Obligations.ImagesLoadedAndCommitted := by
  unfold Obligations.ImagesLoadedAndCommitted
  refine ⟨fun _ _ _ hi _ => imageLoad_starts hi, fun _ _ => imageLoadDone_ends, fun _ s hk hn => imageCommit_ignored hk hn s,
    fun _ _ => imageCommit_refuses, fun _ _ hu hp hf => ⟨imageCommit_waits hu hp hf, imageCommit_swaps hu hp hf⟩, ?selections⟩
  case selections =>
    exact fun _ _ => ⟨imageSelWrite_ignored, imageSelWrite_locked, imageSelWrite_loads, imageDefaultWrite_keeps,
      imageDefaultWrite_ignored⟩

end Sys2Proof.Machine
end

section
/-! PROOFS. Shift changes: what the work of the hub at a shift leaves of the images and of the registers that show them, what
each step of a shift makes of the swap, and the statement of chapter "The Structure Image and Shift Change" about them (R245
to R255). -/

namespace Sys2Proof.Machine

/-! ### The images and a register -/

/-- The images, and what register `a` holds, are as they were. -/
structure SameImg (a : Nat) (s t : State) : Prop where
  img : t.img = s.img
  reg : t.reg a = s.reg a

/-- A register that no shift's work on leave, core maps and cairns reaches: none of a peak's, of PWR or of CRN. -/
def ofHub (a : Nat) : Prop := (a < Base.pwr ∨ 0x501A4 ≤ a) ∧ a < 0x01000000

theorem ofHub_rndEpoch : ofHub R.rndEpoch := by unfold ofHub; decide
theorem ofHub_imgChanged : ofHub R.imgChanged := by unfold ofHub; decide

namespace SameImg

variable {a : Nat} {s t u : State}

theorem refl (a : Nat) (s : State) : SameImg a s s := ⟨rfl, rfl⟩

theorem trans (h : SameImg a s t) (h' : SameImg a t u) : SameImg a s u := ⟨h'.img.trans h.img, h'.reg.trans h.reg⟩

/-- States that differ neither in the images nor in the register file. -/
theorem of_eq (hi : t.img = s.img) (hr : t.regs = s.regs) : SameImg a s t := ⟨hi, by unfold State.reg; rw [hr]⟩

theorem setBoot (s : State) (x : BootState) : SameImg a s { s with boot := x } := ⟨rfl, rfl⟩

theorem flag (h : SameImg a s t) (i : Nat) : t.flag a i = s.flag a i := State.flag_of_reg h.reg i
theorem fld (h : SameImg a s t) (hi lo : Nat) : t.fld a hi lo = s.fld a hi lo := State.fld_of_reg h.reg hi lo

theorem setReg (s : State) {b : Nat} (h : a ≠ b) (v : Nat) : SameImg a s (s.setReg b v) := ⟨rfl, State.reg_setReg_ne s v h⟩
theorem setFld (s : State) {b : Nat} (h : a ≠ b) (hi lo v : Nat) : SameImg a s (s.setFld b hi lo v) := setReg s h _
theorem setFlag (s : State) {b : Nat} (h : a ≠ b) (i : Nat) (v : Bool) : SameImg a s (s.setFlag b i v) := setReg s h _

theorem setPair (s : State) {lo hi : Nat} (hlo : a ≠ lo) (hhi : a ≠ hi) (v : Nat) : SameImg a s (s.setPair lo hi v) :=
  (setReg s hlo _).trans (setReg _ hhi _)

/-- Many changes of which each leaves the images and the register. -/
theorem foldl {α : Type} {f : State → α → State} (l : List α) (hf : ∀ t, ∀ x ∈ l, SameImg a t (f t x)) (s : State) :
    SameImg a s (l.foldl f s) :=
  List.foldlRecOn (motive := SameImg a s) l _ (refl a s) fun t ht x hx => ht.trans (hf t x hx)

variable (ha : ofHub a)
include ha

theorem ne_pwr {b : Nat} (hl : Base.pwr ≤ b) (hu : b < Base.crn) : a ≠ b := by
  unfold ofHub Base.pwr Base.crn at *; omega

theorem ne_pwrPart {p : Nat} (hp : p < 16) : a ≠ R.pwrPart p :=
  ne_pwr ha (by unfold R.pwrPart; omega) (by unfold R.pwrPart Base.pwr Base.crn; omega)

theorem notCairn : notCairnCount a := by
  unfold ofHub Base.pwr notCairnCount at *; omega

theorem ne_peak {b : Nat} (hb : 0x01000000 ≤ b) : a ≠ b := by
  unfold ofHub at ha; omega

theorem hubEvent (s : State) (code : Nat) (fs : List (Nat × Nat)) : SameImg a s (s.hubEvent code fs) :=
  ⟨s.hubEvent_img code fs, State.reg_hubEvent s code fs a (notCairn ha)⟩

theorem halfEvent (s : State) {h : Nat} (hh : h < 16) (code : Nat) (fs : List (Nat × Nat)) :
    SameImg a s (s.halfEvent h code fs) :=
  ⟨s.halfEvent_img h code fs, State.reg_halfEvent s h code fs a hh (notCairn ha)⟩

/-! ### Leave and core maps in a shift (R243, R266, R607 to R611) -/

theorem recompute (s : State) : SameImg a s s.recompute := by
  have hcap : a ≠ R.pwrCap := ne_pwr ha (by decide) (by decide)
  have hpool : a ≠ R.pwrPool := ne_pwr ha (by decide) (by decide)
  unfold State.recompute
  dsimp only
  exact (((foldl _ (fun t p hp => setFld t (ne_pwrPart ha (List.mem_range.mp hp)) _ _ _) s).trans (setFld _ hcap _ _ _)).trans
    (setFld _ hcap _ _ _)).trans (setFld _ hpool _ _ _)

theorem leaveHolds (s : State) : SameImg a s s.leaveHolds := by
  have hpart (t : State) {p : Nat} (hp : p ∈ List.range 16) (b : Bool) : SameImg a t (t.setFlag (R.pwrPart p) 25 b) :=
    setFlag t (ne_pwrPart ha (List.mem_range.mp hp)) _ _
  unfold State.leaveHolds
  split
  · exact foldl _ (fun t p hp => hpart t hp _) s
  · refine List.foldlRecOn (motive := fun q : State × Nat => SameImg a s q.1) _ _ (refl a s) fun q hq p hp => ?_
    split
    · split
      · exact hq.trans (hpart _ hp _)
      · exact hq.trans (hpart _ hp _)
    · exact hq.trans (hpart _ hp _)

theorem reshare (s : State) : SameImg a s s.reshare := (recompute ha s).trans (leaveHolds ha _)

theorem showGood (s : State) (h : Nat) : SameImg a s (s.showGood h) := by
  have hgood (j : Nat) : a ≠ R.corGood h j := ne_peak ha (by unfold R.corGood Base.corHalf; omega)
  have hcount : a ≠ R.corCount h := ne_peak ha (by unfold R.corCount Base.corHalf; omega)
  unfold State.showGood
  exact (foldl _ (fun t j _ => setReg t (hgood j) _) s).trans (setFld _ hcount _ _ _)

/-- The core map of a half as its registers show it. -/
theorem applyMap (s : State) {h : Nat} (hh : h < 16) (cause : Nat) : SameImg a s (s.applyMap h cause) := by
  have hmap (i : Nat) : a ≠ R.corMap h i := ne_peak ha (by unfold R.corMap Base.corHalf; omega)
  have hcount : a ≠ R.corCount h := ne_peak ha (by unfold R.corCount Base.corHalf; omega)
  have hinfo : a ≠ R.corInfo (h / 2) := ne_peak ha (by unfold R.corInfo Base.cor; omega)
  have hev (c : Prop) [Decidable c] (t : State) (code : Nat) (fs : List (Nat × Nat)) :
      SameImg a t (if c then t.halfEvent h code fs else t) ∧ SameImg a t (if c then t else t.halfEvent h code fs) := by
    split
    · exact ⟨halfEvent ha t hh _ _, refl a t⟩
    · exact ⟨refl a t, halfEvent ha t hh _ _⟩
  unfold State.applyMap
  extract_lets m old new was t₁ t₂ t₃ cor t₄ t₅ t₆ masked
  have h₁ : SameImg a s t₁ := foldl _ (fun t i _ => setReg t (hmap i) _) s
  clear_value t₁
  have h₂ : SameImg a t₁ t₂ := ((setFld t₁ hcount _ _ _).trans (setFlag _ hcount _ _)).trans (showGood ha _ h)
  clear_value t₂
  have h₃ : SameImg a t₂ t₃ := setFld t₂ hinfo _ _ _
  clear_value t₃
  have h₄ : SameImg a t₃ t₄ := of_eq rfl rfl
  clear_value t₄
  have h₅ : SameImg a t₄ t₅ := (hev _ t₄ _ _).2
  clear_value t₅
  have h₆ : SameImg a t₅ t₆ := (hev _ t₅ _ _).1
  clear_value t₆
  have h := ((((h₁.trans h₂).trans h₃).trans h₄).trans h₅).trans h₆
  split
  · exact h
  · exact h.trans (foldl _ (fun t k _ => halfEvent ha t hh _ _) t₆)

/-! ### What the end of a swap brings (R35, R207, R243, R890) -/

theorem takeImage (s : State) (edited : Bool) (hst : a ≠ R.imgStatus) (htt : a ≠ R.rndTtSel) :
    SameImg a s (s.takeImage edited) := by
  have hlim : a ≠ R.pwrState := ne_pwr ha (by decide) (by decide)
  unfold State.takeImage
  extract_lets set t₁ t₂ t₃
  have h₁ : SameImg a s t₁ := by
    unfold t₁
    split
    · exact refl a s
    · exact setFld s htt _ _ _
  clear_value t₁
  have h₂ : SameImg a t₁ t₂ := ((setFld t₁ hlim _ _ _).trans (setFlag _ hlim _ _)).trans (recompute ha _)
  clear_value t₂
  have h₃ : SameImg a t₂ t₃ := ((setFlag t₂ hst _ _).trans (setFlag _ hst _ _)).trans (setFlag _ hst _ _)
  clear_value t₃
  exact ((h₁.trans h₂).trans h₃).trans
    (foldl _ (fun t h hh => applyMap ha t (List.mem_range.mp (List.mem_filter.mp hh).1) 1) t₃)

omit ha in
theorem readmit (s : State) (f : Job → Bool) : SameImg a s (s.readmit f) := of_eq rfl rfl

theorem liftFences (s : State) (epoch : Nat) (hf : a ≠ R.fltFenced) : SameImg a s (s.liftFences epoch) := by
  unfold State.liftFences
  refine (foldl _ (fun t p _ => ?_) s).trans (setReg _ hf _)
  split
  · exact hubEvent ha t _ _
  · exact refl a t

omit ha in
theorem showBusy (s : State) (hb : a ≠ R.glbResetStatus) : SameImg a s s.showBusy := setFlag s hb _ _

omit ha in
theorem startReset (s : State) (r : ResetReq) (hb : a ≠ R.glbResetStatus) (hs : ∀ d, a ≠ R.seqState d) :
    SameImg a s (s.startReset r) := by
  unfold State.startReset
  split
  · exact (setBoot s _).trans (showBusy _ hb)
  · have hset : SameImg a s (s.setActive (s.boot.active ++ [r])) := (setBoot s _).trans (showBusy _ hb)
    dsimp only
    split
    · refine hset.trans (SameImg.trans ?_ (setFld _ (hs _) _ _ _))
      split
      · exact of_eq rfl rfl
      · exact refl a _
    · exact hset

omit ha in
/-- The deferred resets begin. -/
theorem startDeferred (s : State) (hb : a ≠ R.glbResetStatus) (hs : ∀ d, a ≠ R.seqState d) : SameImg a s s.startDeferred := by
  unfold State.startDeferred
  exact ((setBoot s _).trans (foldl _ (fun t r _ => startReset t r hb hs) _)).trans (showBusy _ hb)

end SameImg

/-! ### The swap while partitions are reset (R203, R255) -/

theorem State.setDraws_img (s : State) (h : Nat) (l : List Draw) : (s.setDraws h l).img = s.img := by
  unfold State.setDraws
  rw [State.setFld_img, State.setFld_img]

@[simp] theorem State.freePart_img (s : State) (p : Nat) : (s.freePart p).img = s.img := by
  have hu : (s.unheld p).img = s.img := by
    unfold State.unheld
    rw [State.setFld_img, State.setFlag_img, State.setFld_img]
  rw [State.freePart_eq]
  split
  · refine List.foldlRecOn (motive := fun t : State => t.img = s.img) _ _ hu fun t ht h _ => ?_
    rw [State.setFld_img, State.setDraws_img, ht]
  · exact hu

@[simp] theorem State.recordEnd_img (s : State) (j status code : Nat) (d : List Nat) : (s.recordEnd j status code d).img = s.img := by
  unfold State.recordEnd
  split
  · rfl
  · dsimp only
    split
    · rw [State.freePart_img]; rfl
    · rfl

/-- A fence makes a partition absent; the swap stands. -/
theorem State.fence_swap (s : State) (p : Nat) (n : Notice) : (s.fence p n).img.swap = s.img.swap := by
  unfold State.fence
  split
  · rfl
  · refine List.foldlRecOn (motive := fun t : State => t.img.swap = s.img.swap) _ _ ?_ fun t ht q _ => ?_
    · rw [State.hubEvent_img, State.setFlag_img]
    · split
      · rwa [State.recordEnd_img]
      · rwa [State.recordEnd_img]

theorem State.endJob_swap (s : State) (j status code : Nat) (d : List Nat) : (s.endJob j status code d).img.swap = s.img.swap := by
  have hrec : (s.recordEnd j status code d).img.swap = s.img.swap := congrArg ImageState.swap (s.recordEnd_img j status code d)
  unfold State.endJob
  split
  · rfl
  · dsimp only
    split
    · unfold State.fenceDue
      split
      · exact (State.fence_swap _ _ _).trans hrec
      · exact hrec
    · exact hrec

theorem State.endHolder_swap (s : State) (p status : Nat) (d : List Nat) : (s.endHolder p status d).img.swap = s.img.swap := by
  unfold State.endHolder
  split
  · exact s.endJob_swap _ _ _ _
  · rw [State.freePart_img]

/-- The reset of a partition's halves is memory traffic, and the end of its job leaves the swap. -/
theorem State.partReset_swap (s : State) (p cause : Nat) (d : List Nat) : (s.partReset p cause d).img.swap = s.img.swap := by
  unfold State.partReset
  split
  · rfl
  · next r _ =>
    dsimp only
    generalize hu : r.halves.foldl (fun s h => (s.resumeHalf h).setFlag R.jtgArmed h false) s = u
    have hs : u.img = s.img := State.img_of_untouched (by rw [← hu]; simp)
    rw [State.img_of_untouched (State.untouched_resetDone _ _ _ _), State.resetPart, State.endHolder_swap,
      State.img_of_untouched (State.untouched_resetHalves _ _), hs]

/-! ### The schedule and the epoch mark (R245, R246) -/

/-- The partitions that a shift from image `old` to image `new` changes, as a mask. -/
def State.changedParts (s : State) (old new : Image) : Nat :=
  maskOf ((old.parts.filter fun p => !s.unchanged old new p).map (·.part))

/-- The swap as it stands once it is scheduled. -/
def State.scheduled (s : State) (w : Swap) (old new : Image) : Swap :=
  { w with start := s.rnd.round + s.fld R.imgShiftCfg 9 0, changed := s.changedParts old new,
           mustAck := maskOf ((List.range 8).filter s.dieOn) }

section
variable {w : Swap} {old new : Image} {s : State}

theorem shiftSchedule_eq (hu : s.unitsRun = true) (hq : s.seqRuns 8 = true) (hs : s.shift = some (w, old, new)) (h0 : w.start = 0) :
    exec .shiftSchedule s = .next (((((s.setSwap (s.scheduled w old new)).setFld R.rndEpoch 15 8
        ((s.fld R.rndEpoch 7 0 + 1) % 256)).setPair R.rndSwapRoundLo R.rndSwapRoundHi (s.scheduled w old new).start).setReg R.imgChanged
      (s.changedParts old new)).hubEvent 0x0206 [(8, (s.scheduled w old new).start), (1, (s.fld R.rndEpoch 7 0 + 1) % 256),
        (2, s.changedParts old new)]) := by
  change execShiftSchedule s = _
  rw [execShiftSchedule, State.whenSeq_eq hu hq]
  simp only [hs, h0, bne_self_eq_false, Bool.false_eq_true, if_false]
  rfl

theorem shiftSchedule_schedules (hu : s.unitsRun = true) (hq : s.seqRuns 8 = true) (hs : s.shift = some (w, old, new))
    (h0 : w.start = 0) : Does .shiftSchedule s fun t =>
      (∃ x, t.img.swap = some x ∧ x.start = s.rnd.round + s.fld R.imgShiftCfg 9 0 ∧
        x.mustAck = maskOf ((List.range 8).filter s.dieOn)) ∧
      t.fld R.rndEpoch 15 8 = (s.fld R.rndEpoch 7 0 + 1) % 256 ∧ t.fld R.rndEpoch 7 0 = s.fld R.rndEpoch 7 0 := by
  refine ⟨_, shiftSchedule_eq hu hq hs h0, ?_⟩
  generalize hv : (s.setSwap (s.scheduled w old new)).setFld R.rndEpoch 15 8 ((s.fld R.rndEpoch 7 0 + 1) % 256) = v
  have hp := SameImg.setPair v (by decide : R.rndEpoch ≠ R.rndSwapRoundLo) (by decide : R.rndEpoch ≠ R.rndSwapRoundHi)
    (s.scheduled w old new).start
  have hk := (hp.trans (.setReg _ (by decide : R.rndEpoch ≠ R.imgChanged) (s.changedParts old new))).trans (.hubEvent ofHub_rndEpoch _
    0x0206 [(8, (s.scheduled w old new).start), (1, (s.fld R.rndEpoch 7 0 + 1) % 256), (2, s.changedParts old new)])
  rw [hk.img, hk.fld, hk.fld, ← hv]
  refine ⟨⟨s.scheduled w old new, rfl, rfl, rfl⟩, ?_, ?_⟩
  · exact (State.fld_setFld_self _ _ _ _ _ (by decide) (by decide)).trans (Nat.mod_mod _ _)
  · exact State.fld_setFld_ne _ _ _ _ _ _ _ (by decide) (by decide) (by decide) (by decide)

theorem epochMarkAck_acks {d : Nat} (hg : s.seqGoes d = true) (hp : s.seqPhase d = 1) (hv : (s.seqSt d).serving = 2)
    (hw : s.img.swap = some w) (ht : s.rnd.round + 4 ≤ w.start) (hl : w.live = false) :
    exec (.epochMarkAck d) s = .next (s.setSwap { w with acked := putBit w.acked d true }) := by
  change execEpochMarkAck d s = _
  rw [execEpochMarkAck, State.serve_running hg (by omega) hv]
  simp [hw, ht, hl]

/-- At S - 4 with an acknowledgement missing, no swap stands (R246). -/
def State.abandoned (s : State) : State :=
  { s with img := { s.img with swap := none } }.setFld R.rndEpoch 15 8 (s.fld R.rndEpoch 7 0)

theorem shiftAbandon_abandons (hu : s.unitsRun = true) (hw : s.img.swap = some w) (hm : w.missing ≠ []) (hl : w.live = false)
    (h0 : w.start ≠ 0) (ht : w.start ≤ s.rnd.round + 4) : Does .shiftAbandon s fun t =>
      t.img = { s.img with swap := none } ∧ t.fld R.imgStatus 15 8 = 0x14 ∧ t.fld R.rndEpoch 15 8 = s.fld R.rndEpoch 7 0 := by
  obtain ⟨d, l, hd⟩ := List.exists_cons_of_ne_nil hm
  refine ⟨((s.abandoned.setPair R.rndSwapRoundLo R.rndSwapRoundHi 0).setFld R.imgStatus 15 8 0x14).hubEvent 0x020A [(1, d)], ?_, ?_⟩
  · change execShiftAbandon s = _
    rw [execShiftAbandon, State.whenRun_eq hu]
    simp only [hw, hd]
    rw [if_neg (by simp [hl, h0, ht])]
    rfl
  · have hp := SameImg.setPair (a := R.rndEpoch) s.abandoned (by decide : _ ≠ R.rndSwapRoundLo) (by decide : _ ≠ R.rndSwapRoundHi) 0
    generalize s.abandoned.setPair R.rndSwapRoundLo R.rndSwapRoundHi 0 = v at hp
    have hk := (hp.trans (.setFld v (by decide : _ ≠ R.imgStatus) 15 8 0x14)).trans (.hubEvent ofHub_rndEpoch _ 0x020A [(1, d)])
    dsimp only
    rw [hk.img, hk.fld, State.fld_of_reg (State.reg_hubEvent _ _ _ _ notCairnCount_imgStatus),
      State.fld_setFld_self _ _ _ _ _ (by decide) (by decide)]
    refine ⟨rfl, rfl, ?_⟩
    exact (State.fld_setFld_self _ _ _ _ _ (by decide) (by decide)).trans (Nat.mod_eq_of_lt (bits_lt _ 7 0))

/-! ### The swap (R247, R249, R250, R255) -/

theorem swapStart_starts (hu : s.unitsRun = true) (hw : s.img.swap = some w) (hm : w.missing = []) (hl : w.live = false)
    (h0 : w.start ≠ 0) (ht : w.start ≤ s.rnd.round) (hb : s.atBoundary = true) :
    Does .swapStart s fun t => t.img.swap = some { w with live := true } ∧ t.inSwap = true := by
  have hk := SameImg.reshare ofHub_rndEpoch ((s.setSwap { w with live := true }).setFlag R.rndEpoch 16 true)
  refine ⟨((s.setSwap { w with live := true }).setFlag R.rndEpoch 16 true).reshare, ?_, ?_, ?_⟩
  · change execSwapStart s = _
    rw [execSwapStart, State.whenRun_eq hu]
    simp only [hw]
    rw [if_neg (by simp [hm, hl, h0, Nat.not_lt.mpr ht, hb])]
  · rw [hk.img]; rfl
  · exact (hk.flag 16).trans (State.flag_setFlag_self _ _ _ _ (by decide))

theorem partitionOpen_opens {p : PartRec} (hu : s.unitsRun = true) (hq : s.seqRuns 8 = true) (hs : s.shift = some (w, old, new))
    (hf : (new.parts.find? fun q => q.part == p.part) = some p) (hl : w.live = true) (hb : s.atBoundary = true)
    (ho : bit w.opened p.part = false) (hm : s.mayOpen w old new p = true) (hp : p.part < 16) :
    Does (.partitionOpen p.part) s fun t =>
      t.img.swap = some { w with opened := putBit w.opened p.part true } ∧ t.flag R.imgChanged (16 + p.part) = true := by
  have hk := (SameImg.readmit (a := R.imgChanged) ((s.setSwap { w with opened := putBit w.opened p.part true }).setFlag R.imgChanged
    (16 + p.part) true) fun x => x.part == p.part).trans ((SameImg.hubEvent ofHub_imgChanged _ 0x0208
      [(1, p.part), (8, s.rnd.round), (1, 0)]).trans (.reshare ofHub_imgChanged _))
  refine ⟨(s.openPart w p.part).reshare, ?_, ?_, ?_⟩
  · change execPartitionOpen p.part s = _
    rw [execPartitionOpen, State.whenSeq_eq hu hq]
    simp [hs, hf, hl, hb, ho, hm]
  · exact (congrArg ImageState.swap hk.img).trans rfl
  · exact (hk.flag _).trans (State.flag_setFlag_self _ _ _ _ (by omega))

/-- The resets that the cut of a swap makes: of the changed partitions whose old form still runs. -/
def State.cutResets (s : State) (w : Swap) : State :=
  let cause := Config.freeValue s.free % 16
  ((List.range 16).filter fun p => bit w.changed p && !s.oldRests w p).foldl (fun s p =>
    (s.hubEvent 0x020B [(1, p)]).partReset p cause (resetDetail 3 cause)) s.drawn

theorem State.cutResets_swap (s : State) (w : Swap) : (s.cutResets w).img.swap = s.img.swap :=
  List.foldlRecOn (motive := fun t : State => t.img.swap = s.img.swap) _ _ rfl fun t ht p _ => by
    rwa [State.partReset_swap, State.hubEvent_img]

theorem swapMaxRounds_cuts (hu : s.unitsRun = true) (hw : s.img.swap = some w) (hn : s.fld R.imgShiftCfg 31 10 ≠ 0)
    (hl : w.live = true) (hc : w.cut = false) (ht : w.start + s.fld R.imgShiftCfg 31 10 ≤ s.rnd.round) :
    Does .swapMaxRounds s fun t => t.img.swap = some { w with cut := true } := by
  refine ⟨(s.setSwap { w with cut := true }).cutResets { w with cut := true }, ?_, State.cutResets_swap _ _⟩
  change execSwapMaxRounds s = _
  rw [execSwapMaxRounds, State.whenRun_eq hu]
  simp only [hw]
  rw [if_neg (by simp [hn, hl, hc, ht])]
  rfl

/-! ### The end of the swap (R252) -/

/-- The new image governs alone, with the new epoch. -/
def State.newGoverns (s : State) (w : Swap) (new : Image) (absent : Nat) : State :=
  let t := { s with
    img := { s.img with committed := some new, pending := none, swap := none, absent := absent },
    flt := { s.flt with fenceAtEnd := s.flt.fenceAtEnd.filter fun q => !bit w.changed q.1 } }
  ((t.setFld R.rndEpoch 7 0 (s.fld R.rndEpoch 15 8)).setFlag R.rndEpoch 17 (t.bank == 0)).setFlag R.rndEpoch 16 false

theorem State.newGoverns_shows (s : State) (w : Swap) (new : Image) (absent : Nat) :
    (s.newGoverns w new absent).img = { s.img with committed := some new, pending := none, swap := none, absent := absent } ∧
      (s.newGoverns w new absent).fld R.rndEpoch 7 0 = s.fld R.rndEpoch 15 8 ∧
      (s.newGoverns w new absent).flag R.rndEpoch 16 = false := by
  unfold State.newGoverns
  dsimp only
  refine ⟨?_, ?_, State.flag_setFlag_self _ _ _ _ (by decide)⟩
  · rw [State.setFlag_img, State.setFlag_img, State.setFld_img]
  · rw [State.fld_setFlag_ne _ _ _ _ _ _ (by decide) (by decide) (by decide),
      State.fld_setFlag_ne _ _ _ _ _ _ (by decide) (by decide) (by decide)]
    exact (State.fld_setFld_self _ _ _ _ _ (by decide) (by decide)).trans (Nat.mod_eq_of_lt (bits_lt _ 15 8))

/-- Partitions of the new image that are still closed as the swap ends and that cannot open (R252). -/
def State.brokenParts (s : State) (w : Swap) (new : Image) : List Nat :=
  (new.parts.filter fun p => !bit w.opened p.part && s.partBroken p).map (·.part)

/-- The partitions still closed open with the end of the swap, or have failed to. -/
def State.openClosed (s : State) (w : Swap) (new : Image) (broken : List Nat) : State :=
  (new.parts.filter fun p => !bit w.opened p.part).foldl (fun s p =>
    (if broken.contains p.part then s else s.setFlag R.imgChanged (16 + p.part) true).hubEvent 0x0208
      [(1, p.part), (8, s.rnd.round), (1, (broken.contains p.part).toNat)]) s

/-- What follows the new image's government at the end of a swap (R35, R207, R252). -/
def State.settleSwap (s : State) (w : Swap) (new : Image) (broken : List Nat) (edited : Bool) (epoch : Nat) : State :=
  let s := ((((s.openClosed w new broken).takeImage edited).leaveHolds.readmit fun _ => true)).liftFences epoch
  (s.hubEvent 0x0209 [(8, s.rnd.round), (1, epoch)]).startDeferred

theorem SameImg.openClosed (s : State) (w : Swap) (new : Image) (broken : List Nat) :
    SameImg R.rndEpoch s (s.openClosed w new broken) := by
  refine foldl _ (fun t p _ => SameImg.trans ?_ (hubEvent ofHub_rndEpoch _ _ _)) s
  split
  · exact refl _ t
  · exact setFlag t (by decide : R.rndEpoch ≠ R.imgChanged) _ _

theorem rndEpoch_ne_seqState (d : Nat) : R.rndEpoch ≠ R.seqState d := by
  unfold R.seqState R.rndEpoch Base.seq Base.rnd
  split <;> omega

theorem SameImg.settleSwap (s : State) (w : Swap) (new : Image) (broken : List Nat) (edited : Bool) (epoch : Nat) :
    SameImg R.rndEpoch s (s.settleSwap w new broken edited epoch) := by
  have ha := ofHub_rndEpoch
  have hopen := openClosed s w new broken
  have htake := takeImage ha (s.openClosed w new broken) edited (by decide) (by decide)
  unfold State.settleSwap
  generalize (s.openClosed w new broken).takeImage edited = t at htake
  exact ((((((hopen.trans htake).trans (leaveHolds ha t)).trans (readmit _ _)).trans
    (liftFences ha _ epoch (by decide))).trans (hubEvent ha _ _ _)).trans
      (startDeferred _ (by decide) rndEpoch_ne_seqState))

theorem swapEnd_eq (hu : s.unitsRun = true) (hs : s.shift = some (w, old, new)) (hb : s.atBoundary = true)
    (hm : s.mayCleanse w old = true) (hc : w.cleansed = true) :
    exec .swapEnd s = .next ((s.newGoverns w new (maskOf (s.brokenParts w new))).settleSwap w new (s.brokenParts w new)
      (s.flag R.imgStatus 3) (s.fld R.rndEpoch 15 8)) := by
  change execSwapEnd s = _
  rw [execSwapEnd, State.whenRun_eq hu]
  simp only [hs]
  rw [if_neg (by simp [hb, hm, hc])]
  rfl

theorem swapEnd_governs (hu : s.unitsRun = true) (hs : s.shift = some (w, old, new)) (hb : s.atBoundary = true)
    (hm : s.mayCleanse w old = true) (hc : w.cleansed = true) :
    Does .swapEnd s fun t => t.img.committed = some new ∧ t.img.swap = none ∧ t.img.pending = none ∧
      t.fld R.rndEpoch 7 0 = s.fld R.rndEpoch 15 8 ∧ t.inSwap = false := by
  refine ⟨_, swapEnd_eq hu hs hb hm hc, ?_⟩
  obtain ⟨himg, hepoch, hswap⟩ := s.newGoverns_shows w new (maskOf (s.brokenParts w new))
  generalize s.newGoverns w new (maskOf (s.brokenParts w new)) = v at himg hepoch hswap
  have hk := SameImg.settleSwap v w new (s.brokenParts w new) (s.flag R.imgStatus 3) (s.fld R.rndEpoch 15 8)
  rw [hk.img, hk.fld, himg, hepoch]
  exact ⟨rfl, rfl, rfl, rfl, (hk.flag 16).trans hswap⟩

end

/-- Settles O21: each command by its own theorem above. -/
theorem shiftChanges : Obligations.ShiftChanges := by
  unfold Obligations.ShiftChanges
  exact ⟨fun _ _ _ _ hu hq hs h0 => shiftSchedule_schedules hu hq hs h0,
    fun _ _ _ _ hg hp hv hw hr hl => epochMarkAck_acks hg hp hv hw hr hl,
    fun _ _ hu hw hm hl h0 ht => shiftAbandon_abandons hu hw hm hl h0 ht,
    fun _ _ hu hw hm hl h0 ht hb => swapStart_starts hu hw hm hl h0 ht hb,
    fun _ _ _ _ _ hu hq hs hf hl hb ho hm hp => partitionOpen_opens hu hq hs hf hl hb ho hm hp,
    fun _ _ _ _ hu hs hb hm hc => swapEnd_governs hu hs hb hm hc,
    fun _ _ hu hw hn hl hc ht => swapMaxRounds_cuts hu hw hn hl hc ht⟩

end Sys2Proof.Machine
end

section
/-! PROOFS. What an instruction of a thread group leaves behind, said once: the lanes of a mask, the state after a group or a
block is replaced, the front end for an instruction without a destination. Then branches, EXIT, BRK and TRAP (R283 to R287,
R297, R316, R320, R327). -/

namespace Sys2Proof.Machine

/-! ### Masks and lanes -/

theorem bit_foldl_putBit (l : List Nat) (m i : Nat) :
    bit (l.foldl (fun m i => putBit m i true) m) i = (bit m i || decide (i ∈ l)) := by
  induction l generalizing m with
  | nil => simp
  | cons a l ih =>
    rw [List.foldl_cons, ih]
    by_cases h : i = a
    · subst h; simp
    · simp [bit_putBit_ne _ _ _ _ h, h]

@[simp] theorem bit_maskOf (l : List Nat) (i : Nat) : bit (maskOf l) i = decide (i ∈ l) := by
  simp [maskOf, bit_foldl_putBit]

theorem maskOf_eq_zero {l : List Nat} : maskOf l = 0 ↔ l = [] := by
  constructor
  · intro h
    refine List.eq_nil_iff_forall_not_mem.mpr fun a ha => ?_
    have hb : bit (maskOf l) a = false := by rw [h, bit_zero]
    simp [ha] at hb
  · rintro rfl; rfl

/-- The lanes of a mask that are not in a list. -/
theorem maskMinus_maskOf (m : Nat) (l : List Nat) :
    maskMinus m (maskOf l) = maskOf ((setBitsOf 32 m).filter fun i => decide (i ∉ l)) := by
  simp [maskMinus]

theorem Group.acting_pairwise (x : Group) (f : CoreFields) : (x.acting f).Pairwise (· < ·) :=
  (List.pairwise_lt_range.filter _).filter _

theorem Group.acting_nodup (x : Group) (f : CoreFields) : (x.acting f).Nodup :=
  (x.acting_pairwise f).imp fun h => Nat.ne_of_lt h

/-! ### A group and a block replaced -/

@[simp] theorem State.blk_setGroup (s : State) (g h : GroupRef) (x : Group) (k : Nat) :
    (s.setGroup g x).blk? h k = s.blk? h k := by
  unfold State.blk? State.setGroup
  simp only [State.core_setCore]
  split
  · next e => simp only [State.core, e]
  · rfl

/-- A group that issues is now `y`, and the step's grant is spent. -/
theorem OnlyGroup.setGroup {g : GroupRef} (hg : g.wf = true) (y : Group) (s : State) :
    OnlyGroup g y s ((s.spendStep g).setGroup g y) := by
  have hc : g.core < 128 := by simp [GroupRef.wf] at hg; omega
  refine ⟨by simp, fun h hh hne => ?_, fun h k => ?_, rfl⟩
  · rw [State.group_setGroup_ne _ _ _ _ hc hh hne]; rfl
  · rw [State.blk_setGroup]; rfl

/-- A group that stops with a trap, where it has no unconfirmed load (R323). -/
theorem Traps.raise {g : GroupRef} (hg : g.wf = true) {x : Group} (hu : x.unconf = []) (code user lanes : Nat) (s : State) :
    Traps g x code user lanes s ((s.spendStep g).raise g x code user lanes) := by
  unfold State.raise
  rw [if_pos (by simp [hu])]
  exact ⟨_, OnlyGroup.setGroup hg _ s, rfl⟩

/-! ### An event does not read the cores -/

section
variable (s : State) (g : GroupRef)

theorem State.rnd_spendStep : (s.spendStep g).rnd = s.rnd := rfl
theorem State.flag_spendStep (a i : Nat) : (s.spendStep g).flag a i = s.flag a i := rfl
theorem State.cairn_spendStep (d : Nat) : (s.spendStep g).cairn d = s.cairn d := rfl
theorem State.absTurn_spendStep : (s.spendStep g).absTurn = s.absTurn := rfl
theorem State.toldDrops_spendStep (d : Nat) (c : Cairn) : (s.spendStep g).toldDrops d c = s.toldDrops d c := rfl
theorem State.setCairn_spendStep (d : Nat) (c : Cairn) : (s.spendStep g).setCairn d c = (s.setCairn d c).spendStep g := rfl
theorem State.count_spendStep (a k : Nat) : (s.spendStep g).count a k = (s.count a k).spendStep g := rfl

theorem State.offer_spendStep (d : Nat) (e : CairnEntry) (b : Bool) :
    (s.spendStep g).offer d e b = (s.offer d e b).spendStep g := by
  unfold State.offer
  simp only [apply_ite (fun t : State => t.spendStep g), State.rnd_spendStep, State.flag_spendStep, State.cairn_spendStep,
    State.absTurn_spendStep, State.toldDrops_spendStep, State.setCairn_spendStep, State.count_spendStep]
  rfl

theorem State.halfEvent_spendStep (h code : Nat) (fs : List (Nat × Nat)) :
    (s.spendStep g).halfEvent h code fs = (s.halfEvent h code fs).spendStep g := by
  unfold State.halfEvent State.event
  rw [apply_ite (fun t : State => t.spendStep g), State.offer_spendStep]
  rfl

end

/-! ### The front end of an instruction without a destination, and of a commit point -/

section
variable {s : State} {g : GroupRef} {f : CoreFields} {p : OpSpec} {x : Group} {b : Blk}

theorem State.issues.wf (h : s.issues g f p x b) : g.wf = true := by
  obtain ⟨⟨hg, -⟩, -⟩ := h
  exact hg

theorem State.issues.fields_wf (h : s.issues g f p x b) : f.wf = true := by
  obtain ⟨⟨-, hf, -⟩, -⟩ := h
  exact hf

theorem State.issue_noDest (h : s.issues g f p x b) (hd : p.d = .unused) (hl : p.load = false)
    (k : State → Blk → Group → State) : s.issue g f p [] k = k (s.spendStep g) b x := by
  rw [State.issue_eq h [] (by simp [hl])]
  simp [hd, Field.regList]

theorem State.issues.unconf (h : s.issues g f p x b) (hc : p.commit = true) : x.unconf = [] := by
  obtain ⟨⟨-, -, -, -, -, -, -, -, hu, -⟩, -⟩ := h
  exact hu hc

/-- A commit point issues once every load is confirmed (R317). -/
theorem State.issue_commit (h : s.issues g f p x b) (hc : p.commit = true) (hl : p.load = false)
    (k : State → Blk → Group → State) : s.issue g f p [] k = k (s.spendStep g) b x := by
  rw [State.issue_eq h [] (by simp [hl])]
  simp [h.unconf hc]

end

/-! ### Divergence (R283, R285, R287) -/

section
variable {s : State} {g : GroupRef} {x : Group} {r m t : Nat} {rest : List (Nat × Nat)}

/-- With room for them the reconvergence entry and the paths but the first are pushed, and the first runs. -/
theorem State.diverge_pushes (hg : g.wf = true) (hs : x.stack.length + rest.length + 1 ≤ 32) :
    OnlyGroup g { x with
      stack := rest.map (fun p => (p.1, p.2, r)) ++ (x.mask, r, x.rpc) :: x.stack, mask := m, pc := t, rpc := r } s
      ((s.spendStep g).diverge g x r ((m, t) :: rest)) := by
  unfold State.diverge
  dsimp only
  rw [if_neg (by simp only [List.length_cons]; omega)]
  exact OnlyGroup.setGroup hg _ s

/-- Past 32 entries DIV_OVF is raised with its event, and stack and mask stand. -/
theorem State.diverge_overflows (hg : g.wf = true) (hs : 32 < x.stack.length + rest.length + 1) (hu : x.unconf = []) :
    Traps g x 0x03 0 x.mask (s.halfEvent g.half 0x0405 [(1, g.half), (1, g.core), (1, g.slot), (4, x.pc)])
      ((s.spendStep g).diverge g x r ((m, t) :: rest)) := by
  unfold State.diverge
  dsimp only
  rw [if_pos (by simp only [List.length_cons]; omega), if_pos (by simp [hu]), State.halfEvent_spendStep]
  exact Traps.raise hg hu _ _ _ _

end

/-! ### Targets of BRI (R285) -/

/-- A list is empty, or another list with one member put behind it. -/
theorem appendInduction {α : Type} {P : List α → Prop} (nil : P []) (append_singleton : ∀ l a, P l → P (l ++ [a])) (l : List α) :
    P l := by
  have hrev : ∀ r : List α, P r.reverse := fun r => by
    induction r with
    | nil => exact nil
    | cons a r ih => rw [List.reverse_cons]; exact append_singleton _ _ ih
  rw [← List.reverse_reverse l]
  exact hrev _

/-- The lanes of each target, by target. -/
def laneTable (tgt : Nat → Nat) (lanes : List Nat) : Table Nat :=
  lanes.foldl (fun m l => Map.set m (tgt l) (putBit (Map.getD m (tgt l) 0) l true)) []

theorem targets_eq (tgt : Nat → Nat) (lanes : List Nat) : targets tgt lanes = (laneTable tgt lanes).map fun p => (p.2, p.1) := rfl

theorem laneTable_append (tgt : Nat → Nat) (lanes : List Nat) (a : Nat) : laneTable tgt (lanes ++ [a]) =
    Map.set (laneTable tgt lanes) (tgt a) (putBit (Map.getD (laneTable tgt lanes) (tgt a) 0) a true) := by
  simp [laneTable]

theorem sorted_laneTable (tgt : Nat → Nat) (lanes : List Nat) : Map.sorted (laneTable tgt lanes) = true :=
  List.foldlRecOn (motive := fun t : Table Nat => Map.sorted t = true) lanes _ rfl fun t ht _ _ => Map.sorted_set t _ _ ht

/-- A target that some lane has is listed with the mask of its lanes. -/
theorem get?_laneTable (tgt : Nat → Nat) (lanes : List Nat) (q : Nat) : Map.get? (laneTable tgt lanes) q =
    if lanes.filter (fun l => tgt l == q) = [] then none else some (maskOf (lanes.filter fun l => tgt l == q)) := by
  induction lanes using appendInduction with
  | nil => rfl
  | append_singleton lanes a ih =>
    rw [laneTable_append, Map.get?_set, List.filter_append]
    by_cases hq : q = tgt a
    · have hD : Map.getD (laneTable tgt lanes) q 0 = maskOf (lanes.filter fun l => tgt l == q) := by
        rw [Map.getD, ih]
        split
        · next he => rw [he]; rfl
        · rfl
      subst hq
      rw [if_pos rfl, hD]
      simp [maskOf]
    · have ha : (tgt a == q) = false := by simpa using Ne.symm hq
      have hnone : [a].filter (fun l => tgt l == q) = [] := by rw [List.filter_cons, ha]; rfl
      rw [if_neg hq, ih, hnone, List.append_nil]

theorem mem_targets {tgt : Nat → Nat} {lanes : List Nat} {m q : Nat} : (m, q) ∈ targets tgt lanes ↔
    m = maskOf (lanes.filter fun l => tgt l == q) ∧ ∃ l ∈ lanes, tgt l = q := by
  have hmem : (m, q) ∈ targets tgt lanes ↔ Map.get? (laneTable tgt lanes) q = some m := by
    rw [targets_eq, List.mem_map]
    constructor
    · rintro ⟨⟨k, v⟩, hkv, he⟩
      obtain ⟨rfl, rfl⟩ := Prod.mk.inj he
      exact Map.get?_of_mem (sorted_laneTable tgt lanes) hkv
    · exact fun h => ⟨(q, m), Map.mem_of_get? h, rfl⟩
  have hne : lanes.filter (fun l => tgt l == q) = [] ↔ ¬ ∃ l ∈ lanes, tgt l = q := by simp [List.filter_eq_nil_iff]
  rw [hmem, get?_laneTable]
  split
  · next he => simp [hne.mp he]
  · next he =>
    have hl : ∃ l ∈ lanes, tgt l = q := Classical.byContradiction fun hn => he (hne.mpr hn)
    rw [Option.some.injEq]
    exact ⟨fun h => ⟨h.symm, hl⟩, fun h => h.1.symm⟩

theorem Map.pairwise_of_sorted {α : Type} {t : Table α} (h : Map.sorted t = true) : t.Pairwise fun p q => p.1 < q.1 := by
  induction t with
  | nil => exact .nil
  | cons p t ih =>
    obtain ⟨hp, ht⟩ := Map.sorted_cons.mp h
    exact .cons hp (ih ht)

theorem targets_pairwise (tgt : Nat → Nat) (lanes : List Nat) : (targets tgt lanes).Pairwise fun p q => p.2 < q.2 :=
  List.pairwise_map.mpr (Map.pairwise_of_sorted (sorted_laneTable tgt lanes))

/-- The list of targets is the only one that rises and holds each target once with the mask of its lanes. -/
theorem eq_targets {tgt : Nat → Nat} {lanes : List Nat} {ts : List (Nat × Nat)} (hp : ts.Pairwise fun p q => p.2 < q.2)
    (hq : ∀ q, (∃ m, (m, q) ∈ ts) ↔ ∃ l ∈ lanes, tgt l = q)
    (hm : ∀ m q, (m, q) ∈ ts → m = maskOf (lanes.filter fun l => tgt l == q)) : ts = targets tgt lanes := by
  have hnodup : ∀ {l : List (Nat × Nat)}, l.Pairwise (fun p q => p.2 < q.2) → l.Nodup :=
    fun h => h.imp fun hlt he => by subst he; exact Nat.lt_irrefl _ hlt
  have hperm : ts.Perm (targets tgt lanes) := by
    refine (List.perm_ext_iff_of_nodup (hnodup hp) (hnodup (targets_pairwise tgt lanes))).mpr fun ⟨m, q⟩ => ?_
    rw [mem_targets]
    constructor
    · exact fun h => ⟨hm m q h, (hq q).mp ⟨m, h⟩⟩
    · rintro ⟨rfl, hl⟩
      obtain ⟨m, h⟩ := (hq q).mpr hl
      rwa [← hm m q h]
  exact hperm.eq_of_pairwise (fun _ _ _ _ h h' => absurd h (Nat.lt_asymm h')) hp (targets_pairwise tgt lanes)

/-! ### BRA and BRI (R283, R285, R297, R316) -/

/-- The lanes of the mask that do not act. -/
def Group.idleLanes (x : Group) (f : CoreFields) : List Nat := (setBitsOf 32 x.mask).filter fun l => decide (l ∉ x.acting f)

theorem Group.maskMinus_acting (x : Group) (f : CoreFields) : maskMinus x.mask (maskOf (x.acting f)) = maskOf (x.idleLanes f) :=
  maskMinus_maskOf _ _

section
variable {g : GroupRef} {f : CoreFields} {x : Group} {b : Blk} {s : State}

theorem bra_eq (h : s.issues g f (ctlSpec .unused .b false false false true) x b) (hm : f.mod = 0) :
    exec (.bra g f) s = .next (
      let y := x.markPath (x.pendPreds.contains f.pred)
      if x.acting f = [] then (s.spendStep g).setGroup g { y with pc := x.pc + f.len }
      else if x.idleLanes f = [] then (s.spendStep g).setGroup g { y with pc := f.w1 % 2 ^ 32 }
      else (s.spendStep g).diverge g y (f.w1 / 2 ^ 32)
        [(maskOf (x.idleLanes f), x.pc + f.len), (maskOf (x.acting f), f.w1 % 2 ^ 32)]) := by
  change execBra g f s = _
  have hspec : { OpSpec.alu .unused .unused .unused .unused (f.mod == 0) with fmt := .b } =
      ctlSpec .unused .b false false false true := by rw [hm]; rfl
  unfold execBra
  dsimp only
  rw [hspec, State.issue_noDest h rfl rfl]
  simp only [← maskOf_eq_zero, ← x.maskMinus_acting f]
  rfl

theorem bra_branches (h : s.issues g f (ctlSpec .unused .b false false false true) x b) (hm : f.mod = 0) :
    let path := x.pathPending || x.pendPreds.contains f.pred
    let r := f.w1 / 2 ^ 32
    Does (.bra g f) s fun t =>
      (x.acting f = [] → OnlyGroup g { x with pc := x.pc + f.len, pathPending := path } s t) ∧
      (x.acting f ≠ [] → x.idleLanes f = [] → OnlyGroup g { x with pc := f.w1 % 2 ^ 32, pathPending := path } s t) ∧
      (x.acting f ≠ [] → x.idleLanes f ≠ [] → x.stack.length + 2 ≤ 32 →
        OnlyGroup g { x with
          pathPending := path, mask := maskOf (x.idleLanes f), pc := x.pc + f.len, rpc := r,
          stack := (maskOf (x.acting f), f.w1 % 2 ^ 32, r) :: (x.mask, r, x.rpc) :: x.stack } s t) ∧
      (x.acting f ≠ [] → x.idleLanes f ≠ [] → 32 < x.stack.length + 2 → x.unconf = [] →
        Traps g { x with pathPending := path } 0x03 0 x.mask
          (s.halfEvent g.half 0x0405 [(1, g.half), (1, g.core), (1, g.slot), (4, x.pc)]) t) := by
  refine ⟨_, bra_eq h hm, fun ha => ?_, fun ha hf => ?_, fun ha hf hs => ?_, fun ha hf hs hu => ?_⟩
  · rw [if_pos ha]
    exact OnlyGroup.setGroup h.wf _ s
  · rw [if_neg ha, if_pos hf]
    exact OnlyGroup.setGroup h.wf _ s
  · rw [if_neg ha, if_neg hf]
    exact State.diverge_pushes (x := x.markPath _) h.wf hs
  · rw [if_neg ha, if_neg hf]
    exact State.diverge_overflows (x := x.markPath _) h.wf hs hu

/-- The paths of a BRI: the lanes that do not act fall through, and then each target in order. -/
def Group.briPaths (x : Group) (f : CoreFields) : List (Nat × Nat) :=
  (if x.idleLanes f = [] then [] else [(maskOf (x.idleLanes f), x.pc + f.len)]) ++ targets (fun l => x.reg l f.a) (x.acting f)

theorem bri_eq (h : s.issues g f (ctlSpec (.regs 1) .bri false false false true) x b) (hm : f.mod = 0) :
    exec (.bri g f) s = .next (
      let y := x.markPath (x.pendRegs.contains f.a)
      match x.briPaths f with
      | [(_, t)] => (s.spendStep g).setGroup g { y with pc := t }
      | _ => (s.spendStep g).diverge g y (f.w1 / 2 ^ 32) (x.briPaths f)) := by
  change execBri g f s = _
  have hspec : { OpSpec.alu .unused (.regs 1) .unused .unused (f.mod == 0) with fmt := .bri } =
      ctlSpec (.regs 1) .bri false false false true := by rw [hm]; rfl
  unfold execBri Group.briPaths
  dsimp only
  rw [hspec, State.issue_noDest h rfl rfl]
  simp only [← maskOf_eq_zero, ← x.maskMinus_acting f]
  rfl

theorem bri_branches (h : s.issues g f (ctlSpec (.regs 1) .bri false false false true) x b) (hm : f.mod = 0) :
    let path := x.pathPending || x.pendRegs.contains f.a
    let r := f.w1 / 2 ^ 32
    Does (.bri g f) s fun t => ∀ m q rest, x.briPaths f = (m, q) :: rest →
      (rest = [] → OnlyGroup g { x with pc := q, pathPending := path } s t) ∧
      (rest ≠ [] → x.stack.length + rest.length + 1 ≤ 32 →
        OnlyGroup g { x with
          pathPending := path, mask := m, pc := q, rpc := r,
          stack := rest.map (fun p => (p.1, p.2, r)) ++ (x.mask, r, x.rpc) :: x.stack } s t) ∧
      (rest ≠ [] → 32 < x.stack.length + rest.length + 1 → x.unconf = [] →
        Traps g { x with pathPending := path } 0x03 0 x.mask
          (s.halfEvent g.half 0x0405 [(1, g.half), (1, g.core), (1, g.slot), (4, x.pc)]) t) := by
  refine ⟨_, bri_eq h hm, fun m q rest hp => ?_⟩
  rw [hp]
  cases rest with
  | nil => exact ⟨fun _ => OnlyGroup.setGroup h.wf _ s, fun hn => absurd rfl hn, fun hn => absurd rfl hn⟩
  | cons p rest =>
    exact ⟨fun hn => absurd hn (List.cons_ne_nil _ _), fun _ hs => State.diverge_pushes (x := x.markPath _) h.wf hs,
      fun _ hs hu => State.diverge_overflows (x := x.markPath _) h.wf hs hu⟩

end

/-! ### Reconvergence (R284) -/

/-- One entry is popped where the group stands at its reconvergence point or has no lane, and the popped entry runs. -/
theorem Group.pop_once (n : Nat) {x : Group} {m pc rpc : Nat} {st : List (Nat × Nat × Nat)} (hst : x.stack = (m, pc, rpc) :: st)
    (hx : x.pc = x.rpc ∨ x.mask = 0) (hm : m ≠ 0) (hr : st = [] ∨ pc ≠ rpc) :
    Group.pop (n + 1) x = { x with mask := m, pc := pc, rpc := rpc, stack := st } := by
  rw [Group.pop, hst]
  dsimp only
  rw [if_pos (by simpa using hx)]
  exact Group.pop_self n _ hm hr

theorem nop_pops {g : GroupRef} {f : CoreFields} {x : Group} {b : Blk} {s : State} {m pc rpc : Nat} {st : List (Nat × Nat × Nat)}
    (hg : g.wf = true) (hi : s.mayIssue g = true) (hx : s.group? g = some x) (hb : s.blk? g x.block = some b)
    (hw : x.wait = .ready) (hst : x.stack = (m, pc, rpc) :: st) (hr : x.pc = x.rpc ∨ x.mask = 0) (hm : m ≠ 0)
    (hs : st = [] ∨ pc ≠ rpc) (h8 : pc % 8 = 0) (hk : pc < b.kernelLen) (hu : x.unconf = [])
    (hl : (OpSpec.alu .unused .unused .unused .unused true).legal f = true) (h0 : f.mod = 0) :
    Does (.nop g f) s (OnlyGroup g { x with mask := m, pc := pc + f.len, rpc := rpc, stack := st } s) := by
  refine ⟨_, ?_, OnlyGroup.setGroup hg _ s⟩
  change execNop g f s = _
  have hspec : OpSpec.alu .unused .unused .unused .unused (f.mod == 0) = .alu .unused .unused .unused .unused true := by rw [h0]; rfl
  unfold execNop State.issue
  dsimp only
  rw [hspec, hi, hx]
  dsimp only
  rw [Group.pop_once 32 hst hr hm hs]
  dsimp only
  have hin : (OpSpec.alu .unused .unused .unused .unused true).inRange f x.regsPer = true := by
    simp [OpSpec.alu, OpSpec.inRange, Field.inRange]
  rw [hb]
  have hload : (OpSpec.alu .unused .unused .unused .unused true).load = false := rfl
  simp [hw, hm, hu, hl, h8, Nat.not_le.mpr hk, hin, hload, Group.step]

/-- Settles O31: BRA and BRI by the theorems above, the targets of BRI being the only list that the premises allow; a group
at its reconvergence point pops before it issues. The lanes named, and the fall-through lanes before the targets, are log
entry 26; BRI's mark is that of a pending target alone, log entry 96. -/
theorem branches : Obligations.Branches := by
  unfold Obligations.Branches
  intro g f x b s
  refine ⟨fun h hm => bra_branches h hm, fun ts h hm hp hq hmask => ?_, ?_⟩
  · rw [eq_targets (tgt := fun l => x.reg l f.a) hp hq hmask]
    exact bri_branches h hm
  · intro m pc rpc st hg _ hi hx hb hw hst hr hm hs h8 hk hu hl h0
    exact nop_pops hg hi hx hb hw hst hr hm hs h8 hk hu hl h0

/-! ### EXIT, BRK and TRAP (R286, R320, R321, R327) -/

section
variable {g : GroupRef} {f : CoreFields} {x : Group} {b : Blk} {s : State}

/-- Group `x` behind an EXIT of its acting lanes, before a group without lanes pops. -/
def Group.exits (x : Group) (f : CoreFields) : Group :=
  { x with
    mask := maskOf (x.idleLanes f), exited := x.exited ||| maskOf (x.acting f), pc := x.pc + f.len,
    stack := x.stack.map fun e => (maskOf ((setBitsOf 32 e.1).filter fun l => decide (l ∉ x.acting f)), e.2) }

theorem exit_eq (h : s.issues g f (ctlSpec .unused .r false false true true) x b) (hm : f.mod = 0) :
    exec (.exit g f) s = .next ((s.spendStep g).setGroup g
      (if x.idleLanes f = [] then Group.pop 33 (x.exits f) else x.exits f)) := by
  change execExit g f s = _
  have hspec : { OpSpec.alu .unused .unused .unused .unused (f.mod == 0) with commit := true } =
      ctlSpec .unused .r false false true true := by rw [hm]; rfl
  unfold execExit Group.exits
  dsimp only
  rw [hspec, State.issue_noDest h rfl rfl]
  simp only [maskMinus_maskOf, ← maskOf_eq_zero]
  rfl

theorem exit_exits (h : s.issues g f (ctlSpec .unused .r false false true true) x b) (hm : f.mod = 0) :
    Does (.exit g f) s fun t =>
      (x.idleLanes f ≠ [] → OnlyGroup g (x.exits f) s t) ∧
      (x.idleLanes f = [] → x.stack = [] →
        ∃ y, OnlyGroup g y s t ∧ y.done = true ∧ y.exited = x.exited ||| maskOf (x.acting f)) ∧
      (∀ m pc rpc tail, x.idleLanes f = [] → (x.exits f).stack = (m, pc, rpc) :: tail → m ≠ 0 → (tail = [] ∨ pc ≠ rpc) →
        OnlyGroup g { x with mask := m, exited := x.exited ||| maskOf (x.acting f), pc := pc, rpc := rpc, stack := tail } s t) := by
  refine ⟨_, exit_eq h hm, fun hn => ?_, fun he hs => ?_, fun m pc rpc tail he hst hm hr => ?_⟩
  · rw [if_neg hn]
    exact OnlyGroup.setGroup h.wf _ s
  · have hst : (x.exits f).stack = [] := by simp [Group.exits, hs]
    have hpop : Group.pop 33 (x.exits f) = x.exits f := by rw [Group.pop, hst]
    have hmask : (x.exits f).mask = 0 := maskOf_eq_zero.mpr he
    rw [if_pos he, hpop]
    exact ⟨_, OnlyGroup.setGroup h.wf _ s, by simp [Group.done, hst, hmask], rfl⟩
  · have hmask : (x.exits f).mask = 0 := maskOf_eq_zero.mpr he
    rw [if_pos he, Group.pop_once 32 hst (.inr hmask) hm hr]
    exact OnlyGroup.setGroup h.wf _ s

/-- A half that JTAG halts shows it (R842). -/
theorem State.flag_haltHalf (s : State) {h : Nat} (hh : h < 16) : (s.haltHalf h).flag R.jtgState h = true := by
  have hflag := s.flag_setFlag_self R.jtgState h true (by omega)
  unfold State.haltHalf
  dsimp only
  split
  · unfold State.voidPart
    split
    · exact hflag
    · exact hflag
  · exact hflag

theorem brk_eq (h : s.issues g f (ctlSpec .unused .r false false true true) x b) (hm : f.mod = 0) :
    exec (.brk g f) s = .next (
      if x.acting f = [] then (s.spendStep g).setGroup g { x with pc := x.pc + f.len }
      else if b.brkHalt && s.flag R.jtgArmed g.half then
        (((s.spendStep g).setGroup g { x with pc := x.pc + f.len }).haltHalf g.half).halfEvent g.half 0x0408
          [(1, g.half), (1, g.core), (1, g.slot), (4, x.pc)]
      else (s.spendStep g).raise g x 0x0A 0 (maskOf (x.acting f))) := by
  change execBrk g f s = _
  have hspec : { OpSpec.alu .unused .unused .unused .unused (f.mod == 0) with commit := true } =
      ctlSpec .unused .r false false true true := by rw [hm]; rfl
  unfold execBrk
  dsimp only
  rw [hspec, State.issue_noDest h rfl rfl, State.flag_spendStep]

theorem brk_halts (h : s.issues g f (ctlSpec .unused .r false false true true) x b) (hm : f.mod = 0) :
    Does (.brk g f) s fun t =>
      (x.acting f = [] → OnlyGroup g { x with pc := x.pc + f.len } s t) ∧
      (x.acting f ≠ [] → b.brkHalt = true → s.flag R.jtgArmed g.half = true → t.flag R.jtgState g.half = true ∧
        ∃ u, OnlyGroup g { x with pc := x.pc + f.len } s u ∧
          t = (u.haltHalf g.half).halfEvent g.half 0x0408 [(1, g.half), (1, g.core), (1, g.slot), (4, x.pc)]) ∧
      (x.acting f ≠ [] → (b.brkHalt = false ∨ s.flag R.jtgArmed g.half = false) → Traps g x 0x0A 0 (maskOf (x.acting f)) s t) := by
  have hhalf : g.half < 16 := by have hw := h.wf; simp [GroupRef.wf] at hw; omega
  refine ⟨_, brk_eq h hm, fun ha => ?_, fun ha hb hj => ?_, fun ha hn => ?_⟩
  · rw [if_pos ha]
    exact OnlyGroup.setGroup h.wf _ s
  · rw [if_neg ha, if_pos (by rw [hb, hj]; rfl)]
    refine ⟨?_, _, OnlyGroup.setGroup h.wf _ s, rfl⟩
    rw [State.flag_of_reg (State.reg_halfEvent _ _ _ _ _ hhalf (.inr (by decide)))]
    exact State.flag_haltHalf _ hhalf
  · rw [if_neg ha, if_neg (by rcases hn with hn | hn <;> simp [hn])]
    exact Traps.raise h.wf (h.unconf rfl) _ _ _ s

theorem trap_raises (h : s.issues g f (ctlSpec .unused .r true false true true) x b) (hm : f.mod = 0) :
    Does (.trap g f) s fun t =>
      (x.acting f = [] → OnlyGroup g { x with pc := x.pc + f.len } s t) ∧
      (x.acting f ≠ [] → Traps g x 0x0B f.imm (maskOf (x.acting f)) s t) := by
  have heq : exec (.trap g f) s = .next (if x.acting f = [] then (s.spendStep g).setGroup g { x with pc := x.pc + f.len }
      else (s.spendStep g).raise g x 0x0B f.imm (maskOf (x.acting f))) := by
    change execTrap g f s = _
    have hspec : { OpSpec.alu .unused .unused .unused .unused (f.mod == 0) with commit := true, imm := true } =
        ctlSpec .unused .r true false true true := by rw [hm]; rfl
    unfold execTrap
    dsimp only
    rw [hspec, State.issue_noDest h rfl rfl]
  refine ⟨_, heq, fun ha => ?_, fun ha => ?_⟩
  · rw [if_pos ha]
    exact OnlyGroup.setGroup h.wf _ s
  · rw [if_neg ha]
    exact Traps.raise h.wf (h.unconf rfl) _ _ _ s

end

/-- Settles O32: each instruction by its theorem above. That BRK leaves the pc behind itself on a halt, and the lanes of BREAK
and USER, are log entry 26. -/
theorem exitsBreaksAndTraps : Obligations.ExitsBreaksAndTraps := by
  unfold Obligations.ExitsBreaksAndTraps
  exact fun g f x b s => ⟨fun h hm => exit_exits h hm, fun h hm => brk_halts h hm, fun h hm => trap_raises h hm⟩

end Sys2Proof.Machine
end

section
/-! PROOFS. The local store: what registers hold after lanes write them, what bytes hold after lanes store them, what a block's
replacement leaves, and the three instructions that act on the window (R306, R309, R331, R332, R340 to R342). -/

namespace Sys2Proof.Machine

/-! ### Registers of a lane (R298, R301) -/

/-- A register written reads the value written, and XZ and the others as before. -/
theorem Group.reg_setReg (x : Group) {lane r l q : Nat} (v : Nat) (hr : r < 256) (hq : q < 256) :
    (x.setReg lane r v).reg l q = if l = lane ∧ q = r ∧ r ≠ 255 then v % 2 ^ 32 else x.reg l q := by
  unfold Group.setReg Group.reg
  by_cases h255 : r = 255
  · simp [h255]
  · by_cases hk : l = lane ∧ q = r
    · obtain ⟨rfl, rfl⟩ := hk
      have hlt : v % 2 ^ 32 < 2 ^ 32 := Nat.mod_lt _ (Nat.two_pow_pos 32)
      generalize v % 2 ^ 32 = w at hlt ⊢
      by_cases hv : w = 0
      · simp [h255, hv]
      · simpa [h255, hv] using hlt
    · have hne : l * 256 + q ≠ lane * 256 + r := by omega
      have hn : ¬(l = lane ∧ q = r ∧ r ≠ 255) := fun ⟨h, h', _⟩ => hk ⟨h, h'⟩
      rw [if_neg h255, if_neg hn]
      dsimp only
      split
      · rfl
      · split
        · rw [Map.getD_erase_ne _ _ hne]
        · rw [Map.getD_set_ne _ _ _ hne]

theorem Group.setReg_frame (x : Group) (lane r v : Nat) : ∃ t, x.setReg lane r v = { x with regs := t } := by
  unfold Group.setReg
  split
  · exact ⟨_, rfl⟩
  · exact ⟨_, rfl⟩

theorem Group.setRegs_frame (x : Group) (lane r v k : Nat) : ∃ t, x.setRegs lane r v k = { x with regs := t } := by
  induction k generalizing x r v with
  | zero => exact ⟨_, rfl⟩
  | succ k ih =>
    unfold Group.setRegs
    split
    · exact ⟨_, rfl⟩
    · obtain ⟨t, ht⟩ := x.setReg_frame lane r v
      rw [ht]
      exact ih _ _ _

theorem Group.reg_setRegs_ne (x : Group) {lane r l q : Nat} (v k : Nat) (hr : r < 256) (hq : q < 256)
    (h : l ≠ lane ∨ q < r ∨ r + k ≤ q) : (x.setRegs lane r v k).reg l q = x.reg l q := by
  induction k generalizing x r v with
  | zero => rfl
  | succ k ih =>
    unfold Group.setRegs
    split
    · rfl
    · rw [ih _ _ (by omega) (by omega), Group.reg_setReg _ _ hr hq, if_neg (by omega)]

theorem Group.regs'_congr {x y : Group} {l r k : Nat} (h : ∀ q, r ≤ q → q < r + k → y.reg l q = x.reg l q) :
    y.regs' l r k = x.regs' l r k := by
  induction k generalizing r with
  | zero => rfl
  | succ k ih => rw [Group.regs', Group.regs', h r (Nat.le_refl r) (by omega), ih fun q hq hq' => h q (by omega) (by omega)]

/-- Consecutive registers written read as the number written. -/
theorem Group.regs'_setRegs (x : Group) {lane r k : Nat} (v : Nat) (hr : r + k ≤ 255) :
    (x.setRegs lane r v k).regs' lane r k = v % 2 ^ (32 * k) := by
  induction k generalizing x r v with
  | zero => simp [Group.regs', Nat.mod_one]
  | succ k ih =>
    have h255 : r ≠ 255 := by omega
    unfold Group.setRegs Group.regs'
    rw [if_neg h255, if_neg h255, Group.reg_setRegs_ne _ _ _ (by omega) (by omega) (by omega),
      Group.reg_setReg _ _ (by omega) (by omega), if_pos ⟨rfl, rfl, h255⟩, ih _ _ (by omega),
      show 32 * (k + 1) = 32 + 32 * k by omega, Nat.pow_add, Nat.mod_mul]

/-! ### Registers that lanes write -/

section
variable {lanes : List Nat} {d k : Nat} (v : Nat → Nat)

theorem Group.foldl_setRegs_frame (x : Group) : ∃ t, lanes.foldl (fun y l => y.setRegs l d (v l) k) x = { x with regs := t } :=
  List.foldlRecOn (motive := fun y : Group => ∃ t, y = { x with regs := t }) lanes _ ⟨_, rfl⟩ fun y ⟨t, hy⟩ l _ => by
    obtain ⟨u, hu⟩ := y.setRegs_frame l d (v l) k
    exact ⟨u, by rw [hu, hy]⟩

theorem Group.reg_foldl_setRegs_ne (x : Group) {l q : Nat} (hd : d < 256) (hq : q < 256) (h : l ∉ lanes ∨ q < d ∨ d + k ≤ q) :
    (lanes.foldl (fun y l => y.setRegs l d (v l) k) x).reg l q = x.reg l q :=
  List.foldlRecOn (motive := fun y : Group => y.reg l q = x.reg l q) lanes _ rfl fun y hy a ha => by
    have hne : l ≠ a ∨ q < d ∨ d + k ≤ q := h.imp_left fun hl e => hl (e ▸ ha)
    rw [Group.reg_setRegs_ne _ _ _ hd hq hne, hy]

theorem Group.regs'_foldl_setRegs (x : Group) {l : Nat} (hd : d + k ≤ 255) (hn : lanes.Nodup) (hl : l ∈ lanes) :
    (lanes.foldl (fun y l => y.setRegs l d (v l) k) x).regs' l d k = v l % 2 ^ (32 * k) := by
  induction lanes generalizing x with
  | nil => simp at hl
  | cons a lanes ih =>
    obtain ⟨ha, hn⟩ := List.nodup_cons.mp hn
    rw [List.foldl_cons]
    rcases List.mem_cons.mp hl with rfl | hl
    · rw [Group.regs'_congr fun q _ _ => Group.reg_foldl_setRegs_ne v _ (by omega) (by omega) (.inl ha), Group.regs'_setRegs _ _ hd]
    · exact ih _ hn hl

end

/-! ### Bytes that lanes store (R331) -/

theorem Mem.toNat_read_writeLE (m : Mem) {a k b : Nat} (v : Nat) (h : a ≤ b) (h' : b < a + k) :
    (Mem.read (Mem.writeLE m a k v) b).toNat = v / 256 ^ (b - a) % 256 := by
  induction k generalizing m a v with
  | zero => omega
  | succ k ih =>
    change (Mem.read (Mem.writeLE (Mem.write m a (BitVec.ofNat 8 (v % 256))) (a + 1) k (v / 256)) b).toNat = _
    by_cases hb : b = a
    · subst hb
      rw [Mem.read_writeLE_ne _ _ _ _ (by omega), Mem.read_write_self]
      simp
    · rw [ih _ _ (by omega) (by omega), Nat.div_div_eq_div_mul, show b - a = b - (a + 1) + 1 by omega, Nat.pow_succ,
        Nat.mul_comm (256 ^ _) 256]

/-- Lanes that store in rising order lay their bytes over the memory, the highest lane on top. -/
theorem overlays_foldl_writeLE {lanes : List Nat} (addr val : Nat → Nat) (n : Nat) (m : Mem) (hp : lanes.Pairwise (· < ·)) :
    Overlays lanes addr val n (fun a => (Mem.read m a).toNat)
      (fun a => (Mem.read (lanes.foldl (fun m l => Mem.writeLE m (addr l) n (val l)) m) a).toNat) := by
  induction lanes using appendInduction with
  | nil => exact fun a => ⟨fun l hl => by simp at hl, fun _ => rfl⟩
  | append_singleton lanes b ih =>
    obtain ⟨hp, -, hlt⟩ := List.pairwise_append.mp hp
    have hmem : b ∈ lanes ++ [b] := by simp
    intro a
    obtain ⟨htop, hold⟩ := ih hp a
    simp only [List.foldl_append, List.foldl_cons, List.foldl_nil]
    constructor
    · intro l hl hlo hhi hno
      rcases List.mem_append.mp hl with hl | hl
      · have hb := hno b hmem (hlt l hl b (by simp))
        rw [Mem.read_writeLE_ne _ _ _ _ hb]
        exact htop l hl hlo hhi fun h hh => hno h (List.mem_append_left _ hh)
      · obtain rfl := List.mem_singleton.mp hl
        exact Mem.toNat_read_writeLE _ _ hlo hhi
    · intro hno
      rw [Mem.read_writeLE_ne _ _ _ _ (hno b hmem)]
      exact hold fun l hl => hno l (List.mem_append_left _ hl)

/-! ### A block replaced -/

@[simp] theorem State.group_setBlk (s : State) (g h : GroupRef) (k : Nat) (b : Blk) : (s.setBlk g k b).group? h = s.group? h := by
  unfold State.group? State.setBlk
  simp only [State.core_setCore]
  split
  · next e => simp only [State.core, e]
  · rfl

@[simp] theorem State.blk_setBlk_self (s : State) (g : GroupRef) (k : Nat) (b : Blk) : (s.setBlk g k b).blk? g k = some b := by
  unfold State.blk? State.setBlk
  simp [State.core_setCore]

theorem State.blk_setBlk_ne (s : State) {g h : GroupRef} {j k : Nat} (b : Blk) (hg : g.core < 128) (hh : h.core < 128)
    (hne : h.half ≠ g.half ∨ h.core ≠ g.core ∨ j ≠ k) : (s.setBlk g k b).blk? h j = s.blk? h j := by
  unfold State.blk? State.setBlk
  simp only [State.core_setCore]
  split
  · next e =>
    obtain ⟨ehalf, ecore⟩ := coreKey_inj hh hg e
    have hj : j ≠ k := by rcases hne with hn | hn | hn <;> simp_all
    rw [Map.get?_set_ne _ _ hj, ehalf, ecore]
  · rfl

/-- A group that issues is now `y` and its block `b`, and the step's grant is spent. -/
theorem OnlyBlock.setBlk_setGroup {g : GroupRef} (hg : g.wf = true) (y : Group) (k : Nat) (b : Blk) (s : State) :
    OnlyBlock g y k b s (((s.spendStep g).setBlk g k b).setGroup g y) := by
  have hc : g.core < 128 := by simp [GroupRef.wf] at hg; omega
  refine ⟨by simp, by simp, fun h hh hne => ?_, fun h j hh hne => ?_, rfl⟩
  · rw [State.group_setGroup_ne _ _ _ _ hc hh hne, State.group_setBlk]; rfl
  · rw [State.blk_setGroup, State.blk_setBlk_ne _ _ hc hh hne]; rfl

/-! ### The front end of a local-store instruction (R306, R340, R341) -/

section
variable {s : State} {g : GroupRef} {f : CoreFields} {p : OpSpec} {x : Group} {b : Blk}

/-- An instruction that issues acts on the group, its destination's rows saved where a load is unconfirmed (R519). -/
theorem State.issue_rows (h : s.issues g f p x b) (hl : p.load = false) :
    ∃ rows, (p.commit = true → rows = x.savedRows) ∧
      ∀ k : State → Blk → Group → State, s.issue g f p [] k = k (s.spendStep g) b { x with savedRows := rows } := by
  by_cases hu : x.unconf.isEmpty = true
  · exact ⟨x.savedRows, fun _ => rfl, fun k => by rw [State.issue_eq h [] (by simp [hl]), if_pos hu]⟩
  · refine ⟨x.savedRows ++ (p.d.regList f.d).filter fun r => !x.savedRows.contains r,
      fun hc => absurd (by rw [h.unconf hc]; rfl) hu, fun k => ?_⟩
    rw [State.issue_eq h [] (by simp [hl]), if_neg hu]

/-- Replays of the banks that a local-store instruction counts. -/
def Group.replays (x : Group) (f : CoreFields) (len : Nat) (atomic : Bool) : Nat :=
  if atomic then atomsReplays ((x.acting f).map (x.lsAddr f)) else lsReplays ((x.acting f).map fun l => (x.lsAddr f l, len))

/-- Every acting lane's window address is aligned to an access of `n` bytes that lies inside the window. -/
def Group.inWindow (x : Group) (f : CoreFields) (b : Blk) (n : Nat) : Prop :=
  ∀ l ∈ x.acting f, x.lsAddr f l % n = 0 ∧ x.lsAddr f l + n ≤ b.window

/-- With every acting lane aligned and inside the window the replays are counted and the instruction has its effect. -/
theorem State.lsOp_eq (h : s.issues g f p x b) (hl : p.load = false) {len : Nat} (atomic : Bool)
    (hw : x.inWindow f b len) :
    ∃ rows, (p.commit = true → rows = x.savedRows) ∧ ∀ k : State → Blk → Group → List Nat → State,
      s.lsOp g f p len atomic k =
        k ((s.count (R.corLsReplay g.half) (x.replays f len atomic)).spendStep g) b { x with savedRows := rows } (x.acting f) := by
  obtain ⟨rows, hrows, hissue⟩ := State.issue_rows h hl
  have hbad : (x.acting f).filter (fun l => x.lsAddr f l % len != 0) = [] :=
    List.filter_eq_nil_iff.mpr fun l ml => by simp [(hw l ml).1]
  have hout : (x.acting f).filter (fun l => decide (b.window < x.lsAddr f l + len)) = [] :=
    List.filter_eq_nil_iff.mpr fun l ml => by simpa using (hw l ml).2
  refine ⟨rows, hrows, fun k => ?_⟩
  unfold State.lsOp
  rw [hissue]
  have hacting : Group.acting { x with savedRows := rows } f = x.acting f := rfl
  have haddr : Group.lsAddr { x with savedRows := rows } f = x.lsAddr f := rfl
  simp only [hacting, haddr, hbad, hout, bne_self_eq_false, Bool.false_eq_true, if_false, State.count_spendStep,
    Group.replays]

end

/-! ### Sizes (R300) -/

theorem getD_of_lt {l : List Nat} {c : Nat} (h : c < l.length) (v w : Nat) : l.getD c v = l.getD c w := by
  rw [List.getD_eq_getElem?_getD, List.getD_eq_getElem?_getD, List.getElem?_eq_getElem h, Option.getD_some, Option.getD_some]

theorem getD_sizeBytes {c : Nat} (h : c < 7) (v : Nat) : [1, 1, 2, 2, 4, 8, 16].getD c v = sizeBytes c :=
  getD_of_lt (l := [1, 1, 2, 2, 4, 8, 16]) h v 4

theorem getD_sizeRegs {c : Nat} (h : c < 7) (v : Nat) : [1, 1, 1, 1, 1, 2, 4].getD c v = sizeRegs c :=
  getD_of_lt (l := [1, 1, 1, 1, 1, 2, 4]) h v 1

theorem bits_size {m : Nat} (h : m < 7) : bits m 2 0 = m := by unfold bits; omega

/-! ### LDS and STS (R301, R306, R331) -/

section
variable {s : State} {g : GroupRef} {f : CoreFields} {x : Group} {b : Blk}

theorem Group.regs_step (y : Group) (p : OpSpec) (f : CoreFields) (w : Bool) : (y.step p f w).regs = y.regs := by
  unfold Group.step
  split
  · rfl
  · rfl

/-- A group whose registers and saved rows alone were written, stepped behind its instruction (R315). -/
theorem Group.after_step {x y : Group} {regs : Table Nat} {rows : List Nat} (hy : y = { x with regs := regs, savedRows := rows })
    (p : OpSpec) (f : CoreFields) :
    x.after (y.step p f (x.readsPending p f)) p f ∧ (y.step p f (x.readsPending p f)).preds = x.preds := by
  subst hy
  unfold Group.after Group.step
  cases x.readsPending p f with
  | false => exact ⟨rfl, rfl⟩
  | true => exact ⟨rfl, rfl⟩

theorem CoreFields.d_lt {f : CoreFields} (h : f.wf = true) : f.d < 256 := by
  simp [CoreFields.wf] at h; omega

theorem Group.reg_of_regs {x y : Group} (h : y.regs = x.regs) (l r : Nat) : y.reg l r = x.reg l r := by
  unfold Group.reg; rw [h]

/-- A group whose acting lanes have written their values, stepped behind its instruction. -/
theorem Writes.setRegs (hg : g.wf = true) (hf : f.wf = true) (p : OpSpec) (x : Group) (rows : List Nat) (k : Nat) (v : Nat → Nat)
    (s : State) : Writes g f p x k (fun l => v l % 2 ^ (32 * k)) s ((s.spendStep g).setGroup g
      (((x.acting f).foldl (fun (y : Group) l => y.setRegs l f.d (v l) k) { x with savedRows := rows }).step p f
        (x.readsPending p f))) := by
  have hd := CoreFields.d_lt hf
  have hne := fun l q => Group.reg_foldl_setRegs_ne (lanes := x.acting f) (k := k) v { x with savedRows := rows } (l := l) (q := q) hd
  have hself := fun l hk => Group.regs'_foldl_setRegs (d := f.d) (k := k) v { x with savedRows := rows } (l := l) hk (x.acting_nodup f)
  obtain ⟨regs, hy⟩ := Group.foldl_setRegs_frame (lanes := x.acting f) (d := f.d) (k := k) v { x with savedRows := rows }
  generalize (x.acting f).foldl (fun (y : Group) l => y.setRegs l f.d (v l) k) { x with savedRows := rows } = y at hne hself hy ⊢
  obtain ⟨hafter, hpreds⟩ := Group.after_step (x := x) hy p f
  refine ⟨_, OnlyGroup.setGroup hg _ s, hafter, hpreds, fun l hl hk => ?_, fun l q hq hl => ?_⟩
  · rw [Group.regs'_congr fun q _ _ => Group.reg_of_regs (y.regs_step p f _) l q]
    exact hself l hk hl
  · rw [Group.reg_of_regs (y.regs_step p f _)]
    exact hne l q hq hl

/-- The value of a load, widened to its registers (R301). -/
def lsValue (mod v : Nat) : Nat := if mod = 1 ∨ mod = 3 then unsigned 32 (signed (8 * sizeBytes mod) v) else v

theorem widen_eq_lsValue (mod v : Nat) : widen (sizeBytes mod) (mod == 1 || mod == 3) v = lsValue mod v := by
  simp [widen, lsValue]

/-- What the words of LDS and of STS may hold. -/
def ldsSpec (f : CoreFields) : OpSpec := memSpec (.regs (sizeRegs f.mod)) .unused .unused 1 true false false
def stsSpec (f : CoreFields) : OpSpec := memSpec .unused (.regs (sizeRegs f.mod)) .unused 1 true true false

theorem lds_eq (h : s.issues g f (ldsSpec f) x b) (hm : f.mod < 7)
    (hw : x.inWindow f b (sizeBytes f.mod)) :
    ∃ rows, exec (.lds g f) s = .next (((s.count (R.corLsReplay g.half) (x.replays f (sizeBytes f.mod) false)).spendStep g).setGroup g
      (((x.acting f).foldl (fun (y : Group) l => y.setRegs l f.d (lsValue f.mod (Mem.readLE b.ls (x.lsAddr f l) (sizeBytes f.mod)))
          (sizeRegs f.mod)) { x with savedRows := rows }).step (ldsSpec f) f (x.readsPending (ldsSpec f) f))) := by
  obtain ⟨rows, -, heq⟩ := State.lsOp_eq h rfl false hw
  unfold ldsSpec at heq ⊢
  refine ⟨rows, ?_⟩
  change execLds g f s = _
  unfold execLds
  simp only [bits_size hm, hm, decide_true, heq, widen_eq_lsValue]
  rfl

theorem lds_loads (h : s.issues g f (ldsSpec f) x b) (hm : f.mod < 7)
    (hw : x.inWindow f b (sizeBytes f.mod)) :
    Does (.lds g f) s (Writes g f (ldsSpec f) x (sizeRegs f.mod)
      (fun l => lsValue f.mod (Mem.readLE b.ls (x.lsAddr f l) (sizeBytes f.mod)) % 2 ^ (32 * sizeRegs f.mod))
      (s.count (R.corLsReplay g.half) (x.replays f (sizeBytes f.mod) false))) := by
  obtain ⟨rows, heq⟩ := lds_eq h hm hw
  exact ⟨_, heq, Writes.setRegs h.wf h.fields_wf _ x rows _ _ _⟩

theorem sts_eq (h : s.issues g f (stsSpec f) x b) (hm : f.mod < 7)
    (hw : x.inWindow f b (sizeBytes f.mod)) :
    exec (.sts g f) s = .next (
      let u := (s.count (R.corLsReplay g.half) (x.replays f (sizeBytes f.mod) false)).spendStep g
      let ls := (x.acting f).foldl (fun m l =>
        Mem.writeLE m (x.lsAddr f l) (sizeBytes f.mod) (x.regs' l f.b (sizeRegs f.mod))) b.ls
      (u.setBlk g x.block { b with ls := ls }).setGroup g { x with pc := x.pc + f.len }) := by
  obtain ⟨rows, hrows, heq⟩ := State.lsOp_eq h rfl false hw
  obtain rfl := hrows rfl
  unfold stsSpec at heq
  change execSts g f s = _
  unfold execSts
  simp only [bits_size hm, hm, decide_true, heq]
  rfl

theorem sts_stores (h : s.issues g f (stsSpec f) x b) (hm : f.mod < 7)
    (hw : x.inWindow f b (sizeBytes f.mod)) :
    Does (.sts g f) s fun t => ∃ ls,
      OnlyBlock g { x with pc := x.pc + f.len } x.block { b with ls := ls }
        (s.count (R.corLsReplay g.half) (x.replays f (sizeBytes f.mod) false)) t ∧
      Overlays (x.acting f) (x.lsAddr f) (fun l => x.regs' l f.b (sizeRegs f.mod)) (sizeBytes f.mod)
        (fun a => (Mem.read b.ls a).toNat) (fun a => (Mem.read ls a).toNat) :=
  ⟨_, sts_eq h hm hw, _, OnlyBlock.setBlk_setGroup h.wf _ _ _ _, overlays_foldl_writeLE _ _ _ _ (x.acting_pairwise f)⟩

/-! ### ATOMS (R308, R309, R332) -/

/-- One lane of an ATOMS: the window and the registers after it. -/
def Group.atomsLane (x : Group) (f : CoreFields) (acc : Mem × Group) (l : Nat) : Mem × Group :=
  (Mem.writeLE acc.1 (x.lsAddr f l) 4
      (atomResult (bits f.mod 3 0) 4 (bit f.mod 5) (Mem.readLE acc.1 (x.lsAddr f l) 4) (x.reg l f.b) (x.reg l f.c)),
    acc.2.setReg l f.d (Mem.readLE acc.1 (x.lsAddr f l) 4))

theorem Group.foldl_atomsLane_frame (x : Group) (f : CoreFields) (lanes : List Nat) (ls : Mem) :
    ∃ t, (lanes.foldl (x.atomsLane f) (ls, x)).2 = { x with regs := t } :=
  List.foldlRecOn (motive := fun a : Mem × Group => ∃ t, a.2 = { x with regs := t }) lanes _ ⟨_, rfl⟩ fun a ⟨t, ha⟩ l _ => by
    obtain ⟨u, hu⟩ := a.2.setReg_frame l f.d (Mem.readLE a.1 (x.lsAddr f l) 4)
    exact ⟨u, by rw [Group.atomsLane, hu, ha]⟩

theorem Group.reg_foldl_atomsLane_ne (x : Group) {f : CoreFields} (hd : f.d < 256) {lanes : List Nat} (acc : Mem × Group) {l r : Nat}
    (hr : r < 256) (h : l ∉ lanes ∨ r ≠ f.d) : (lanes.foldl (x.atomsLane f) acc).2.reg l r = acc.2.reg l r :=
  List.foldlRecOn (motive := fun a : Mem × Group => a.2.reg l r = acc.2.reg l r) lanes _ rfl fun a ha k hk => by
    have hne : ¬(l = k ∧ r = f.d ∧ f.d ≠ 255) := fun ⟨e, e', _⟩ => h.elim (fun hl => hl (e ▸ hk)) fun hr => hr e'
    rw [Group.atomsLane, Group.reg_setReg _ _ hd hr, if_neg hne, ha]

/-- The window before lane number `i` of an ATOMS. -/
def Group.atomsMem (x : Group) (f : CoreFields) (ls : Mem) (i : Nat) : Mem :=
  (((x.acting f).take i).foldl (x.atomsLane f) (ls, x)).1

theorem leVal_lt (l : List Nat) : leVal l < 256 ^ l.length := by
  induction l with
  | nil => simp [leVal]
  | cons a l ih => rw [leVal, List.length_cons, Nat.pow_succ]; omega

theorem Mem.readBytes_length (m : Mem) (a k : Nat) : (Mem.readBytes m a k).length = k := by
  induction k generalizing a with
  | zero => rfl
  | succ k ih => simp [Mem.readBytes, ih]

theorem Mem.readLE_lt (m : Mem) (a k : Nat) : Mem.readLE m a k < 256 ^ k := by
  have h := leVal_lt (Mem.readBytes m a k)
  rwa [Mem.readBytes_length] at h

/-- The operations of ATOMS, by number. -/
theorem atomResult_eq {o : Nat} (ho : o < 8) (uns : Bool) (old v cmp : Nat) :
    let lt : Bool := if uns then decide (old ≤ v) else decide (signed 32 old ≤ signed 32 v)
    let gt : Bool := if uns then decide (v ≤ old) else decide (signed 32 v ≤ signed 32 old)
    atomResult o 4 uns old v cmp = [(old + v) % 2 ^ 32, if lt then old else v, if gt then old else v, old &&& v, old ||| v, old ^^^ v, v,
      if old = cmp then v else old].getD o 0 := by
  intro lt gt
  have hmin : minBy 32 uns old v = if lt then old else v := by
    cases uns with
    | false => simp [minBy, lt]
    | true => simp [minBy, lt, Nat.min_def]
  have hmax : maxBy 32 uns old v = if gt then old else v := by
    cases uns with
    | false => simp [maxBy, gt]
    | true => simp [maxBy, gt, Nat.max_comm old v, Nat.max_def]
  rw [← hmin, ← hmax]
  have hcases : o = 0 ∨ o = 1 ∨ o = 2 ∨ o = 3 ∨ o = 4 ∨ o = 5 ∨ o = 6 ∨ o = 7 := by omega
  rcases hcases with rfl | rfl | rfl | rfl | rfl | rfl | rfl | rfl <;> rfl

end

section
variable {s : State} {g : GroupRef} {f : CoreFields} {x : Group} {b : Blk}

theorem atomsModOk (ho : bits f.mod 3 0 < 8) (h76 : bits f.mod 7 6 = 0) (h4 : bit f.mod 4 = false)
    (h5 : bit f.mod 5 = true → bits f.mod 3 0 = 1 ∨ bits f.mod 3 0 = 2) :
    (atomModOk f.mod && decide (bits f.mod 3 0 < 8) && !bit f.mod 4 && !bit f.mod 6) = true := by
  have h6 : bit f.mod 6 = false := by simp [bits, bit] at h76 ⊢; omega
  have h7 : bit f.mod 7 = false := by simp [bits, bit] at h76 ⊢; omega
  have hu : (!bit f.mod 5 || bits f.mod 3 0 == 1 || bits f.mod 3 0 == 2) = true := by
    cases hb : bit f.mod 5 with
    | false => rfl
    | true => rcases h5 hb with e | e <;> simp [e]
  simp [atomModOk, h4, h6, h7, ho, hu, Nat.lt_succ_of_lt ho]

theorem atoms_eq (ho : bits f.mod 3 0 < 8) (h76 : bits f.mod 7 6 = 0) (h4 : bit f.mod 4 = false)
    (h5 : bit f.mod 5 = true → bits f.mod 3 0 = 1 ∨ bits f.mod 3 0 = 2) (h : s.issues g f (atomSpec f 1 1 true) x b)
    (hw : x.inWindow f b 4) :
    exec (.atoms g f) s = .next (
      let r := (x.acting f).foldl (x.atomsLane f) (b.ls, x)
      (((s.count (R.corLsReplay g.half) (x.replays f 4 true)).spendStep g).setBlk g x.block { b with ls := r.1 }).setGroup g
        { r.2 with pc := r.2.pc + f.len }) := by
  obtain ⟨rows, hrows, heq⟩ := State.lsOp_eq h rfl true hw
  obtain rfl := hrows rfl
  change execAtoms g f s = _
  unfold execAtoms
  simp only [atomsModOk ho h76 h4 h5, heq]
  rfl

theorem atoms_acts (ho : bits f.mod 3 0 < 8) (h76 : bits f.mod 7 6 = 0) (h4 : bit f.mod 4 = false)
    (h5 : bit f.mod 5 = true → bits f.mod 3 0 = 1 ∨ bits f.mod 3 0 = 2) (h : s.issues g f (atomSpec f 1 1 true) x b)
    (hw : x.inWindow f b 4) :
    Does (.atoms g f) s fun t => ∃ (y : Group) (ls : Mem) (m : Nat → Mem),
      OnlyBlock g y x.block { b with ls := ls } (s.count (R.corLsReplay g.half) (x.replays f 4 true)) t ∧
      y = { x with regs := y.regs, pc := x.pc + f.len } ∧ m 0 = b.ls ∧ m (x.acting f).length = ls ∧
      (∀ l r, r < 256 → (l ∉ x.acting f ∨ r ≠ f.d) → y.reg l r = x.reg l r) ∧
      ∀ i l, (x.acting f)[i]? = some l →
        (f.d < 255 → y.reg l f.d = Mem.readLE (m i) (x.lsAddr f l) 4) ∧
        m (i + 1) = Mem.writeLE (m i) (x.lsAddr f l) 4
          (atomResult (bits f.mod 3 0) 4 (bit f.mod 5) (Mem.readLE (m i) (x.lsAddr f l) 4) (x.reg l f.b) (x.reg l f.c)) := by
  have hd : f.d < 256 := CoreFields.d_lt h.fields_wf
  refine ⟨_, atoms_eq ho h76 h4 h5 h hw, _, _, x.atomsMem f b.ls, OnlyBlock.setBlk_setGroup h.wf _ _ _ _, ?_, rfl, ?_,
    fun l r hr hl => ?_, fun i l hi => ?_⟩
  · obtain ⟨t, ht⟩ := x.foldl_atomsLane_frame f (x.acting f) b.ls
    rw [ht]
  · rw [Group.atomsMem, List.take_length]
  · exact x.reg_foldl_atomsLane_ne hd (b.ls, x) hr hl
  · obtain ⟨hlen, hl⟩ := List.getElem?_eq_some_iff.mp hi
    have htake : (x.acting f).take (i + 1) = (x.acting f).take i ++ [l] := by rw [List.take_add_one, hi]; rfl
    have hsplit : x.acting f = (x.acting f).take i ++ l :: (x.acting f).drop (i + 1) := by
      rw [← hl, ← List.drop_eq_getElem_cons hlen, List.take_append_drop]
    constructor
    · intro hd255
      have hnot : l ∉ (x.acting f).drop (i + 1) := by
        have hn := x.acting_nodup f
        rw [hsplit, List.nodup_append] at hn
        obtain ⟨-, hn, -⟩ := hn
        exact (List.nodup_cons.mp hn).1
      change ((x.acting f).foldl (x.atomsLane f) (b.ls, x)).2.reg l f.d = _
      conv => lhs; rw [hsplit, List.foldl_append, List.foldl_cons]
      rw [x.reg_foldl_atomsLane_ne hd _ hd (.inl hnot), Group.atomsLane, Group.reg_setReg _ _ hd hd, if_pos ⟨rfl, rfl, by omega⟩]
      exact Nat.mod_eq_of_lt (Mem.readLE_lt _ _ 4)
    · rw [Group.atomsMem, htake, List.foldl_append]
      rfl

end

/-- Settles O35: LDS and STS by the size that their mod gives, ATOMS lane by lane. -/
theorem localStoreAccess : Obligations.LocalStoreAccess := by
  unfold Obligations.LocalStoreAccess
  intro g f x b s
  refine ⟨?_, ?_, ?_⟩
  · intro n k h hm hw
    have hn : n = sizeBytes f.mod := by simp only [n, bits_size hm, getD_sizeBytes hm]
    have hk : k = sizeRegs f.mod := by simp only [k, bits_size hm, getD_sizeRegs hm]
    clear_value n k
    subst hn hk
    exact lds_loads h hm hw
  · intro n k h hm hw
    have hn : n = sizeBytes f.mod := by simp only [n, bits_size hm, getD_sizeBytes hm]
    have hk : k = sizeRegs f.mod := by simp only [k, bits_size hm, getD_sizeRegs hm]
    clear_value n k
    subst hn hk
    exact sts_stores h hm hw
  · rintro o rfl ho h76 h4 h5 h hw
    obtain ⟨t, ht, y, ls, m, honly, hy, h0, hlen, hne, hlane⟩ := atoms_acts ho h76 h4 h5 h hw
    refine ⟨t, ht, y, ls, m, honly, hy, h0, hlen, hne, fun i l hi => ?_⟩
    obtain ⟨hold, hmem⟩ := hlane i l hi
    rw [atomResult_eq ho] at hmem
    exact ⟨hold, hmem⟩

end Sys2Proof.Machine
end

section
/-! PROOFS. The end of a block, and the answers to confirmations: what the end frees, what an answer's arrival leaves of the
cores, of the tables of loads and confirmations and of the half's count of denials, and what becomes of a group whose last
unconfirmed load is confirmed or denied (R274, R314, R319, R377, R517 to R519, R522). -/

namespace Sys2Proof.Machine

/-! ### The end of a block (R274, R377, R614) -/

theorem State.core_of_cor {s t : State} (h : t.cor = s.cor) (half core : Nat) : t.core half core = s.core half core := by
  unfold State.core; rw [h]

theorem State.group_of_cor {s t : State} (h : t.cor = s.cor) (g : GroupRef) : t.group? g = s.group? g := by
  unfold State.group?; rw [State.core_of_cor h]

theorem State.releaseDraw_keeps (s : State) (h unit : Nat) :
    (s.releaseDraw h unit).cor = s.cor ∧ (s.releaseDraw h unit).mem = s.mem := by
  unfold State.releaseDraw State.setDraws
  exact ⟨rfl, rfl⟩

/-- The core without block `b` and its groups. -/
def Core.without (c : Core) (b : Nat) : Core :=
  { c with groups := c.groups.filter fun q => q.2.block != b, blocks := Map.erase c.blocks b }

/-- The stores of some groups that are still to be performed count for no group any more. -/
def State.leaveStores (s : State) (half core : Nat) (gs : List (Nat × Group)) : State :=
  if gs.all (fun q => q.2.storesOut == 0) then s
  else match s.physOf half core with | some p => s.orphanStores (coreKey half p) (gs.map (·.1)) | none => s

theorem State.leaveStores_eq (s : State) (half core : Nat) (gs : List (Nat × Group)) :
    ∃ l, s.leaveStores half core gs = { s with mem := { s.mem with l1 := l } } := by
  unfold State.leaveStores
  split
  · exact ⟨_, rfl⟩
  · split
    · exact ⟨_, rfl⟩
    · exact ⟨_, rfl⟩

/-- The state without block `b` and its groups, their stores and the draw of a core that is then empty. -/
def State.blockEnded (s : State) (half core b : Nat) : State :=
  let t := (s.setCore half core ((s.core half core).without b)).leaveStores half core (s.blockGroups half core b)
  if ((s.core half core).without b).blocks = [] then t.releaseDraw half core else t

section
variable {half core b : Nat} {x : Blk} {s : State}

theorem State.blockEnded_cor (s : State) (half core b : Nat) :
    (s.blockEnded half core b).cor = (s.setCore half core ((s.core half core).without b)).cor := by
  obtain ⟨l, hl⟩ := (s.setCore half core ((s.core half core).without b)).leaveStores_eq half core (s.blockGroups half core b)
  unfold State.blockEnded
  dsimp only
  rw [hl]
  split
  · rw [(State.releaseDraw_keeps _ _ _).1]
  · rfl

theorem State.core_blockEnded (s : State) (half core b h c : Nat) : (s.blockEnded half core b).core h c =
    if coreKey h c = coreKey half core then (s.core half core).without b else s.core h c := by
  rw [State.core_of_cor (s.blockEnded_cor half core b), State.core_setCore]

/-- With no store left to perform the memory system stands. -/
theorem State.blockEnded_mem (h0 : ∀ q ∈ s.blockGroups half core b, q.2.storesOut = 0) : (s.blockEnded half core b).mem = s.mem := by
  unfold State.blockEnded State.leaveStores
  rw [if_pos (List.all_eq_true.mpr fun q hq => by simp [h0 q hq])]
  dsimp only
  split
  · rw [(State.releaseDraw_keeps _ _ _).2]; rfl
  · rfl

/-- While another block stays on the core nothing but the cores and the L1s differs. -/
theorem State.blockEnded_frame (hb : ((s.core half core).without b).blocks ≠ []) : s.blockEnded half core b =
    { s with cor := (s.blockEnded half core b).cor, mem := { s.mem with l1 := (s.blockEnded half core b).mem.l1 } } := by
  obtain ⟨l, hl⟩ := (s.setCore half core ((s.core half core).without b)).leaveStores_eq half core (s.blockGroups half core b)
  have heq : s.blockEnded half core b = { s.setCore half core ((s.core half core).without b) with mem := { s.mem with l1 := l } } := by
    rw [State.blockEnded, if_neg hb]
    exact hl
  rw [heq]
  rfl

theorem blockEnd_eq (hu : s.unitsRun = true) (hx : Map.get? (s.core half core).blocks b = some x)
    (hd : ∀ q ∈ s.blockGroups half core b, q.2.done = true ∧ q.2.tilesOut = 0 ∧ q.2.unconf = []) :
    exec (.blockEnd half core b) s = .next (s.blockEnded half core b) := by
  have hall : ((s.blockGroups half core b).all fun q => q.2.done && q.2.tilesOut == 0 && q.2.unconf.isEmpty) = true := by
    refine List.all_eq_true.mpr fun q hq => ?_
    obtain ⟨hdone, htiles, hunconf⟩ := hd q hq
    simp [hdone, htiles, hunconf]
  change execBlockEnd half core b s = _
  unfold execBlockEnd
  rw [State.whenRun_eq hu]
  dsimp only
  rw [hx]
  dsimp only
  rw [if_pos hall]
  rfl

theorem blockEnd_frees (hu : s.unitsRun = true) (hx : Map.get? (s.core half core).blocks b = some x)
    (hd : ∀ q ∈ s.blockGroups half core b, q.2.done = true ∧ q.2.tilesOut = 0 ∧ q.2.unconf = []) :
    Does (.blockEnd half core b) s fun t =>
      (t.core half core).groups = (s.core half core).groups.filter (fun q => q.2.block != b) ∧
      Map.get? (t.core half core).blocks b = none ∧
      (∀ j, j ≠ b → Map.get? (t.core half core).blocks j = Map.get? (s.core half core).blocks j) ∧
      (∀ h c, coreKey h c ≠ coreKey half core → t.core h c = s.core h c) ∧
      ((t.core half core).blocks ≠ [] → t = { s with cor := t.cor, mem := { s.mem with l1 := t.mem.l1 } }) ∧
      ((∀ q ∈ s.blockGroups half core b, q.2.storesOut = 0) → t.mem = s.mem) := by
  have hself : (s.blockEnded half core b).core half core = (s.core half core).without b := by
    rw [State.core_blockEnded, if_pos rfl]
  refine ⟨_, blockEnd_eq hu hx hd, congrArg Core.groups hself, ?_, fun j hj => ?_, fun h c hn => ?_, fun hb => ?_,
    State.blockEnded_mem⟩
  · rw [hself]
    exact Map.get?_erase_self _ _
  · rw [hself]
    exact Map.get?_erase_ne _ hj
  · rw [State.core_blockEnded, if_neg hn]
  · rw [hself] at hb
    exact State.blockEnded_frame hb

end

/-! ### Dies and spans (R71, R414) -/

theorem colFar_le (col die : Nat) : colFar col die ≤ 8 := by
  have hends : (colEnds col).1 ≤ 8 ∧ (colEnds col).2 ≤ 8 := by
    by_cases hc : col < 14
    · have hall : ∀ c < 14, (colEnds c).1 ≤ 8 ∧ (colEnds c).2 ≤ 8 := by decide
      exact hall col hc
    · unfold colEnds
      rw [List.getD_eq_getElem?_getD, List.getElem?_eq_none (Nat.le_of_not_lt hc)]
      exact ⟨Nat.zero_le _, Nat.zero_le _⟩
  unfold colFar
  split
  · exact hends.2
  · exact hends.1

theorem enterDie_le {p : Nat} (hp : p ≤ 8) (l : List Nat) (c : Nat) : enterDie p l c ≤ 8 := by
  induction l generalizing p with
  | nil => exact hp
  | cons x xs ih =>
    unfold enterDie
    split
    · exact hp
    · exact ih (colFar_le x p)

theorem spanOf_lt {addr n : Nat} (h : spanOf addr = some n) : n < 8 := by
  unfold spanOf at h
  exact List.mem_range.mp (List.mem_of_find?_eq_some h)

/-! ### What the arrival of an answer leaves as it was -/

/-- The cores, the tables of unconfirmed loads and of confirmations and a half's count of denials are as they were. -/
structure SameShadow (half : Nat) (s t : State) : Prop where
  cor : t.cor = s.cor
  loads : t.mem.loads = s.mem.loads
  conf : t.mem.conf = s.mem.conf
  deny : t.reg (R.ucShdDeny half) = s.reg (R.ucShdDeny half)

namespace SameShadow
variable {half : Nat} {s t u : State}

theorem refl (half : Nat) (s : State) : SameShadow half s s := ⟨rfl, rfl, rfl, rfl⟩

theorem trans (h : SameShadow half s t) (h' : SameShadow half t u) : SameShadow half s u :=
  ⟨h'.cor.trans h.cor, h'.loads.trans h.loads, h'.conf.trans h.conf, h'.deny.trans h.deny⟩

theorem setReg (s : State) {a : Nat} (h : R.ucShdDeny half ≠ a) (v : Nat) : SameShadow half s (s.setReg a v) :=
  ⟨rfl, rfl, rfl, State.reg_setReg_ne s v h⟩

theorem setFld (s : State) {a : Nat} (h : R.ucShdDeny half ≠ a) (hi lo v : Nat) : SameShadow half s (s.setFld a hi lo v) :=
  setReg s h _

theorem count (s : State) {a : Nat} (h : R.ucShdDeny half ≠ a) (k : Nat) : SameShadow half s (s.count a k) := setReg s h _

theorem notCairn (half : Nat) : notCairnCount (R.ucShdDeny half) := .inr (by unfold R.ucShdDeny Base.uc; omega)

theorem event (s : State) {die : Nat} (hd : die ≤ 8) (h code : Nat) (fs : List (Nat × Nat)) :
    SameShadow half s (s.event die h code fs) :=
  ⟨by simp, by simp, by simp, State.reg_event s _ _ _ _ _ hd (notCairn half)⟩

theorem halfEvent (s : State) {h : Nat} (hh : h < 16) (code : Nat) (fs : List (Nat × Nat)) :
    SameShadow half s (s.halfEvent h code fs) := event s (by omega) _ _ _

theorem notice (s : State) (n : Notice) (hd : n.die ≤ 8) : SameShadow half s (s.notice n) :=
  ⟨by simp, by simp, by simp, State.reg_notice s n _ hd (notCairn half) (by unfold R.ucShdDeny Base.uc R.crnStatus Base.crn; omega)⟩

/-! #### Messages sent (R466, R556, R557) -/

theorem setMsg (s : State) (n : Nat) (m : CohMsg) : SameShadow half s (s.setMsg n m) := ⟨rfl, rfl, rfl, rfl⟩
theorem unpost (s : State) (n : Nat) : SameShadow half s (s.unpost n) := ⟨rfl, rfl, rfl, rfl⟩
theorem setOut (s : State) (h n : Nat) : SameShadow half s (s.setOut h n) := ⟨rfl, rfl, rfl, rfl⟩

theorem colEndLost_ne {col die p k : Nat} (h : colEndReg col die = some (p, k)) : R.ucShdDeny half ≠ R.colEndLost p k := by
  have hk : k ≤ 3 := by
    unfold colEndReg at h
    split at h
    · simp at h
    · split at h
      · obtain ⟨-, rfl⟩ := Prod.mk.inj (Option.some.inj h)
        split <;> omega
      · split at h
        · obtain ⟨-, rfl⟩ := Prod.mk.inj (Option.some.inj h); omega
        · obtain ⟨-, rfl⟩ := Prod.mk.inj (Option.some.inj h); omega
  unfold R.ucShdDeny R.colEndLost Base.uc Base.colEnd
  omega

theorem lostAt (s : State) (col die n : Nat) : SameShadow half s (s.lostAt col die n) := by
  unfold State.lostAt
  split
  · next h => exact count s (colEndLost_ne h) n
  · split
    · next h => exact count s (colEndLost_ne h) n
    · exact refl half s

theorem unsent (s : State) {src : Nat} (hs : src ≤ 8) (col part engine : Nat) : SameShadow half s (s.unsent col src part engine) := by
  have hev := (lostAt (half := half) s col src 1).trans (event _ hs 0 0x0807 [(1, part), (1, col), (1, engine)])
  unfold State.unsent
  dsimp only
  split
  · exact hev.trans (notice _ _ hs)
  · exact hev

theorem launch (s : State) (n : Nat) {m : CohMsg} (hm : m.src.die ≤ 8) : SameShadow half s (s.launch n m) := by
  unfold State.launch
  split
  · exact setMsg s n _
  · exact (unsent s (enterDie_le hm _ _) _ _ _).trans (setMsg _ n _)

theorem answered (s : State) {h : Nat} (hh : h < 16) (line : Nat) : SameShadow half s (s.answered h line) := by
  unfold State.answered
  dsimp only
  split
  · split
    · next n m hq =>
      unfold State.queuedOf at hq
      have hfound := List.find?_some hq
      simp only [Bool.and_eq_true, beq_iff_eq] at hfound
      have hdie : m.src.die ≤ 8 := by unfold Agent.die; rw [hfound.2]; dsimp only; omega
      exact ((setOut s h _).trans (setOut _ h _)).trans (launch _ n hdie)
    · exact setOut s h _
  · exact refl half s

/-! #### Guest fills (R439, R442) -/

theorem useStack (s : State) (line : Nat) : SameShadow half s (s.useStack line) := by
  unfold State.useStack
  split
  · exact refl half s
  · next n hn =>
    have hlt := spanOf_lt hn
    have hmem : SameShadow half s { s with mem := { s.mem with stackUse := Map.set s.mem.stackUse n s.mod.islandUs } } :=
      ⟨rfl, rfl, rfl, rfl⟩
    dsimp only
    split
    · exact hmem.trans ((setFld _ (by unfold R.ucShdDeny R.ucHbmState Base.uc Base.ucA; omega) _ _ _).trans
        (event _ (by omega) _ _ _))
    · exact hmem

theorem writeStack (s : State) (line mask data : Nat) : SameShadow half s (s.writeStack line mask data) := by
  unfold State.writeStack
  split
  · exact refl half s
  · exact (useStack s line).trans ⟨rfl, rfl, rfl, rfl⟩

theorem setWays (s : State) (h line : Nat) (l : List Way) : SameShadow half s (s.setWays h line l) := by
  have hne : R.ucShdDeny half ≠ R.ucGuest h := by unfold R.ucShdDeny R.ucGuest Base.uc; omega
  exact ⟨rfl, rfl, rfl, State.reg_setFld_ne _ _ _ _ hne⟩

theorem putWay (s : State) (h : Nat) (w : Way) (low : Bool) : SameShadow half s (s.putWay h w low) := by
  unfold State.putWay
  dsimp only
  split
  · split
    · exact setWays s _ _ _
    · split
      · exact setWays s _ _ _
      · exact (writeStack s _ _ _).trans (setWays _ _ _ _)
  · exact setWays s _ _ _

theorem guestFill (s : State) (h : Nat) (m : CohMsg) : SameShadow half s (s.guestFill h m) := by
  unfold State.guestFill
  split
  · split
    · unfold State.putGuest
      dsimp only
      split
      · exact refl half s
      · exact (setWays s _ _ _).trans (putWay _ _ _ _)
    · exact refl half s
  · exact refl half s

theorem showConf (s : State) (h : Nat) : SameShadow half s (s.showConf h) :=
  setFld s (by unfold R.ucShdDeny R.ucShdTable Base.uc; omega) _ _ _

end SameShadow

/-! ### The answer put by for the group's reads (R518) -/

/-- `z` is group `x` but for the reads of its window and its replay and its memory instruction. -/
def Group.sameButReads (x z : Group) : Prop := z = { x with window := z.window, replay := z.replay, memop := z.memop }

/-- Group `x` at `g` stands but for its reads, and so do the memory system and the registers. -/
def SameButReads (g : GroupRef) (x : Group) (s t : State) : Prop :=
  (∃ z, t.group? g = some z ∧ x.sameButReads z) ∧ t.mem = s.mem ∧ t.regs = s.regs

theorem State.tryMem_of_wait {s : State} {g : GroupRef} {x : Group} (hx : s.group? g = some x) (hw : x.wait ≠ .memory) :
    s.tryMem g = s := by
  unfold State.tryMem
  rw [hx]
  dsimp only
  split
  · rfl
  · rw [if_pos (by simpa using hw)]

/-- The groups of a half whose window or replay waits for an answer put it by. -/
def State.keepAnswers (s : State) (half : Nat) (m : CohMsg) : State :=
  (s.cor.cores.filter fun q => q.1 / 128 == half).foldl (fun s q => q.2.groups.foldl (fun s p =>
    let g : GroupRef := { half := half, core := q.1 % 128, slot := p.1 }
    if (p.2.window ++ p.2.replay).any fun w => w.conf == m.tag then (s.setGroup g (p.2.keepAnswer m)).tryMem g else s) s) s

/-- Where one group alone waits for the answer, and not at a memory instruction, nothing but its reads differs. -/
theorem State.keepAnswers_keeps {s : State} {half : Nat} {m : CohMsg} {g : GroupRef} {x : Group} (hg : g.wf = true)
    (hh : g.half = half) (hx : s.group? g = some x) (hw : x.wait ≠ .memory)
    (hone : ∀ q ∈ s.cor.cores, q.1 / 128 = half → ∀ p ∈ q.2.groups,
      (p.2.window ++ p.2.replay).any (fun w => w.conf == m.tag) = true → q.1 = coreKey half g.core ∧ p = (g.slot, x)) :
    SameButReads g x s (s.keepAnswers half m) := by
  have hcore : g.core < 128 := by simp [GroupRef.wf] at hg; omega
  refine List.foldlRecOn (motive := SameButReads g x s) _ _ ⟨⟨x, hx, rfl⟩, rfl, rfl⟩ fun t ht q hq => ?_
  refine List.foldlRecOn (motive := SameButReads g x s) _ _ ht fun u hu p hp => ?_
  obtain ⟨hqmem, hqhalf⟩ := List.mem_filter.mp hq
  dsimp only
  split
  · next hany =>
    obtain ⟨hkey, rfl⟩ := hone q hqmem (by simpa using hqhalf) p hp hany
    have href : ({ half := half, core := q.1 % 128, slot := g.slot } : GroupRef) = g := by
      have hmod : q.1 % 128 = g.core := by rw [hkey]; unfold coreKey; omega
      rw [hmod, ← hh]
    have hidle := State.tryMem_of_wait (x := x.keepAnswer m) (State.group_setGroup_self u g _) hw
    rw [href, hidle]
    obtain ⟨-, hmem, hregs⟩ := hu
    exact ⟨⟨_, State.group_setGroup_self _ _ _, rfl⟩, hmem, hregs⟩
  · exact hu

/-! ### The load meets the answer (R517, R518, R522) -/

/-- A denial adds one to the half's count and leaves the cores and the tables. -/
theorem State.countDenial_keeps (s : State) {half : Nat} (hh : half < 16) :
    (s.countDenial half).cor = s.cor ∧ (s.countDenial half).mem.loads = s.mem.loads ∧ (s.countDenial half).mem.conf = s.mem.conf ∧
      (s.countDenial half).reg (R.ucShdDeny half) = min (s.reg (R.ucShdDeny half) + 1) (2 ^ 32 - 1) := by
  have hcount := s.reg_count_self (R.ucShdDeny half) 1
  unfold State.countDenial
  dsimp only
  split
  · have hk := (SameShadow.count (half := half) ({ s.count (R.ucShdDeny half) 1 with mem := { s.mem with
        denies := Map.set s.mem.denies half (Map.getD s.mem.denies half 0 + 1), cutTo := Map.set s.mem.cutTo half (s.rnd.round + 1) } })
      (a := R.ucShdCut half) (by unfold R.ucShdDeny R.ucShdCut; omega) 1).trans
        (SameShadow.halfEvent _ hh 0x0701 [(1, half), (8, s.rnd.round), (4, Map.getD s.mem.denies half 0 + 1)])
    exact ⟨hk.cor, hk.loads, hk.conf, hk.deny.trans hcount⟩
  · exact ⟨rfl, rfl, rfl, hcount⟩

section
variable {s : State} {id : Nat} {m : CohMsg} {l : UnconfLoad} {g : GroupRef} {z : Group}

/-- Where the bytes agree the group's last unconfirmed load is confirmed, and its window ends. -/
theorem State.meetLoad_confirms (hl : Map.get? s.mem.loads id = some l) (hb : m.bad = false) (ha : l.agrees m.line m.data = true)
    (hw : l.waits = [m.tag]) (hg : g = { half := l.half, core := l.core, slot := l.slot }) (hz : s.group? g = some z)
    (hu : z.unconf = [id]) : s.meetLoad id m = (s.dropLoad id).setGroup g { z.endWindow with unconf := [] } := by
  subst hg
  have hz' : (s.dropLoad id).group? { half := l.half, core := l.core, slot := l.slot } = some z := hz
  unfold State.meetLoad
  rw [hl]
  simp only [hb, ha, hw, Bool.not_true, Bool.or_self, Bool.false_eq_true, if_false, bne_self_eq_false, List.filter_cons,
    List.filter_nil, if_true]
  unfold State.confirmLoad
  simp only [hz', hu, bne_self_eq_false, Bool.false_eq_true, if_false, List.filter_cons, List.filter_nil, if_true]

/-- Where they differ the group returns to its checkpoint, and the denial is counted. -/
theorem State.meetLoad_denies (hl : Map.get? s.mem.loads id = some l) (ha : l.agrees m.line m.data = false)
    (hg : g = { half := l.half, core := l.core, slot := l.slot }) (hz : s.group? g = some z) (hu : z.unconf = [id]) :
    s.meetLoad id m = ((s.dropLoad id).setGroup g (z.restore fun c => m.bad && c == m.tag)).countDenial l.half := by
  subst hg
  unfold State.meetLoad
  rw [hl]
  simp only [ha, Bool.not_false, Bool.or_true, if_true]
  unfold State.denyLoad
  simp only [hz, hu, List.foldl_cons, List.foldl_nil]

end

/-! ### CONFIRMATION_RESPONSE -/

section
variable {msg half id : Nat} {m : CohMsg} {e : ConfEntry} {l : UnconfLoad} {g : GroupRef} {x : Group} {c : Checkpoint} {s : State}

/-- The state when an answer has reached its half: its entry is gone from the table of confirmations. -/
def State.answerIn (s : State) (msg half : Nat) (m : CohMsg) : State :=
  let s := ((s.unpost msg).answered half m.line).guestFill half m
  ({ s with mem := { s.mem with conf := Map.erase s.mem.conf m.tag } }).showConf half

theorem State.answerIn_keeps (s : State) (msg : Nat) {half : Nat} (hh : half < 16) (m : CohMsg) :
    (s.answerIn msg half m).cor = s.cor ∧ (s.answerIn msg half m).mem.loads = s.mem.loads ∧
      (s.answerIn msg half m).mem.conf = Map.erase s.mem.conf m.tag ∧
      (s.answerIn msg half m).reg (R.ucShdDeny half) = s.reg (R.ucShdDeny half) := by
  have hin := ((SameShadow.unpost (half := half) s msg).trans (.answered _ hh m.line)).trans (.guestFill _ half m)
  unfold State.answerIn
  generalize ((s.unpost msg).answered half m.line).guestFill half m = u at hin
  have hshow := SameShadow.showConf (half := half) { u with mem := { u.mem with conf := Map.erase u.mem.conf m.tag } } half
  exact ⟨hshow.cor.trans hin.cor, hshow.loads.trans hin.loads,
    hshow.conf.trans (congrArg (fun t => Map.erase t m.tag) hin.conf), hshow.deny.trans hin.deny⟩

/-- A good answer that one load waits for is put by, and the load meets it. -/
theorem confirmationResponse_eq (hu : s.unitsRun = true) (hh : half < 16) (hm : s.msgOf msg .data = some m) (hd : m.dst = .conf half)
    (hb : m.bad = false) (he : Map.get? s.mem.conf m.tag = some e) (hl : e.loads = [id]) :
    exec (.confirmationResponse msg) s = .next (((s.answerIn msg half m).keepAnswers half m).meetLoad id m) := by
  have hconf := ((SameShadow.unpost (half := half) s msg).trans (.answered _ hh m.line)).trans (.guestFill _ half m) |>.conf
  change execConfirmationResponse msg s = _
  unfold execConfirmationResponse
  rw [hm]
  simp only [hd, State.whenRun_eq hu, hconf, he, hl, hb, Bool.false_and, Bool.false_eq_true, if_false, List.foldl_cons, List.foldl_nil]
  unfold State.answerIn State.keepAnswers
  simp only [hconf]

theorem Map.get?_dropLoad_conf {s : State} {tag : Nat} (h : Map.get? s.mem.conf tag = none) (id : Nat) :
    Map.get? (s.dropLoad id).mem.conf tag = none := by
  unfold State.dropLoad
  rw [Map.get?_mapVals, h]
  rfl

/-- Answer `m`, at number `msg`, comes to a half whose entry `e` names load `id` alone. The load, `l`, waits for this answer
alone; it is the one unconfirmed load of group `x` at `g`, whose checkpoint is `c`; no other group of the half reads by the
answer. -/
structure State.AnswersLast (s : State) (msg half id : Nat) (m : CohMsg) (e : ConfEntry) (l : UnconfLoad) (g : GroupRef)
    (x : Group) (c : Checkpoint) : Prop where
  units : s.unitsRun = true
  half_lt : half < 16
  wf : g.wf = true
  half_eq : g.half = half
  arrives : s.msgOf msg .data = some m
  dst : m.dst = .conf half
  good : m.bad = false
  entry : Map.get? s.mem.conf m.tag = some e
  names : e.loads = [id]
  load : Map.get? s.mem.loads id = some l
  ofGroup : g = { half := l.half, core := l.core, slot := l.slot }
  waits : l.waits = [m.tag]
  group : s.group? g = some x
  unconf : x.unconf = [id]
  ckpt : x.ckpt = some c
  notMem : x.wait ≠ .memory
  alone : ∀ q ∈ s.cor.cores, q.1 / 128 = half → ∀ p ∈ q.2.groups,
    (p.2.window ++ p.2.replay).any (fun w => w.conf == m.tag) = true → q.1 = coreKey half g.core ∧ p = (g.slot, x)

theorem confirmationResponse_settles (h : s.AnswersLast msg half id m e l g x c) :
    Does (.confirmationResponse msg) s fun t => ∃ y, t.group? g = some y ∧ y.unconf = [] ∧ y.pendRegs = [] ∧ y.pendPreds = [] ∧
      y.pathPending = false ∧ y.ckpt = none ∧ y.window = [] ∧ Map.get? t.mem.loads id = none ∧ Map.get? t.mem.conf m.tag = none ∧
      (l.agrees m.line m.data = true → y.regs = x.regs ∧ y.preds = x.preds ∧ y.pc = x.pc ∧ y.mask = x.mask ∧ y.stack = x.stack ∧
        y.wait = x.wait ∧ t.reg (R.ucShdDeny half) = s.reg (R.ucShdDeny half)) ∧
      (l.agrees m.line m.data = false → y.regs = c.regs ∧ y.preds = c.preds ∧ y.pc = c.pc ∧ y.mask = c.mask ∧ y.rpc = c.rpc ∧
        y.stack = c.stack ∧ y.gprog = c.gprog ∧ y.wait = .ready ∧
        t.reg (R.ucShdDeny half) = min (s.reg (R.ucShdDeny half) + 1) (2 ^ 32 - 1)) := by
  refine ⟨_, confirmationResponse_eq h.units h.half_lt h.arrives h.dst h.good h.entry h.names, ?_⟩
  obtain ⟨hcor, hloads, hconf, hdeny⟩ := s.answerIn_keeps msg h.half_lt m
  generalize s.answerIn msg half m = u at hcor hloads hconf hdeny
  have hux : u.group? g = some x := (State.group_of_cor hcor g).trans h.group
  obtain ⟨⟨z, hz, hxz⟩, hmem, hregs⟩ := State.keepAnswers_keeps h.wf h.half_eq hux h.notMem (by rw [hcor]; exact h.alone)
  generalize u.keepAnswers half m = v at hz hmem hregs
  have hvl : Map.get? v.mem.loads id = some l := by rw [hmem, hloads, h.load]
  have hvc : Map.get? v.mem.conf m.tag = none := by rw [hmem, hconf]; exact Map.get?_erase_self _ _
  have hvd : v.reg (R.ucShdDeny half) = s.reg (R.ucShdDeny half) := by rw [← hdeny]; unfold State.reg; rw [hregs]
  have hdrop := Map.get?_dropLoad_conf hvc id
  have hgone : Map.get? (v.dropLoad id).mem.loads id = none := Map.get?_erase_self _ _
  have hlh : half = l.half := by rw [← h.half_eq, h.ofGroup]
  have hzu : z.unconf = [id] := by rw [hxz]; exact h.unconf
  cases ha : l.agrees m.line m.data with
  | true =>
    rw [State.meetLoad_confirms hvl h.good ha h.waits h.ofGroup hz hzu]
    refine ⟨_, State.group_setGroup_self _ _ _, rfl, rfl, rfl, rfl, rfl, rfl, hgone, hdrop, fun _ => ?_, fun hn => by simp at hn⟩
    rw [hxz]
    exact ⟨rfl, rfl, rfl, rfl, rfl, rfl, hvd⟩
  | false =>
    rw [State.meetLoad_denies hvl ha h.ofGroup hz hzu, ← hlh]
    obtain ⟨hkcor, hkloads, hkconf, hkdeny⟩ :=
      ((v.dropLoad id).setGroup g (z.restore fun c => m.bad && c == m.tag)).countDenial_keeps h.half_lt
    have hgroup := State.group_setGroup_self (v.dropLoad id) g (z.restore fun c => m.bad && c == m.tag)
    have hzc : z.ckpt = some c := by rw [hxz]; exact h.ckpt
    refine ⟨_, (State.group_of_cor hkcor g).trans hgroup, ?_⟩
    rw [hkloads, hkconf, hkdeny, Group.restore, hzc]
    refine ⟨rfl, rfl, rfl, rfl, rfl, rfl, hgone, hdrop, fun hn => by simp at hn, fun _ => ?_⟩
    exact ⟨rfl, rfl, rfl, rfl, rfl, rfl, rfl, rfl, by rw [← hvd]; rfl⟩

end

/-- Settles O41: the end of a block, and a confirmation for a group's one unconfirmed load, by the theorems above. -/
theorem blocksAndConfirmations : Obligations.BlocksAndConfirmations := by
  unfold Obligations.BlocksAndConfirmations
  exact ⟨fun _ _ _ _ _ hu hx hd => blockEnd_frees hu hx hd,
    fun _ _ _ _ _ _ _ _ _ _ hu hh hg hgh hm hd hb he hel hl hlh hlc hls hw hx hxu hxc hxw hone =>
      confirmationResponse_settles {
        units := hu, half_lt := hh, wf := hg, half_eq := hgh, arrives := hm, dst := hd, good := hb, entry := he, names := hel,
        load := hl, ofGroup := by rw [hlh, hlc, hls, ← hgh], waits := hw, group := hx, unconf := hxu, ckpt := hxc,
        notMem := hxw, alone := hone }⟩

end Sys2Proof.Machine
end

section
/-! PROOFS. A write to COR_MFLT_CTL that resumes or aborts a half with no stopped group (R361). -/

namespace Sys2Proof.Machine

/-! ### A resume or an abort with no group stopped (R361) -/

section
variable {half : Nat} {s : State}

/-- A change that would leave the state as it is does so whether or not the units run. -/
theorem State.whenRun_of_fixed {f : State → State} (h : f s = s) : s.whenRun f = s := by
  cases hu : s.unitsRun with
  | true => exact (State.whenRun_eq hu f).trans h
  | false => exact State.whenRun_halted hu f

theorem mfltResume_ignored (h : s.stoppedOf half = []) : Ignored (.mfltResume half) s := by
  change execMfltResume half s = .next s
  unfold execMfltResume
  rw [State.whenRun_of_fixed]
  simp only [h]

theorem mfltAbort_ignored (h : s.stoppedOf half = []) : Ignored (.mfltAbort half) s := by
  change execMfltAbort half s = .next s
  unfold execMfltAbort
  rw [State.whenRun_of_fixed]
  exact if_pos h

end

/-- Settles O39: each command changes the state only where a group of the half is stopped. -/
theorem memoryFaultControlIgnored : Obligations.MemoryFaultControlIgnored := by
  unfold Obligations.MemoryFaultControlIgnored
  exact fun _ _ h => ⟨mfltResume_ignored h, mfltAbort_ignored h⟩

end Sys2Proof.Machine
end

section
/-! PROOFS. The matrix arrays: what a half's array, its draws and its counters read after the operations of this family, what a
chunk read from memory adds to integer accumulators, and then, said once per command, how a tile goes from the queue through
its main loop to its end (R383, R385, R387, R396, R400, R406, R409). A tile leaves the queue when its main loop starts, by log
entry 40. -/

namespace Sys2Proof.Machine

/-! ### The array of a half, its draws and its registers -/

/-- An array with one tile, replaced by its successor. -/
theorem ArraySt.setTile_queue {a : ArraySt} {t u : Tile} (hq : a.queue = [t]) (hn : u.no = t.no) : (a.setTile u).queue = [u] := by
  simp [ArraySt.setTile, hq, hn]

theorem ArraySt.setTile_running {a : ArraySt} {t u : Tile} (hr : a.running = [t]) (hn : u.no = t.no) :
    (a.setTile u).running = [u] := by
  simp [ArraySt.setTile, hr, hn]

section
variable (s : State) (h : Nat)

@[simp] theorem State.array_setArray_self (a : ArraySt) : (s.setArray h a).array h = a := Map.getD_set_self _ _ _ _

@[simp] theorem State.cor_setArray (a : ArraySt) : (s.setArray h a).cor = s.cor := State.setReg_cor _ _ _

@[simp] theorem State.array_setGroup (g : GroupRef) (x : Group) : (s.setGroup g x).array h = s.array h := rfl

@[simp] theorem State.drawsOf_setArray (k : Nat) (a : ArraySt) : (s.setArray k a).drawsOf h = s.drawsOf h := rfl

@[simp] theorem State.drawsOf_setReg (a v : Nat) : (s.setReg a v).drawsOf h = s.drawsOf h := rfl

@[simp] theorem State.drawsOf_count64 (lo hi k : Nat) : (s.count64 lo hi k).drawsOf h = s.drawsOf h := rfl

@[simp] theorem State.drawsOf_setGroup (g : GroupRef) (x : Group) : (s.setGroup g x).drawsOf h = s.drawsOf h := rfl

@[simp] theorem State.drawsOf_setDraws_self (l : List Draw) : (s.setDraws h l).drawsOf h = l := by
  unfold State.drawsOf State.setDraws
  simp only [State.setFld_pwr]
  split
  · next hl => rw [Map.getD_erase_self, hl]
  · exact Map.getD_set_self _ _ _ _

theorem State.drawGranted_of_draws {s t : State} {h : Nat} (e : t.drawsOf h = s.drawsOf h) (unit : Nat) :
    t.drawGranted h unit = s.drawGranted h unit := by
  unfold State.drawGranted; rw [e]

theorem State.reg_setArray_ne (k : Nat) (a : ArraySt) {b : Nat} (hb : b ≠ R.mxaStatus k) : (s.setArray k a).reg b = s.reg b :=
  State.reg_setReg_ne _ _ hb

/-- Draws show in the governor's registers of their half only; those of the array lie below them (R914). -/
theorem State.reg_setDraws_below (l : List Draw) {a : Nat} (ha : a < Base.gov h) : (s.setDraws h l).reg a = s.reg a := by
  have hshare : a ≠ R.govShare h := by unfold R.govShare; omega
  have hpause : a ≠ R.govPause h := by unfold R.govPause; omega
  unfold State.setDraws
  rw [State.reg_setFld_ne _ _ _ _ hpause, State.reg_setFld_ne _ _ _ _ hshare]
  rfl

theorem mxa_below_gov {o : Nat} (ho : o < 0x8000) : Base.mxa h + o < Base.gov h := by unfold Base.mxa Base.gov; omega

/-- A release takes away the unit's own draws and keeps the others in their order. -/
theorem State.drawsOf_releaseDraw (unit : Nat) :
    (s.releaseDraw h unit).drawsOf h = (s.drawsOf h).filter fun d => d.unit != unit := State.drawsOf_setDraws_self _ _ _

theorem State.reg_releaseDraw_below (unit : Nat) {a : Nat} (ha : a < Base.gov h) : (s.releaseDraw h unit).reg a = s.reg a :=
  State.reg_setDraws_below _ _ _ ha

@[simp] theorem State.drawGranted_releaseDraw_self (unit : Nat) : (s.releaseDraw h unit).drawGranted h unit = false := by
  unfold State.drawGranted
  rw [State.drawsOf_releaseDraw, List.any_filter, List.any_eq_false]
  intro d _
  by_cases hd : d.unit = unit <;> simp [hd]

/-- No release grants a draw. -/
theorem State.drawGranted_releaseDraw_of_not {unit : Nat} (hn : s.drawGranted h unit = false) (other : Nat) :
    (s.releaseDraw h other).drawGranted h unit = false := by
  unfold State.drawGranted at hn ⊢
  rw [List.any_eq_false] at hn
  rw [State.drawsOf_releaseDraw, List.any_eq_false]
  exact fun d hd => hn d (List.mem_filter.mp hd).1

/-- The array's first draw is granted where the share covers it (R409, R615). -/
theorem State.arrayDraw_eq_of_none {s : State} {h unit pips : Nat} (hd : s.drawsOf h = []) (hs : pips ≤ s.shareOf h)
    (hh : s.pwr.halted = false) :
    s.arrayDraw h unit pips = s.setDraws h [{ unit := unit, pips := pips, st := .granted, since := s.absTurn }] := by
  have hask : s.requestDraw h unit pips =
      s.setDraws h [{ unit := unit, pips := pips, st := .granted, since := s.absTurn }] := by
    simp [State.requestDraw, hd, hs, hh, drawnTotal]
  have hgot : (s.requestDraw h unit pips).drawGranted h unit = true := by simp [hask, State.drawGranted]
  unfold State.arrayDraw
  simp only [hd, List.any_nil, Bool.false_eq_true, if_false, hgot, if_true]
  exact hask

theorem State.not_halted_of_unitsRun {s : State} (hu : s.unitsRun = true) : s.pwr.halted = false := by
  unfold State.unitsRun at hu
  simp only [Bool.and_eq_true, Bool.not_eq_true'] at hu
  exact hu.1.1

end

/-! ### Counters of 64 bits -/

theorem State.reg_count64_ne (s : State) {lo hi a : Nat} (k : Nat) (hl : a ≠ lo) (hh : a ≠ hi) :
    (s.count64 lo hi k).reg a = s.reg a := by
  unfold State.count64
  rw [State.reg_setReg_ne _ _ hh, State.reg_setReg_ne _ _ hl]

/-- A 64-bit counter goes up by `k`, modulo its width. -/
theorem State.pair_count64 (s : State) {lo hi : Nat} (k : Nat) (hne : lo ≠ hi) :
    (s.count64 lo hi k).pair lo hi = (s.pair lo hi + k) % 2 ^ 64 := by
  unfold State.count64 State.pair
  rw [State.reg_setReg_ne _ _ hne, State.reg_setReg_self, State.reg_setReg_self]
  omega

theorem State.pair_of_reg {s t : State} {lo hi : Nat} (hl : t.reg lo = s.reg lo) (hh : t.reg hi = s.reg hi) :
    t.pair lo hi = s.pair lo hi := by
  unfold State.pair; rw [hl, hh]

/-! ### Sums of products over a chunk (R387) -/

/-- The low byte of a number has its sign. -/
theorem signed_mod_byte (b : Nat) : signed 8 (b % 256) = signed 8 b := by
  have hbit : bit (b % 256) 7 = bit b 7 := by
    unfold bit
    rw [show b % 256 / 2 ^ 7 % 2 = b / 2 ^ 7 % 2 by omega]
  unfold signed
  rw [hbit]
  simp

/-- Elements of one byte are the bytes. -/
theorem elemsOf_one (bs : List Nat) : elemsOf 1 bs.length bs = bs.map (· % 256) := by
  induction bs with
  | nil => rfl
  | cons b bs ih => simp [elemsOf, leVal, ih]

theorem dotInt_eq_sum (xs ys : List Nat) (acc : Int) :
    dotInt xs ys acc = acc + ((xs.zip ys).map fun p => signed 8 p.1 * signed 8 p.2).sum := by
  unfold dotInt
  induction xs.zip ys generalizing acc with
  | nil => simp
  | cons p ps ih => rw [List.foldl_cons, ih, List.map_cons, List.sum_cons]; omega

/-- In lists of one length joined, the entry at `i * n + j` is the `j`-th of the `i`-th list. -/
theorem getElem?_flatMap_block {α β : Type} (l : List α) (f : α → List β) {n : Nat} (hf : ∀ x ∈ l, (f x).length = n) {i j : Nat}
    (hi : i < l.length) (hj : j < n) : (l.flatMap f)[i * n + j]? = (f l[i])[j]? := by
  induction l generalizing i with
  | nil => simp at hi
  | cons x xs ih =>
    have hx : (f x).length = n := hf x List.mem_cons_self
    rw [List.flatMap_cons]
    cases i with
    | zero => rw [List.getElem?_append_left (by omega)]; simp
    | succ i =>
      have hk : (i + 1) * n + j = (f x).length + (i * n + j) := by rw [hx, Nat.succ_mul]; omega
      rw [hk, List.getElem?_append_right (Nat.le_add_right _ _), Nat.add_sub_cancel_left]
      exact ih (fun y hy => hf y (List.mem_cons_of_mem _ hy)) (by simpa using hi)

/-- Accumulator `(i, j)` takes row `i` of A and row `j` of Bᵀ. -/
theorem accChunk_getD (ftz : Bool) (d : TileDesc) (ra rb sa sb : List (List Nat)) {acc : List Int} {i j : Nat}
    (hi : i < ra.length) (hj : j < rb.length) (hacc : i * rb.length + j < acc.length) :
    (accChunk ftz d ra rb sa sb acc).getD (i * rb.length + j) 0 =
      accElem ftz d ra[i] rb[j] (sa.getD i []) (sb.getD j []) (acc.getD (i * rb.length + j) 0) := by
  have hcell : (ra.zipIdx.flatMap fun x => rb.zipIdx.map fun y => (x, y))[i * rb.length + j]? =
      some ((ra[i], i), (rb[j], j)) := by
    rw [getElem?_flatMap_block _ _ (n := rb.length) (by simp) (by simpa using hi) hj]
    simp [hj]
  have hat : acc[i * rb.length + j]? = some (acc.getD (i * rb.length + j) 0) := by simp [hacc]
  have hzip : ((ra.zipIdx.flatMap fun x => rb.zipIdx.map fun y => (x, y)).zip acc)[i * rb.length + j]? =
      some (((ra[i], i), (rb[j], j)), acc.getD (i * rb.length + j) 0) := List.getElem?_zip_eq_some.mpr ⟨hcell, hat⟩
  unfold accChunk
  rw [List.getD_eq_getElem?_getD, List.getElem?_map, hzip]
  rfl

theorem accElem_int {d : TileDesc} (hfmt : d.fmtA = 1) (hpro : bits d.pro 1 0 = 0) (ftz : Bool) (xs ys sa sb : List Nat) (acc : Int) :
    accElem ftz d xs ys sa sb acc = dotInt xs ys acc := by
  simp [accElem, hfmt, hpro]

/-- Rows of one-byte elements, as the main loop takes them from memory. -/
theorem State.elems_rowsOf (s : State) (base stride count off len : Nat) :
    (s.rowsOf base stride count off len).map (elemsOf 1 len) =
      (List.range count).map fun i => (List.range len).map fun k => s.deviceByte (base + i * stride + off + k) % 256 := by
  have hrow (a : Nat) : elemsOf 1 len (s.deviceBytes a len) = (List.range len).map fun k => s.deviceByte (a + k) % 256 := by
    have hlen : (s.deviceBytes a len).length = len := by simp [State.deviceBytes]
    have e := elemsOf_one (s.deviceBytes a len)
    rw [hlen] at e
    rw [e, State.deviceBytes, List.map_map]
    rfl
  rw [State.rowsOf, List.map_map]
  exact List.map_congr_left fun i _ => hrow _

/-! ### Chunks (R383, R387) -/

section
variable {h : Nat} {tile : Tile} {s : State}

/-- The accumulators of a tile of half `h` after its next chunk, both operands read from memory. -/
def State.accStaged (s : State) (h : Nat) (t : Tile) : List Int :=
  let d := t.desc
  let lo := t.chunks * d.chunkLen
  let len := min d.chunkLen (d.k - lo)
  accChunk (s.array h).ftz d ((s.readChunk d false lo len).rows.map (elemsOf (fmtBytes d.fmtA) len))
    ((s.readChunk d true lo len).rows.map (elemsOf (fmtBytes d.fmtB) len))
    (s.readChunk d false lo len).scales (s.readChunk d true lo len).scales t.acc

/-- The tile of half `h` with that chunk counted and, of a shared operand's chunks, one consumed. -/
def State.stagedTile (s : State) (h : Nat) (t : Tile) : Tile :=
  { t with chunks := t.chunks + 1, acc := s.accStaged h t, inbox := t.inbox.drop 1 }

theorem State.poisonIn_append_of_none {s : State} {l k : List (Nat × Nat)} (hl : (s.poisonIn l).isSome = false)
    (hk : (s.poisonIn k).isSome = false) : s.poisonIn (l ++ k) = none := by
  unfold State.poisonIn at *
  rw [Option.isSome_eq_false_iff, Option.isNone_iff_eq_none] at hl hk
  rw [List.findSome?_append, hl, hk, Option.none_or]

/-- An unpaired tile whose next chunk is free of poison takes it from memory, and nothing else of the machine moves but the
array and its status. -/
theorem chunkStaged_eq (hu : s.unitsRun = true) (ht : (s.array h).staging = some tile) (hr : tile.desc.role = 0)
    (hpa : s.chunkPoisoned tile.desc false (tile.chunks * tile.desc.chunkLen)
      (min tile.desc.chunkLen (tile.desc.k - tile.chunks * tile.desc.chunkLen)) = false)
    (hpb : s.chunkPoisoned tile.desc true (tile.chunks * tile.desc.chunkLen)
      (min tile.desc.chunkLen (tile.desc.k - tile.chunks * tile.desc.chunkLen)) = false) :
    exec (.chunkStaged h) s = .next (s.setArray h ((s.array h).setTile (s.stagedTile h tile))) := by
  have hra : tile.desc.readsA = true := by simp [TileDesc.readsA, hr]
  have hrb : tile.desc.readsB = true := by simp [TileDesc.readsB, hr]
  have hclean := State.poisonIn_append_of_none hpa hpb
  change execChunkStaged h s = _
  unfold execChunkStaged
  rw [State.whenRun_eq hu]
  simp only [ht, hra, hrb, if_true, hclean, hr]
  rfl

/-- On the unscaled INT32 path an accumulator grows by the exact sum of products of the chunk's rows (R387). -/
theorem accStaged_getD (hfa : tile.desc.fmtA = 1) (hfb : tile.desc.fmtB = 1) (hpro : bits tile.desc.pro 1 0 = 0)
    (hacc : tile.acc.length = tile.desc.m * tile.desc.n) {i j : Nat} (hi : i < tile.desc.m) (hj : j < tile.desc.n) :
    let d := tile.desc
    let lo := tile.chunks * d.chunkLen
    (s.accStaged h tile).getD (i * d.n + j) 0 = tile.acc.getD (i * d.n + j) 0 +
      ((List.range (min d.chunkLen (d.k - lo))).map fun k => signed 8 (s.deviceByte (d.aAddr + i * d.lda + lo + k)) *
        signed 8 (s.deviceByte (d.bAddr + j * d.ldb + lo + k))).sum := by
  intro d lo
  have hin : i * d.n + j < tile.acc.length := by
    calc i * d.n + j < (i + 1) * d.n := by rw [Nat.succ_mul]; exact Nat.add_lt_add_left hj _
      _ ≤ d.m * d.n := Nat.mul_le_mul_right _ hi
      _ = tile.acc.length := hacc.symm
  have hone : fmtBytes 1 = 1 := rfl
  unfold State.accStaged State.readChunk
  simp only [hfa, hfb, hone, Nat.mul_one, if_true, Bool.false_eq_true, if_false, State.elems_rowsOf]
  have hget := accChunk_getD (s.array h).ftz d
    (ra := (List.range d.m).map fun i => (List.range (min d.chunkLen (d.k - lo))).map fun k =>
      s.deviceByte (d.aAddr + i * d.lda + lo + k) % 256)
    (rb := (List.range d.n).map fun j => (List.range (min d.chunkLen (d.k - lo))).map fun k =>
      s.deviceByte (d.bAddr + j * d.ldb + lo + k) % 256)
    (i := i) (j := j) (acc := tile.acc)
  simp only [List.length_map, List.length_range] at hget
  rw [hget _ _ hi hj hin, accElem_int hfa hpro, dotInt_eq_sum]
  simp [List.zip_map', signed_mod_byte, Function.comp_def]

/-! ### The main loop (R385, R396, R406, R409) -/

/-- The draw of a main loop as it is granted now (R409). -/
def State.mainDraw (s : State) (d : TileDesc) : Draw :=
  { unit := drawMain, pips := if d.full then 72 else 56, st := .granted, since := s.absTurn }

section
variable {rest : List Tile} (hu : s.unitsRun = true) (hq : (s.array h).queue = tile :: rest)
    (hm : ∀ u ∈ (s.array h).running, u.st ≠ .main) (hl : (s.array h).running.length < 2) (hr : tile.desc.role = 0)
    (hp : tile.mate = none) (hd : s.drawsOf h = []) (hs : (if tile.desc.full then 72 else 56) ≤ s.shareOf h)
include hu hq hm hl hr hp hd hs

/-- The first draw of an unpaired tile is granted, and its main loop starts. -/
theorem mainLoopStart_eq : exec (.mainLoopStart h) s = .next (((s.setDraws h [s.mainDraw tile.desc]).count
        (R.mxaLeaveWait h) (tile.asked.elim 0 (s.absTurn - ·))).setArray h
      { s.array h with queue := rest, running := (s.array h).running ++ [{ tile with st := .main, asked := none }] }) := by
  have hidle : ((s.array h).running.any fun u => u.st == .main) = false := by
    rw [List.any_eq_false]
    simpa using hm
  have hready : s.mateReady tile = true := by simp [State.mateReady, hp]
  have hmay : ((s.array h).running.any (fun u => u.st == .main) || decide (2 ≤ (s.array h).running.length) ||
      !s.mateReady tile) = false := by simp [hidle, hready, hl]
  have hdraw : s.arrayDraw h drawMain (if tile.desc.full then 72 else 56) = s.setDraws h [s.mainDraw tile.desc] :=
    State.arrayDraw_eq_of_none hd hs (State.not_halted_of_unitsRun hu)
  have hgot : (s.setDraws h [s.mainDraw tile.desc]).drawGranted h drawMain = true := by simp [State.drawGranted, State.mainDraw]
  change execMainLoopStart h s = _
  unfold execMainLoopStart
  rw [State.whenRun_eq hu]
  simp only [hq, hmay, hr, hdraw, hgot, Bool.false_eq_true, if_false, if_true, Nat.reduceBEq, Bool.not_false, Bool.true_or,
    Bool.and_self]
  cases tile.asked <;> rfl

theorem mainLoopStart_starts : Does (.mainLoopStart h) s fun t => (t.array h).queue = rest ∧
      (t.array h).running = (s.array h).running ++ [{ tile with st := .main, asked := none }] ∧ t.drawGranted h drawMain = true := by
  refine ⟨_, mainLoopStart_eq hu hq hm hl hr hp hd hs, ?_, ?_, ?_⟩
  · rw [State.array_setArray_self]
  · rw [State.array_setArray_self]
  · simp [State.drawGranted, State.count, State.addFld, State.setFld, State.mainDraw]

end

/-- The state of half `h` when the main loop of `t` has ended with `stall` stall steps, before the next epilogue starts. -/
def State.endLoop (s : State) (h stall : Nat) (t : Tile) : State :=
  (((((s.count64 (R.mxaMainLo h) (R.mxaMainHi h) ((if t.desc.full then 1 else 2) * t.desc.k + stall)).count
    (R.mxaStall h) stall).releaseDraw h drawMain).releaseDraw h drawLead).setArray h
      ((s.array h).setTile { t with st := .ended }))

theorem mainLoopEnd_eq {stall : Nat} (hu : s.unitsRun = true) (hr : (s.array h).running = [tile]) (hm : tile.st = .main)
    (hc : tile.desc.chunks ≤ tile.chunks) : exec (.mainLoopEnd h stall) s = .next ((s.endLoop h stall tile).startEpilogue h) := by
  have hfind : ((s.array h).running.find? fun t => t.st == .main) = some tile := by simp [hr, hm]
  change execMainLoopEnd h stall s = _
  unfold execMainLoopEnd
  rw [State.whenRun_eq hu]
  simp only [hfind, if_neg (Nat.not_lt.mpr hc)]
  rfl

theorem State.running_endLoop (stall : Nat) (hr : (s.array h).running = [tile]) :
    ((s.endLoop h stall tile).array h).running = [{ tile with st := .ended }] := by
  rw [State.endLoop, State.array_setArray_self]
  exact ArraySt.setTile_running hr rfl

/-- Of the registers below the governor's, the end of a main loop writes its counters and the array's status only. -/
theorem State.reg_endLoop (s : State) (h stall : Nat) (t : Tile) {a : Nat} (hs : a ≠ R.mxaStatus h) (ha : a < Base.gov h) :
    (s.endLoop h stall t).reg a = ((s.count64 (R.mxaMainLo h) (R.mxaMainHi h)
      ((if t.desc.full then 1 else 2) * t.desc.k + stall)).count (R.mxaStall h) stall).reg a := by
  rw [State.endLoop, State.reg_setArray_ne _ _ _ hs, State.reg_releaseDraw_below _ _ _ ha, State.reg_releaseDraw_below _ _ _ ha]

theorem State.pair_endLoop (s : State) (h stall : Nat) (t : Tile) :
    (s.endLoop h stall t).pair (R.mxaMainLo h) (R.mxaMainHi h) =
      (s.pair (R.mxaMainLo h) (R.mxaMainHi h) + (if t.desc.full then 1 else 2) * t.desc.k + stall) % 2 ^ 64 := by
  have hlo : R.mxaMainLo h ≠ R.mxaStatus h := by unfold R.mxaMainLo R.mxaStatus; omega
  have hhi : R.mxaMainHi h ≠ R.mxaStatus h := by unfold R.mxaMainHi R.mxaStatus; omega
  have hlo' : R.mxaMainLo h ≠ R.mxaStall h := by unfold R.mxaMainLo R.mxaStall; omega
  have hhi' : R.mxaMainHi h ≠ R.mxaStall h := by unfold R.mxaMainHi R.mxaStall; omega
  have hne : R.mxaMainLo h ≠ R.mxaMainHi h := by unfold R.mxaMainLo R.mxaMainHi; omega
  rw [State.pair_of_reg
      ((s.reg_endLoop h stall t hlo (mxa_below_gov h (by omega))).trans (State.reg_count_ne _ _ hlo'))
      ((s.reg_endLoop h stall t hhi (mxa_below_gov h (by omega))).trans (State.reg_count_ne _ _ hhi')),
    State.pair_count64 _ _ hne, Nat.add_assoc]

theorem State.stall_endLoop (s : State) (h stall : Nat) (t : Tile) :
    (s.endLoop h stall t).reg (R.mxaStall h) = min (s.reg (R.mxaStall h) + stall) (2 ^ 32 - 1) := by
  have hst : R.mxaStall h ≠ R.mxaStatus h := by unfold R.mxaStall R.mxaStatus; omega
  have hlo : R.mxaStall h ≠ R.mxaMainLo h := by unfold R.mxaStall R.mxaMainLo; omega
  have hhi : R.mxaStall h ≠ R.mxaMainHi h := by unfold R.mxaStall R.mxaMainHi; omega
  rw [s.reg_endLoop h stall t hst (mxa_below_gov h (by omega)), State.reg_count_self, State.reg_count64_ne _ _ hlo hhi]

/-- Neither the draw of the main loop nor that of a leader is granted when the loop has ended (R409). -/
theorem State.draws_endLoop (s : State) (h stall : Nat) (t : Tile) :
    (s.endLoop h stall t).drawGranted h drawMain = false ∧ (s.endLoop h stall t).drawGranted h drawLead = false := by
  unfold State.endLoop
  rw [State.drawGranted_of_draws (State.drawsOf_setArray _ _ _ _), State.drawGranted_of_draws (State.drawsOf_setArray _ _ _ _)]
  exact ⟨State.drawGranted_releaseDraw_of_not _ _ (State.drawGranted_releaseDraw_self _ _ _) _,
    State.drawGranted_releaseDraw_self _ _ _⟩

/-! ### Completion (R400) -/

/-- With no tile past its main loop, no epilogue starts. -/
theorem State.startEpilogue_of_idle (hr : (s.array h).running = []) : s.startEpilogue h = s := by
  simp [State.startEpilogue, hr]

/-- A group one of whose tiles has completed: it goes on if it waited for its last (R400). -/
def Group.tileDone (x : Group) : Group :=
  { x with tilesOut := x.tilesOut - 1, wait := if x.tilesOut = 1 ∧ x.wait = .tiles then .ready else x.wait }

/-- The state of half `h` without its completed tiles, its epilogue's draw ended and one tile more counted. -/
def State.retireTile (s : State) (h : Nat) : State :=
  ((s.releaseDraw h drawEpi).count64 (R.mxaTilesLo h) (R.mxaTilesHi h) 1).setArray h { s.array h with running := [] }

theorem State.array_retireTile (s : State) (h : Nat) : (s.retireTile h).array h = { s.array h with running := [] } :=
  State.array_setArray_self _ _ _

theorem State.group_retireTile (s : State) (h : Nat) (g : GroupRef) : (s.retireTile h).group? g = s.group? g := by
  refine State.group_of_cor ?_ g
  rw [State.retireTile, State.cor_setArray, State.count64_cor, (State.releaseDraw_keeps s h drawEpi).1]

theorem State.pair_retireTile (s : State) (h : Nat) : (s.retireTile h).pair (R.mxaTilesLo h) (R.mxaTilesHi h) =
    (s.pair (R.mxaTilesLo h) (R.mxaTilesHi h) + 1) % 2 ^ 64 := by
  have hlo : R.mxaTilesLo h ≠ R.mxaStatus h := by unfold R.mxaTilesLo R.mxaStatus; omega
  have hhi : R.mxaTilesHi h ≠ R.mxaStatus h := by unfold R.mxaTilesHi R.mxaStatus; omega
  have hne : R.mxaTilesLo h ≠ R.mxaTilesHi h := by unfold R.mxaTilesLo R.mxaTilesHi; omega
  have hkeep : (s.releaseDraw h drawEpi).pair (R.mxaTilesLo h) (R.mxaTilesHi h) = s.pair (R.mxaTilesLo h) (R.mxaTilesHi h) :=
    State.pair_of_reg (s.reg_releaseDraw_below h _ (mxa_below_gov h (by decide)))
      (s.reg_releaseDraw_below h _ (mxa_below_gov h (by decide)))
  rw [State.retireTile, State.pair_of_reg (State.reg_setArray_ne _ _ _ hlo) (State.reg_setArray_ne _ _ _ hhi),
    State.pair_count64 _ _ hne, hkeep]

theorem State.draws_retireTile (s : State) (h : Nat) : (s.retireTile h).drawGranted h drawEpi = false := by
  rw [State.retireTile, State.drawGranted_of_draws (State.drawsOf_setArray _ _ _ _),
    State.drawGranted_of_draws (State.drawsOf_count64 _ _ _ _ _), State.drawGranted_releaseDraw_self]

section
variable {x : Group} (hu : s.unitsRun = true) (hr : (s.array h).running = [tile]) (he : tile.st = .epi)
    (hw : s.writesOut (tagTile h tile.no) = 0) (hx : s.group? tile.group = some x)
include hu hr he hw hx

/-- The completion of the only tile of half `h`. -/
theorem tileComplete_eq :
    exec (.tileComplete h) s = .next ((s.retireTile h).setGroup tile.group x.tileDone) := by
  have hfind : ((s.array h).running.find? fun t => t.st == .epi) = some tile := by simp [hr, he]
  have hnone : ((s.array h).running.filter fun u => u.no != tile.no) = [] := by simp [hr]
  have hgroup := (s.group_retireTile h tile.group).trans hx
  have hidle : (((s.retireTile h).setGroup tile.group x.tileDone).array h).running = [] := by
    rw [State.array_setGroup, State.array_retireTile]
  unfold State.retireTile at hgroup
  change execTileComplete h s = _
  unfold execTileComplete
  rw [State.whenRun_eq hu, ← State.startEpilogue_of_idle hidle]
  simp only [hfind, hw, bne_self_eq_false, Bool.false_eq_true, if_false, hnone, hgroup]
  simp [Group.tileDone, State.retireTile]

theorem tileComplete_completes :
    Does (.tileComplete h) s fun t => (t.array h).running = [] ∧ (t.array h).queue = (s.array h).queue ∧
      t.group? tile.group = some x.tileDone ∧
      t.pair (R.mxaTilesLo h) (R.mxaTilesHi h) = (s.pair (R.mxaTilesLo h) (R.mxaTilesHi h) + 1) % 2 ^ 64 ∧
      t.drawGranted h drawEpi = false := by
  refine ⟨_, tileComplete_eq hu hr he hw hx, ?_, ?_, State.group_setGroup_self _ _ _, ?_, ?_⟩
  · rw [State.array_setGroup, State.array_retireTile]
  · rw [State.array_setGroup, State.array_retireTile]
  · exact (State.pair_of_reg (State.reg_setGroup _ _ _ _) (State.reg_setGroup _ _ _ _)).trans (s.pair_retireTile h)
  · exact (State.drawGranted_of_draws (State.drawsOf_setGroup _ _ _ _) _).trans (s.draws_retireTile h)

end

end

/-! ### The statement -/

/-- Settles O43: each command meets a half whose array is as its clause says, and the tile goes on as the lemma about the
command says. MAIN_LOOP_START takes the tile out of the queue by log entry 40. -/
theorem matrixTilesRun : Obligations.MatrixTilesRun := by
  unfold Obligations.MatrixTilesRun
  refine ⟨fun h tile s _ hu ht hr hq _ hpa hpb => ?_,
    fun _ _ _ _ _ hu hq hm hl hr hp hd hs => mainLoopStart_starts hu hq hm hl hr hp hd hs,
    fun h stall tile s _ hu hr hm hc => ?_,
    fun _ _ _ _ _ hu hr he hw hx => tileComplete_completes hu hr he hw hx⟩
  · refine ⟨_, chunkStaged_eq hu ht hr hpa hpb, s.stagedTile h tile, ?_, rfl, rfl,
      fun hfa hfb hpro hacc _ _ => accStaged_getD hfa hfb hpro hacc⟩
    rw [State.array_setArray_self]
    exact ArraySt.setTile_queue hq rfl
  · obtain ⟨hmain, hlead⟩ := s.draws_endLoop h stall tile
    exact ⟨_, mainLoopEnd_eq hu hr hm hc, _, rfl, State.running_endLoop stall hr, hmain, hlead, s.pair_endLoop h stall tile,
      s.stall_endLoop h stall tile⟩

end Sys2Proof.Machine
end
